-- ==== Sys2Proof/Word.lean ====
section
/-! DEFINITION. The word types of the block: the bit widths that `spec/` gives to the quantities
every other file names (R3, the address forms of 00_scope, R47, R82, R121). -/

namespace Sys2Proof

/-- A 32-bit management register (R304). -/
abbrev W32 := BitVec 32
/-- A 64-bit quantity: a register pair, a queue word, a snoop-filter entry. -/
abbrev W64 := BitVec 64
/-- The 64 bytes of one line, byte `n` in bits `[8n + 7:8n]` (R3). -/
abbrev Line := BitVec 512
/-- A 64-bit byte mask of one line (Table 03-2, WRP). -/
abbrev Mask := BitVec 64
/-- A physical address, 52 bits. -/
abbrev PA := BitVec 52
/-- A homed offset, 46 bits. -/
abbrev Off := BitVec 46
/-- A line key, homed offset bits `[45:6]` (R121). -/
abbrev LineKey := BitVec 40
/-- A requester's transaction identifier (Table 03-1). -/
abbrev Tid := BitVec 12
/-- A 9-bit link sequence number (R293). -/
abbrev Seq := BitVec 9

/-- The number of a flit port: DP0 to DP15 are 0 to 15, MP0 to MP7 are 16 to 23, IP0 to IP3 are 24 to 27.
With this numbering the page is `0x40 + p` (Table 16-1), the fault source `34 + p` (Table 12-1) and the adapter
domain `214 + p` (Table 14-1). -/
abbrev PortId := Fin 28
/-- A physical home slice HS0 to HS33. -/
abbrev SliceId := Fin 34

end Sys2Proof
end

