-- ==== Sys2Proof/Syntax.lean ====
section
/-! DEFINITION. The commands of the block: one constructor of `Instr` for each row of
`spec/opcode_table.json`, with the operands a sender gives it. The table gives the rows no operand fields and no
bits, so the operands are read from the rule each row names (notes/assumptions/2.md). -/

namespace Sys2Proof

/-- The world of an access or of a resource (R393). Device authority is no world of an operand. -/
inductive World where
  | ns | s
  deriving DecidableEq, Repr

/-- A window onto a register page (R411). -/
inductive Window where
  | primary | set | clear | toggle
  deriving DecidableEq, Repr

/-- The header and first payload word of a REQ (Tables 03-1 and 03-2), with the port it arrives at. -/
structure Req where
  port  : PortId
  agent : BitVec 5
  tid   : Tid
  rqid  : BitVec 9
  w     : World
  pa    : PA
  sz    : BitVec 3
  deriving DecidableEq, Repr

/-- An RSP that an agent sends: the header fields of Table 03-1 and `kst` of Table 03-2. -/
structure Rsp where
  port  : PortId
  agent : BitVec 5
  htag  : BitVec 14
  kst   : BitVec 2
  deriving DecidableEq, Repr

/-- A DTW. `ans` tells the two DAT queues of R269 apart: a DTW that answers a snoop carries the snoop's `htag`,
one that follows a write-class request carries its `tid` (Table 03-1). -/
structure Dtw where
  port  : PortId
  agent : BitVec 5
  ans   : Bool
  tid   : Tid
  htag  : BitVec 14
  psn   : Bool
  data  : Line
  deriving DecidableEq, Repr

/-- The DAT opcodes an agent forwards to another agent (Table 03-4). -/
inductive DatOp where
  | dts | dte | dtm | dtc
  deriving DecidableEq, Repr

/-- The CXL back-invalidate forms a device may send (Table 11-6). -/
inductive BiForm where
  | cur | data | inv
  deriving DecidableEq, Repr

/-- The acknowledgement and credit field of Table 11-5, without the address byte. -/
structure AckField where
  ackV   : Bool
  ackSeq : Seq
  nak    : Bool
  crCls  : BitVec 4
  crCnt  : BitVec 5
  deriving DecidableEq, Repr

/-- A CTRL flit but for its command: the port it arrives at, and its acknowledgement and credit field (R288, R289). -/
structure CtrlFlit where
  port : PortId
  ack  : AckField
  deriving DecidableEq, Repr

/-- A flit whose CRC fails, with what its sequence field holds (R294, R295). -/
structure BadFlit where
  port : PortId
  seq  : Seq
  deriving DecidableEq, Repr

/-- A counting window that closes: that of a source's events, or that of a port's retrains, which opens apart from it (R317). -/
inductive FaultWin where
  | src (n : Fin 64)
  | retrain (port : PortId)
  deriving DecidableEq, Repr

/-- What TLP has read of a snapshot set: the first register of its list, or with `first` false the rest as well (R346). -/
structure SnapRead where
  set   : Fin 8
  first : Bool
  deriving DecidableEq, Repr

/-- What a bring-up step finds when it ends (R382). Only step 3 reads it: `readOk` is false for a boot-source
error or timeout (R305), `sigOk` is the outcome of the image signature check (R406), `cfg` lists the register
values the image carries, `excl` its excluded slices (R11), `patches` the bytes of its patch sections (R407) and
`snap` its snapshot lists as (set, index, management address) (R361). -/
structure Image where
  readOk  : Bool
  words   : BitVec 24
  sigOk   : Bool
  excl    : List SliceId
  cfg     : List (BitVec 20 × W32)
  snap    : List (Fin 8 × Fin 64 × BitVec 20)
  patches : List (List (BitVec 8))
  deriving DecidableEq, Repr

/-- The three embedded controllers (Table 01-7). -/
inductive Ctrl where
  | cp | rvp | tlp
  deriving DecidableEq, Repr

/-- The voltage comparators VMON0 to VMON3 (Table 14-4). -/
abbrev Vmon := Fin 4

/-- The commands of the block, in the order of `spec/opcode_table.json`. -/
inductive Instr where
  -- requests (chapters 03, 06, 07)
  | rds (r : Req) | rdo (r : Req) | rdc (r : Req) | upg (r : Req)
  | wrl (r : Req) | wrp (r : Req) (mask : Mask) | wbd (r : Req) | evh (r : Req)
  | atm (r : Req) (aop : BitVec 8) (a b : BitVec 128)
  | rsl (r : Req) | scd (r : Req) | bar (r : Req) | mcl (r : Req)
  -- queue operations (chapter 08)
  | qenq (r : Req) (qid : BitVec 20) (n : BitVec 4) (word : W64)
  | qenq8 (r : Req) (qid : BitVec 20) (n : BitVec 4)
  | qdeq (r : Req) (qid : BitVec 20) (n : BitVec 4)
  | qpeek (r : Req) (qid : BitVec 20) (n : BitVec 4)
  | qmark (r : Req) (qid : BitVec 20) (n : BitVec 4)
  | qrewind (r : Req) (qid : BitVec 20) (n : BitVec 4)
  | qrelease (r : Req) (qid : BitVec 20) (n : BitVec 4)
  -- turns (chapter 05)
  | turnStart (hs : SliceId) (te : Fin 512)
  | turnResume (hs : SliceId) (te : Fin 512)
  | wayChoiceRetry (hs : SliceId) (te : Fin 512)
  -- answers and returns
  | sri (r : Rsp) | srs (r : Rsp) | srf (r : Rsp) | srfo (r : Rsp)
  | dtw (d : Dtw)
  | forwardedDat (port : PortId) (op : DatOp) (agent : BitVec 5) (tid : Tid) (psn : Bool) (data : Line)
  | forwarderRspRelease (port : PortId)
  | mrt (port : PortId) (htag : BitVec 14) (psn ue : Bool) (data : Line)
  | mwc (port : PortId) (htag : BitVec 14)
  | bisnp (port : PortId) (form : BiForm) (len : BitVec 2) (off : Off) (biId biTag : BitVec 12)
  | mbs (port : PortId) | mbr (port : PortId)
  | retireNote (port : PortId) | mclClearNotice (port : PortId)
  -- links (chapter 11)
  | messageFlitReceive (port : PortId) (flit : BitVec 640)
  | flitCrcFail (flit : BadFlit)
  | nak (flit : CtrlFlit) (ackSeq : Seq)
  | idle (port : PortId) (ack : AckField)
  | init (flit : CtrlFlit) (ptype : BitVec 2) (ver : BitVec 8)
  | cradv (flit : CtrlFlit) (cr : BitVec 64)
  | resume (flit : CtrlFlit) (lastSeq : Seq) (valid : Bool)
  | replayTimeout (port : PortId) | txReplayTimer (port : PortId)
  | retrainRequest (port : PortId)
  | retrainComplete (port : PortId) (rate : BitVec 4) (lanes : BitVec 7)
  | retrainTimeout (port : PortId)
  | linkTrained (port : PortId) (rate : BitVec 4) (lanes : BitVec 7)
  | linkTrainTimeout (port : PortId)
  | l1Entry (port : PortId) | l1Exit (port : PortId)
  | snoopResponseTimeout (hs : SliceId) (te : Fin 512)
  -- snoop filter (chapter 04)
  | evictVictim (hs : SliceId) (off : Off)
  | copyRemoval (hs : SliceId) (off : Off)
  | recount (hs : SliceId)
  | rebuildStart (hs : SliceId)
  | setSweepTag (hs : SliceId)
  | bankAutoOff (hs : SliceId) (bank : Fin 4)
  | evacuate (w : World) (hs : SliceId) (bank : Fin 4)
  | bankPowerOn (w : World) (hs : SliceId) (bank : Fin 4)
  | evacuationAbort (w : World) (hs : SliceId) (bank : Fin 4)
  | evacuationMove (hs : SliceId)
  | sfPartitionEnable (w : World) (data : W32)
  -- controls with rows of their own
  | rmpInv (w : World) (all : Bool) (sizeLog2 : BitVec 6)
  | rcDisable (w : World)
  | predClr (w : World) (data : W32)
  | predClearDone
  | wcEnClear (w : World) (data : W32)
  | eackOffSet (w : World) (data : W32)
  | wcBufferTimeout (hs : SliceId) (buf : Fin 16)
  | create (w : World) | destroy (w : World) | reset (w : World) | info (w : World) | pageout (w : World)
  | qobDisable (w : World)
  | queueHandOver (w : World) (newFirst : BitVec 11)
  | handOverQid
  | invcrm (w : World) (all il : Bool) (sizeLog2 : BitVec 6)
  | flushqw (w : World) (all il : Bool) (sizeLog2 : BitVec 6)
  | invrc (w : World) (all il : Bool) (sizeLog2 : BitVec 6)
  | zero (w : World) (all il : Bool) (sizeLog2 : BitVec 6)
  | scrubsp (w : World) (all il : Bool) (sizeLog2 : BitVec 6)
  | abort (w : World)
  | tmpAck (w : World) (data : W32)
  | invcrmSet (hs : SliceId) | flushqwSlot (hs : SliceId) | zeroLine | scrubspBucket
  | crmDisable (w : World) (data : W32)
  | crmEnable (w : World) (data : W32)
  | pfDisable (w : World) (data : W32)
  | prefetchIssue (hs : SliceId) | prefetchExpiry (hs : SliceId)
  | wayDisable (w : World) (hs : SliceId) (wayDis : BitVec 8)
  | lock (w : World) (sizeLog2 : BitVec 6) | unlock (w : World) (sizeLog2 : BitVec 6)
  | lockLine | unlockLine
  | lockWayHandover (w : World) (sWays : BitVec 3)
  | lockWayWipeSet (hs : SliceId)
  | quiesce (w : World) (port : PortId) (on : Bool)
  | portFenceCmd (w : World) (port : PortId)
  | lctlRetrain (w : World) (port : PortId)
  -- resets, power and clocks (chapter 14)
  | softReset (w : World) | sliceReset (w : World) (hs : BitVec 6)
  | portReset (w : World) (ptype : BitVec 2) (num : BitVec 6)
  | warmReset | resetDrainDone
  | zeroiseEntry (hs : SliceId)
  | por | porRelease
  | bringupStepDone (img : Image)
  | domainOn (w : World) (dom : BitVec 8) | domainOff (w : World) (dom : BitVec 8)
  | domainWakeDone (dom : BitVec 8) | domainDrainDone (dom : BitVec 8)
  | slicePowerDown (hs : SliceId) | sliceWake (hs : SliceId)
  | sliceClockGate (hs : SliceId) | sliceClockRestart (hs : SliceId)
  | freqSet (w : World) (data : W32)
  | freqRelockDone
  | tmon0Trip | tmon0Clear | tmon1Trip | vmonTrip (k : Vmon)
  | watchdogExpiry (c : Ctrl) | controllerRestart (c : Ctrl)
  | opsecTick
  | configParityScan (addr : BitVec 20) (bytes : BitVec 4)
  -- faults and recovery (chapter 12)
  | faultWindowExpiry (win : FaultWin)
  | fltReleaseHead (w : World) | fltClearLost (w : World) (src : Fin 64)
  | safeStateDeadline | safeStateWritesDone | safeStateFlushDone
  | rehomeCmd (w : World) (hs : BitVec 6)
  | rehomePrepDone | rehomeFreezeDone | rehomeCopySet
  | ownerSweepSet (hs : SliceId)
  -- event recorder (chapter 13)
  | recordFlushWrite (bufErr writeErr : Bool)
  | flushBudgetResume | recorderHeadScanDone
  | snapshotDone (read : SnapRead)
  | recPeriodTrigger | freezeTimeout
  | flush (w : World) | freeze (w : World) | unfreeze (w : World)
  | first (w : World) | last (w : World) | next (w : World) | prev (w : World) | seek (w : World)
  | ack (w : World) | snap (w : World) (sets : BitVec 8)
  | snapsetHandover (w : World) (set : Fin 8) (world : World)
  -- self-test, lifecycle, security
  | mbistStart (w : World) (hs : BitVec 6) (tgt : Bool) (bank : Fin 4)
  | mbistAbort (w : World)
  | mbistStageDone (fail : Option (Fin 16 × Fin 16384))
  | lbistStart (w : World)
  | lbistDone (res0 res1 : W32)
  | grant (w : World) | deny (w : World)
  | lcProvision (w : World) | lcDeploy (w : World) | lcRma (w : World) | lcDecommission (w : World)
  | debugAuthCheck (w : World)
  | lifecycleStageDone
  | patchRaise (w : World) (ctrl : BitVec 2)
  -- slice and port pages (chapters 16 and 17)
  | hsEinj (w : World) (hs : SliceId) (data : W32)
  | mspRead (w : World) (hs : SliceId) (array : BitVec 4) (chunk : BitVec 2)
  | mspReadDone (hs : SliceId)
  | hscClr (w : World) (hs : SliceId) (freeze : Bool)
  | hscFreeze (w : World) (hs : SliceId) (on : Bool)
  | pctlClr (w : World) (port : PortId) (freeze : Bool)
  | pctlFreeze (w : World) (port : PortId) (on : Bool)
  | pgLock (w : World) (page : BitVec 8)
  | loRead (w : World) (addr : BitVec 20)
  | pairHiWrite (w : World) (addr : BitVec 20) (data : W32)
  | registerWrite (w : World) (addr : BitVec 20) (data : W32)
  | mgmtPerr
  | controllerFault (c : Ctrl) (trap : Bool) (pc : W32)
  | sliceControlLogicFault (hs : SliceId)
  deriving DecidableEq, Repr

end Sys2Proof
end

