-- ==== Sys2Proof/WellFormed.lean ====
section
/-! DEFINITION. Well-formed commands: operands that an interface of the block can carry. The block itself judges every other operand by
its rules, so `exec` is defined on ill-formed commands too. -/

namespace Sys2Proof

/-- The lanes and the data rate of a trained link: at most 64 lanes, 8 × 4 GT/s (R301, Table 11-14). -/
def linkOk (rate : BitVec 4) (lanes : BitVec 7) : Bool := decide (rate.toNat ≤ 8) && decide (lanes.toNat ≤ 64)

/-- Is an offset the base of a sector, 128 bytes (R82)? -/
def sectorBase (off : Off) : Bool := decide (off.toNat % 128 = 0)

/-- Is a port an I/O port (R9)? -/
def ioPort (p : PortId) : Bool := decide (24 ≤ p.val)

/-- The domains of Table 14-1. -/
def domOk (d : BitVec 8) : Bool := decide (d.toNat ≤ 246)

/-- The number of words and the patch sections of an image (Tables 01-12 and 15-8): three controllers, at most two excluded slices. -/
def imageOk (g : Image) : Bool := decide (g.patches.length ≤ 3) && decide (g.excl.length ≤ 34)

/-- Is a command one that its interface can carry? -/
def WellFormed : Instr → Bool
  | .retrainComplete _ rate lanes => linkOk rate lanes
  | .linkTrained _ rate lanes => linkOk rate lanes
  | .init _ ptype _ => decide (ptype.toNat ≤ 2)
  | .evictVictim _ off => sectorBase off
  | .copyRemoval _ off => sectorBase off
  | .bisnp port _ _ off _ _ => ioPort port && decide (off.toNat % 64 = 0)
  | .mbs port => ioPort port
  | .mbr port => ioPort port
  | .domainWakeDone dom => domOk dom
  | .domainDrainDone dom => domOk dom
  | .bringupStepDone img => imageOk img
  | _ => true

/-- A unit of the package that a command names: a port, a physical slice, a tracker entry or a Crow's Nest bank of one, a domain. -/
inductive NamedUnit where
  | port (p : Nat)
  | slice (h : Nat)
  | entry (h t : Nat)
  | bank (h b : Nat)
  | dom (d : Nat)
  deriving DecidableEq, Repr

/-- Is a unit one that the package has (Tables 01-2, 01-3 and 14-1)? -/
def NamedUnit.ok : NamedUnit → Bool
  | .port p => decide (p < 28)
  | .slice h => decide (h < 34)
  | .entry h t => decide (h < 34 ∧ t < 512)
  | .bank h b => decide (h < 34 ∧ b < 4)
  | .dom d => decide (d ≤ 246)

/-- The units that a command names by a field of their own. -/
def Instr.units : Instr → List NamedUnit
  | .rds r | .rdo r | .rdc r | .upg r | .wrl r | .wrp r _ | .wbd r | .evh r | .atm r _ _ _ | .rsl r | .scd r | .bar r | .mcl r
  | .qenq r _ _ _ | .qenq8 r _ _ | .qdeq r _ _ | .qpeek r _ _ | .qmark r _ _ | .qrewind r _ _ | .qrelease r _ _ | .sri r | .srs r
  | .srf r | .srfo r => [.port r.port.val]
  | .turnStart hs te | .turnResume hs te | .wayChoiceRetry hs te | .snoopResponseTimeout hs te => [.entry hs.val te.val]
  | .dtw d => [.port d.port.val]
  | .forwardedDat port _ _ _ _ _ | .forwarderRspRelease port | .mrt port _ _ _ _ | .mwc port _ | .bisnp port _ _ _ _ _ | .mbs port
  | .mbr port | .retireNote port | .mclClearNotice port | .messageFlitReceive port _ | .idle port _ | .replayTimeout port
  | .txReplayTimer port | .retrainRequest port | .retrainComplete port _ _ | .retrainTimeout port | .linkTrained port _ _
  | .linkTrainTimeout port | .l1Entry port | .l1Exit port | .quiesce _ port _ | .portFenceCmd _ port | .lctlRetrain _ port
  | .pctlClr _ port _ | .pctlFreeze _ port _ => [.port port.val]
  | .flitCrcFail flit | .nak flit _ | .init flit _ _ | .cradv flit _ | .resume flit _ _ => [.port flit.port.val]
  | .evictVictim hs _ | .copyRemoval hs _ | .recount hs | .rebuildStart hs | .setSweepTag hs | .evacuationMove hs
  | .wcBufferTimeout hs _ | .invcrmSet hs | .flushqwSlot hs | .prefetchIssue hs | .prefetchExpiry hs | .wayDisable _ hs _
  | .lockWayWipeSet hs | .zeroiseEntry hs | .slicePowerDown hs | .sliceWake hs | .sliceClockGate hs | .sliceClockRestart hs
  | .ownerSweepSet hs | .hsEinj _ hs _ | .mspRead _ hs _ _ | .mspReadDone hs | .hscClr _ hs _ | .hscFreeze _ hs _
  | .sliceControlLogicFault hs => [.slice hs.val]
  | .bankAutoOff hs bank | .evacuate _ hs bank | .bankPowerOn _ hs bank | .evacuationAbort _ hs bank => [.bank hs.val bank.val]
  | .sfPartitionEnable _ _ | .rmpInv _ _ _ | .rcDisable _ | .predClr _ _ | .predClearDone | .wcEnClear _ _ | .eackOffSet _ _
  | .create _ | .destroy _ | .reset _ | .info _ | .pageout _ | .qobDisable _ | .queueHandOver _ _ | .handOverQid | .invcrm _ _ _ _
  | .flushqw _ _ _ _ | .invrc _ _ _ _ | .zero _ _ _ _ | .scrubsp _ _ _ _ | .abort _ | .tmpAck _ _ | .zeroLine | .scrubspBucket
  | .crmDisable _ _ | .crmEnable _ _ | .pfDisable _ _ | .lock _ _ | .unlock _ _ | .lockLine | .unlockLine | .lockWayHandover _ _
  | .softReset _ | .sliceReset _ _ | .portReset _ _ _ | .warmReset | .resetDrainDone | .por | .porRelease | .bringupStepDone _
  | .domainOn _ _ | .domainOff _ _ | .freqSet _ _ | .freqRelockDone | .tmon0Trip | .tmon0Clear | .tmon1Trip | .vmonTrip _
  | .watchdogExpiry _ | .controllerRestart _ | .opsecTick | .configParityScan _ _ | .faultWindowExpiry _ | .fltReleaseHead _
  | .fltClearLost _ _ | .safeStateDeadline | .safeStateWritesDone | .safeStateFlushDone | .rehomeCmd _ _ | .rehomePrepDone
  | .rehomeFreezeDone | .rehomeCopySet | .recordFlushWrite _ _ | .flushBudgetResume | .recorderHeadScanDone | .snapshotDone _
  | .recPeriodTrigger | .freezeTimeout | .flush _ | .freeze _ | .unfreeze _ | .first _ | .last _ | .next _ | .prev _ | .seek _ | .ack _
  | .snap _ _ | .snapsetHandover _ _ _ | .mbistStart _ _ _ _ | .mbistAbort _ | .mbistStageDone _ | .lbistStart _ | .lbistDone _ _
  | .grant _ | .deny _ | .lcProvision _ | .lcDeploy _ | .lcRma _ | .lcDecommission _ | .debugAuthCheck _ | .lifecycleStageDone
  | .patchRaise _ _ | .pgLock _ _ | .loRead _ _ | .pairHiWrite _ _ _ | .registerWrite _ _ _ | .mgmtPerr | .controllerFault _ _ _ => []
  | .domainWakeDone dom | .domainDrainDone dom => [.dom dom.toNat]

end Sys2Proof
end

