-- ==== Sys2Proof/Decode.lean ====
section
/-! DEFINITION. The command that a table word spells. `spec/opcode_table.json` gives no row any bits: its commands are events, register
writes and messages, not words. -/

namespace Sys2Proof

/-- No row has bits, so no word spells a command. -/
def decodeTableWord (_nbits _w : Nat) : Option Instr := none

end Sys2Proof
end

