-- ==== Sys2Proof/Config.lean ====
section
/-! DEFINITION. The free values of the model: what `spec/` leaves open and a run of the block produces all the
same. Each is an opaque constant with no body, so no proof can see its value (notes/assumptions/3.md). -/

namespace Sys2Proof.Config

/-- The free-running 16-bit generator that replaces a region-cache entry (R38): its value at draw `n`. -/
opaque rcVictim : Nat → BitVec 16

/-- The bytes of a tracker entry, whose content Table 05-1 lists but does not lay out, as the side-port window shows them
(Table 17-4, code 0x5), at draw `n`. -/
opaque trackerWord : Nat → BitVec 256

/-- The 64 bytes of a queue residency slot, whose layout R220 does not give, at draw `n` (Table 17-4, code 0x7). -/
opaque slotWord : Nat → BitVec 512

/-- The 16 bytes of a wait list, whose layout R124 does not give, at draw `n` (Table 17-4, code 0x9). -/
opaque waitWord : Nat → BitVec 128

/-- Which pointer of a residency slot byte `b` belongs to (R220 gives no layout): 0 tail, 1 read, 2 release, 3 mark,
4 none of them (R230, R430). -/
opaque slotPointer : Nat → Fin 5

/-- The sub-second count of the always-on island at draw `n` (R319, R373): it runs with AONCLK, which the model leaves
out, so any value from 0 to 999,999 may be read (notes/assumptions/14.md). -/
opaque subSecond : Nat → Fin 1000000

/-- Byte `i` of a record payload whose layout Table 13-2 does not give, made of the quantities it lists
(notes/assumptions/15.md). -/
opaque payload : (typ : Nat) → (fields : List Nat) → (i : Nat) → BitVec 8

/-- A measured duration in µs, at draw `n`: the model has no clock (Table 13-2, REHOME). -/
opaque micros : Nat → BitVec 16

/-- The program counter a controller held when its watchdog expired (Table 16-6), at draw `n`. -/
opaque faultPc : Nat → BitVec 32

/-- How many of the three copies of the lifecycle state a transition has burned when it loses its power, at draw `n` (R405). -/
opaque burned : Nat → Fin 4

/-- How far a long operation has come, in hundredths of a percent, at draw `n`, where the spec does not say how it counts
(R5, R387, R404). -/
opaque progress : Nat → BitVec 14

end Sys2Proof.Config
end

