-- ==== Sys2Proof/Machine/Msg.lean ====
section
/-! DEFINITION. The DCI and MEM messages that Tribex sends, as a record of the header and payload fields of
Tables 03-1, 03-2 and 11-6 (R47, R49, R50). -/

namespace Sys2Proof.Machine

/-- The opcodes Tribex sends (Table 03-3). `mwm` stands for its two flits (R291). -/
inductive Opc where
  | sns | sni | fws | fwo | fwc | biv
  | cmp | cme | cma | cmq | cmx
  | dts | dte | dtm | dtc
  | mrd | mwr | mwm | mwp | mbr
  deriving DecidableEq, Repr

/-- The class of an opcode: SNP 1, RSP 2, DAT 3, MEM 4 (Table 03-1). -/
def Opc.cls : Opc → Nat
  | .sns | .sni | .fws | .fwo | .fwc | .biv => 1
  | .cmp | .cme | .cma | .cmq | .cmx => 2
  | .dts | .dte | .dtm | .dtc => 3
  | .mrd | .mwr | .mwm | .mwp | .mbr => 4

/-- The value of an opcode within its class (Table 03-3). -/
def Opc.code : Opc → BitVec 5
  | .sns => 1 | .sni => 2 | .fws => 3 | .fwo => 4 | .fwc => 5 | .biv => 6
  | .cmp => 0x10 | .cme => 0x11 | .cma => 0x12 | .cmq => 0x13 | .cmx => 0x14
  | .dts => 1 | .dte => 2 | .dtm => 3 | .dtc => 4
  | .mrd => 1 | .mwr => 3 | .mwm => 4 | .mwp => 5 | .mbr => 8

/-- One message at a port's egress. `key` is the line or QID it concerns, which orders it under R57. -/
structure Msg where
  op     : Opc
  agent  : BitVec 5 := 0
  tid    : Tid := 0
  htag   : BitVec 14 := 0
  psn    : Bool := false
  cmp    : Bool := false
  key    : LineKey := 0
  tgt    : BitVec 5 := 0
  toHome : Bool := false
  ttid   : Tid := 0
  stat   : BitVec 4 := 0
  mask   : Mask := 0
  data   : Line := 0
  deriving DecidableEq, Repr

/-- The CMX statuses of Table 03-7. -/
inductive Cmx where
  | poison | unhomed | regfault | worldfault | tgtdown | proterr | attrfault
  deriving DecidableEq, Repr

/-- The code of a CMX status (Table 03-7). -/
def Cmx.code : Cmx → BitVec 4
  | .poison => 1 | .unhomed => 2 | .regfault => 3 | .worldfault => 4 | .tgtdown => 5 | .proterr => 6 | .attrfault => 7

end Sys2Proof.Machine
end

