-- ==== Sys2Proof/Machine/SMap.lean ====
section
/-! DEFINITION. Sparse tables: a list of (key, value) pairs in one canonical form, keys strictly rising and no entry
equal to the value an unlisted key reads as. Every large array of the block (registers, slices, arrays, buffers)
is held so, and equal tables are equal data. -/

namespace Sys2Proof.Machine

/-- A sparse table from natural numbers. -/
abbrev SMap (α : Type) := List (Nat × α)

/-- The listed value of key `k`. -/
def SMap.find {α : Type} : SMap α → Nat → Option α
  | [], _ => none
  | (k, v) :: r, n => if n = k then some v else if n < k then none else SMap.find r n

/-- The value of key `n`, `d` where it is not listed. -/
def SMap.get {α : Type} (m : SMap α) (d : α) (n : Nat) : α := (SMap.find m n).getD d

/-- List `v` under key `n`. -/
def SMap.put {α : Type} : SMap α → Nat → α → SMap α
  | [], n, v => [(n, v)]
  | (k, u) :: r, n, v =>
    if n = k then (n, v) :: r else if n < k then (n, v) :: (k, u) :: r else (k, u) :: SMap.put r n v

/-- Remove the entry of key `n`. -/
def SMap.del {α : Type} : SMap α → Nat → SMap α
  | [], _ => []
  | (k, u) :: r, n => if n = k then r else if n < k then (k, u) :: r else (k, u) :: SMap.del r n

/-- Write `v` under key `n`, keeping the canonical form for default `d`. -/
def SMap.set {α : Type} [DecidableEq α] (m : SMap α) (d : α) (n : Nat) (v : α) : SMap α :=
  if v = d then SMap.del m n else SMap.put m n v

/-- Change the value under key `n`. -/
def SMap.upd {α : Type} [DecidableEq α] (m : SMap α) (d : α) (n : Nat) (f : α → α) : SMap α :=
  SMap.set m d n (f (SMap.get m d n))

/-- The listed entries whose key satisfies `p`. -/
def SMap.keep {α : Type} (m : SMap α) (p : Nat → Bool) : SMap α := m.filter fun e => p e.1

/-- The canonical form: keys strictly rising, no entry equal to `d`. -/
def SMap.wf {α : Type} [DecidableEq α] (d : α) : SMap α → Bool
  | [] => true
  | (k, v) :: r => decide (v ≠ d) && (match r with | [] => true | (k', _) :: _ => decide (k < k')) && SMap.wf d r

/-- The lowest number below `n` that satisfies `p`. -/
def firstBelow (n : Nat) (p : Nat → Bool) : Option Nat := (List.range n).find? p

end Sys2Proof.Machine
end

