-- ==== Sys2Proof/Machine/PortState.lean ====
section
/-! DEFINITION. The state of one flit port (R285 to R309) and of one slice group's region walker and region cache
(R35, R38). -/

namespace Sys2Proof.Machine

/-- The link states of Table 11-7. -/
inductive LinkSt where
  | down | init | up | replay | retrain | fenced
  deriving DecidableEq, Repr

/-- A REQ held at the port's ingress for a slice credit or a write-order entry (R271, R191), with the data slot its
DTW moved into, and whether its hold has been counted. -/
structure Held where
  req  : Instr
  r    : Req
  ls   : Nat
  key  : LineKey
  wrk  : Bool
  qid  : Bool
  dtw  : Option (Bool × Line) := none
  wo   : Option Nat := none
  counted : Bool := false
  /-- Accepted at the port's ingress: it waits for its slice alone. -/
  acc  : Bool := false
  deriving DecidableEq, Repr

/-- An outstanding request of an agent behind the port (R48, R53). -/
structure Outst where
  agent : BitVec 5
  tid   : Tid
  /-- Its line, none for BAR, MCL and QOP. -/
  key   : Option LineKey
  /-- Its DTW has not arrived (R271). -/
  dtw   : Bool
  /-- It has been passed to its slice, or completed by the port: the physical slice and tracker entry. -/
  at_   : Option (Nat × Nat)
  /-- It has ended, but its DTW is still to come and will be discarded. -/
  ended : Bool := false
  deriving DecidableEq, Repr

/-- A write-order entry (R190). `out` says the ending message has left the egress. -/
structure WoEnt where
  seq   : Nat
  agent : BitVec 5
  rqid  : BitVec 9
  tid   : Tid
  out   : Bool
  done  : Bool
  lost  : Bool
  deriving DecidableEq, Repr

/-- A BAR accepted and not yet completed (R192). -/
structure Bar where
  seq   : Nat
  agent : BitVec 5
  rqid  : BitVec 9
  tid   : Tid
  lost  : Bool
  deriving DecidableEq, Repr

/-- A retire note on its way to the port (R190, R446): the write-order sequence and whether the write was lost. -/
structure Note where
  seq  : Nat
  lost : Bool
  deriving DecidableEq, Repr

/-- An MCL being delivered (R79, R151): the slices that have still to answer. -/
structure MclSt where
  agent : BitVec 5
  rqid  : BitVec 9
  tid   : Tid
  left  : List Nat
  deriving DecidableEq, Repr

/-- A BISnp index in use (R303): the device's identifiers and the MBR still awaited. -/
structure Bisnp where
  idx   : Nat
  biId  : BitVec 12
  biTag : BitVec 12
  len   : BitVec 2
  /-- The offset it names, which the MBR carries back (Table 11-5). -/
  off   : Off
  left  : Nat
  deriving DecidableEq, Repr

/-- An MBS at the port, before its slice takes it (R78). -/
structure MbsQ where
  idx   : Nat
  sec   : BitVec 39
  lines : BitVec 2
  /-- The last MBS of its BISnp, whose leaving frees the place in the ingress buffer (R270). -/
  last  : Bool
  deriving DecidableEq, Repr

/-- A BISnp held at the ingress while all 64 indices are in use (R303). -/
structure BiHeld where
  len   : BitVec 2
  off   : Off
  biId  : BitVec 12
  biTag : BitVec 12
  deriving DecidableEq, Repr

/-- A message flit (R293): its sequence number, and the credits it returns, which a replay carries again (R289). -/
structure TxFlit where
  seq : Seq
  msg : Msg
  /-- 0 for a one-flit message or the mask flit of an MWM, 1 for its data flit (R291). -/
  part : Nat
  crCls : BitVec 4 := 0
  crCnt : BitVec 5 := 0
  deriving DecidableEq, Repr

/-- What a sent flit carries in its header and payload: nothing (IDLE), a link command (Table 11-4) or a message (R288). -/
inductive Body where
  | idle
  | ctrl (code : BitVec 8) (val : W64)
  | msg (f : TxFlit)
  deriving DecidableEq, Repr

/-- A flit sent to the far side. -/
structure Sent where
  body : Body
  ack  : AckField
  deriving DecidableEq, Repr

/-- A forwarded DAT not yet accepted at its target's egress (R57). -/
structure Fwd where
  target : Nat
  msg    : Msg
  deriving DecidableEq, Repr

/-- One flit port. Credit counts are lists of nine, indexed by the `cr_cls` codes of Table 11-5. -/
structure Port where
  st     : LinkSt := .down
  l1     : Bool := false
  half   : Bool := false
  rate   : BitVec 4 := 0
  /-- LCFG.rate_max when the running or last training started (R438). -/
  cap    : BitVec 4 := 0
  egr    : List Msg := []
  rpl    : List TxFlit := []
  txSeq  : Seq := 0
  rxSeq  : Seq := 0
  /-- A message flit has been received in order since link initialisation (ack_v of RESUME). -/
  rxAny  : Bool := false
  /-- A nak has been sent and the expected flit has not arrived (R294). -/
  nakd   : Bool := false
  /-- The latest ack received (R300). -/
  ackd   : Option Seq := none
  /-- Flits received in order since the last acknowledgement (R293). -/
  unack  : Nat := 0
  /-- Consecutive failed replays (R295). -/
  rfail  : Nat := 0
  /-- The replay that runs was started by the transmitter's timer (R294). -/
  timed  : Bool := false
  peer   : List Nat := [0, 0, 0, 0, 0, 0, 0, 0, 0]
  /-- Credits to return, by class, that no flit has carried yet (R270, R289). -/
  crq    : List Nat := [0, 0, 0, 0, 0, 0, 0, 0, 0]
  /-- Credits returned to the far side since link initialisation. -/
  owed   : List Nat := [0, 0, 0, 0, 0, 0, 0, 0, 0]
  /-- Credits withheld while quiesced, or for a frozen slice (R299, R330). -/
  withh  : List Nat := [0, 0, 0, 0, 0, 0, 0, 0, 0]
  heldq  : List Held := []
  outs   : List Outst := []
  wo     : List WoEnt := []
  bars   : List Bar := []
  notes  : List Note := []
  /-- The port's acceptance sequence (R190). -/
  acc    : Nat := 0
  mcls   : List MclSt := []
  mnotes : List (Nat × BitVec 5 × BitVec 9) := []
  bisn   : List Bisnp := []
  mbsq   : List MbsQ := []
  biq    : List BiHeld := []
  /-- MBS credits that wait for a BISnp index to free (R303). -/
  mbsCr  : Nat := 0
  /-- MBR messages on their way from the slices: BISnp index (R78). -/
  mbrq   : List Nat := []
  fwdq   : List Fwd := []
  /-- RSPs held behind an undelivered forwarded DAT of the same port (R57). -/
  rspq   : List Instr := []
  /-- The retrain window of R297 is open. -/
  rtOpen : Bool := false
  /-- The last 512 flits handed to the far side, most recent first. -/
  sent   : List Sent := []
  deriving DecidableEq, Repr

/-- Who waits on a region walk (R38). -/
inductive Waiter where
  | te (hs te : Nat)
  /-- A head window's line (R221). -/
  | head (hs slot : Nat) (line : W64)
  /-- The tail line of a slot that is to be paged out or flushed (R223, R235). -/
  | pout (hs slot : Nat) (line : W64)
  /-- The first doorbell that is not issued, to this address (R226). -/
  | bell (hs : Nat) (off : Off)
  | evac (hs : Nat)
  /-- A victim whose world selects its spill slots (R114). -/
  | vict (hs : Nat) (sec : BitVec 39)
  deriving DecidableEq, Repr

/-- A region walk in flight (R35): the offset walked, the level being read, the table address, whether RMP_INV (R42) or a
Tamper invalidate (R43) marked it, and the slice whose read it makes. -/
structure Walk where
  off    : Off
  level  : Nat
  addr   : PA
  marked : Bool
  tmark  : Bool := false
  hs     : Nat
  wait   : List (Waiter × Off)
  deriving DecidableEq, Repr

/-- A region-cache entry: region base, log2 of its size, and the low quadword of the leaf (R38). -/
structure RcEnt where
  base : Off
  log2 : Nat
  leaf : W64
  /-- The entry's parity fails (Table 12-2). -/
  bad  : Bool := false
  deriving DecidableEq, Repr

/-- One slice group's walker and region cache (Table 01-1). -/
structure Group where
  rc    : List RcEnt := []
  walks : SMap (Option Walk) := []
  /-- Misses that wait for a walker slot (R35: 16 walks at once). -/
  queue : List (Waiter × Off × Nat) := []
  deriving DecidableEq, Repr

end Sys2Proof.Machine
end

