-- ==== Sys2Proof/Machine/Regs.lean ====
section
/-! DEFINITION. The register tables of `spec/`: the address or page offset of every register, under the name the
spec gives it, and for each page the access masks and reset value of each register (R6, R410, R418, R427, R434,
R437). -/

namespace Sys2Proof.Machine

/-- One row of a page's register table: `n` registers from offset `off`, `stride` bytes apart, with the bits of the
RW, RWL and WO fields and the reset value of the stored fields. `half` is 1 for a _LO register of a pair, 2 for a _HI
register (R4). -/
structure RegRow where
  off    : Nat
  n      : Nat
  stride : Nat
  half   : Nat
  rw     : W32
  rwl    : W32
  wo     : W32
  rst    : W32
  deriving DecidableEq, Repr

/-- The address of the common header of page `p` (Table 16-2). -/
def Reg.pgId (p : Nat) : Nat := p * 0x1000
def Reg.pgErr (p : Nat) : Nat := p * 0x1000 + 0x010
def Reg.pgErrmask (p : Nat) : Nat := p * 0x1000 + 0x014
def Reg.pgPar (p : Nat) : Nat := p * 0x1000 + 0x018
def Reg.pgLock (p : Nat) : Nat := p * 0x1000 + 0x01C

/-- GLB_LSMAP -/
def Reg.glbLsmap : Nat := 0x00040
/-- GLB_INTCFG0 -/
def Reg.glbIntcfg0 : Nat := 0x00020
/-- GLB_INTCFG1 -/
def Reg.glbIntcfg1 : Nat := 0x00024
/-- GLB_HBASE_LO -/
def Reg.glbHbaseLo : Nat := 0x00060
/-- GLB_HBASE_HI -/
def Reg.glbHbaseHi : Nat := 0x00064
/-- GLB_HSIZE -/
def Reg.glbHsize : Nat := 0x00068
/-- GLB_HASH0 -/
def Reg.glbHash0 : Nat := 0x00070
/-- GLB_HASH1 -/
def Reg.glbHash1 : Nat := 0x00074
/-- GLB_HASH2 -/
def Reg.glbHash2 : Nat := 0x00078
/-- GLB_HASH3 -/
def Reg.glbHash3 : Nat := 0x0007C
/-- RMP_CTL -/
def Reg.rmpCtl : Nat := 0x07020
/-- RMP_STAT -/
def Reg.rmpStat : Nat := 0x07024
/-- RMP_BASE_LO -/
def Reg.rmpBaseLo : Nat := 0x07028
/-- RMP_BASE_HI -/
def Reg.rmpBaseHi : Nat := 0x0702C
/-- RMP_INV_BASE_LO -/
def Reg.rmpInvBaseLo : Nat := 0x07030
/-- RMP_INV_BASE_HI -/
def Reg.rmpInvBaseHi : Nat := 0x07034
/-- RMP_INV -/
def Reg.rmpInv : Nat := 0x07038
/-- RMP_SEED_BASE_LO -/
def Reg.rmpSeedBaseLo : Nat := 0x07040
/-- RMP_SEED_BASE_HI -/
def Reg.rmpSeedBaseHi : Nat := 0x07044
/-- RMP_SEED_CFG -/
def Reg.rmpSeedCfg : Nat := 0x07048
/-- RMP_FADDR_LO -/
def Reg.rmpFaddrLo : Nat := 0x07070
/-- RMP_FADDR_HI -/
def Reg.rmpFaddrHi : Nat := 0x07074
/-- RMP_FINFO -/
def Reg.rmpFinfo : Nat := 0x07078
/-- RMP_FCNT -/
def Reg.rmpFcnt : Nat := 0x0707C
/-- GLB_SPBASE_LO -/
def Reg.glbSpbaseLo : Nat := 0x00080
/-- GLB_SPBASE_HI -/
def Reg.glbSpbaseHi : Nat := 0x00084
/-- GLB_SPSIZE -/
def Reg.glbSpsize : Nat := 0x00088
/-- HS_SFCTL -/
def Reg.hsSfctl : Nat := 0x00020
/-- HS_SFBANK -/
def Reg.hsSfbank : Nat := 0x00024
/-- HS_SFBSTAT -/
def Reg.hsSfbstat : Nat := 0x00028
/-- HS_SFEV_POS -/
def Reg.hsSfevPos : Nat := 0x0002C
/-- HS_SFEV_PCT -/
def Reg.hsSfevPct : Nat := 0x00030
/-- HS_SFSW_POS_LO -/
def Reg.hsSfswPosLo : Nat := 0x00034
/-- HS_SFSW_POS_HI -/
def Reg.hsSfswPosHi : Nat := 0x00038
/-- HS_SFSW_PCT -/
def Reg.hsSfswPct : Nat := 0x0003C
/-- HS_SFSTAT -/
def Reg.hsSfstat : Nat := 0x00040
/-- HS_SFBCNT -/
def Reg.hsSfbcnt : Nat := 0x00044
/-- HS_SPCNT -/
def Reg.hsSpcnt : Nat := 0x00054
/-- HSC_SFLOOK_LO -/
def Reg.hscSflookLo : Nat := 0x00020
/-- HSC_SFLOOK_HI -/
def Reg.hscSflookHi : Nat := 0x00024
/-- HSC_SFHIT_LO -/
def Reg.hscSfhitLo : Nat := 0x00028
/-- HSC_SFHIT_HI -/
def Reg.hscSfhitHi : Nat := 0x0002C
/-- HSC_SPWR -/
def Reg.hscSpwr : Nat := 0x00030
/-- HSC_SPRD -/
def Reg.hscSprd : Nat := 0x00034
/-- HSC_SPHIT -/
def Reg.hscSphit : Nat := 0x00038
/-- HSC_BIV -/
def Reg.hscBiv : Nat := 0x0003C
/-- HSC_IMPBC -/
def Reg.hscImpbc : Nat := 0x00040
/-- HSC_SFPAR -/
def Reg.hscSfpar : Nat := 0x00044
/-- HSC_SFREB -/
def Reg.hscSfreb : Nat := 0x00048
/-- HSC_EVMOV -/
def Reg.hscEvmov : Nat := 0x0004C
/-- HSC_EVSPL -/
def Reg.hscEvspl : Nat := 0x00050
/-- HS_HYSTAT0 -/
def Reg.hsHystat0 : Nat := 0x00060
/-- HS_HYSTAT1 -/
def Reg.hsHystat1 : Nat := 0x00064
/-- HS_HYTO -/
def Reg.hsHyto : Nat := 0x00068
/-- HSC_HYWAIT_LO -/
def Reg.hscHywaitLo : Nat := 0x00060
/-- HSC_HYWAIT_HI -/
def Reg.hscHywaitHi : Nat := 0x00064
/-- HSC_HYOVF -/
def Reg.hscHyovf : Nat := 0x00068
/-- HSC_HYMAX -/
def Reg.hscHymax : Nat := 0x0006C
/-- HSC_SNPTO -/
def Reg.hscSnpto : Nat := 0x00070
/-- HSC_LOSTOWN -/
def Reg.hscLostown : Nat := 0x00074
/-- GLB_ATMCTL -/
def Reg.glbAtmctl : Nat := 0x00090
/-- GLB_ATMFAR -/
def Reg.glbAtmfar : Nat := 0x00094
/-- HS_ATMSTAT -/
def Reg.hsAtmstat : Nat := 0x00080
/-- HS_MONSTAT -/
def Reg.hsMonstat : Nat := 0x00084
/-- HSC_ATMNEAR -/
def Reg.hscAtmnear : Nat := 0x00080
/-- HSC_ATMFAR -/
def Reg.hscAtmfar : Nat := 0x00084
/-- HSC_RSL -/
def Reg.hscRsl : Nat := 0x00088
/-- HSC_SCDOK -/
def Reg.hscScdok : Nat := 0x0008C
/-- HSC_SCDFAIL -/
def Reg.hscScdfail : Nat := 0x00090
/-- HSC_SCDSHD -/
def Reg.hscScdshd : Nat := 0x00094
/-- HSC_MONPAR -/
def Reg.hscMonpar : Nat := 0x00098
/-- GLB_WCCTL -/
def Reg.glbWcctl : Nat := 0x00098
/-- HS_WCSTAT -/
def Reg.hsWcstat : Nat := 0x00090
/-- HSC_EACK -/
def Reg.hscEack : Nat := 0x000A0
/-- HSC_WCMRG -/
def Reg.hscWcmrg : Nat := 0x000A4
/-- HSC_WCCLS -/
def Reg.hscWccls : Nat := 0x000A8
/-- HSC_WCTMO -/
def Reg.hscWctmo : Nat := 0x000AC
/-- WOSTAT -/
def Reg.pWostat : Nat := 0x00100
/-- WOFULL -/
def Reg.pWofull : Nat := 0x00104
/-- BARCNT -/
def Reg.pBarcnt : Nat := 0x00108
/-- BARLOST -/
def Reg.pBarlost : Nat := 0x0010C
/-- QOB_CTL -/
def Reg.qobCtl : Nat := 0x08020
/-- QOB_DESC_BASE_LO -/
def Reg.qobDescBaseLo : Nat := 0x08024
/-- QOB_DESC_BASE_HI -/
def Reg.qobDescBaseHi : Nat := 0x08028
/-- QOB_WCFG -/
def Reg.qobWcfg : Nat := 0x0802C
/-- QOB_HO -/
def Reg.qobHo : Nat := 0x08030
/-- QOB_HO_POS -/
def Reg.qobHoPos : Nat := 0x08034
/-- QOB_HO_PCT -/
def Reg.qobHoPct : Nat := 0x08038
/-- QOB_CMD -/
def Reg.qobCmd : Nat := 0x0803C
/-- QOB_QID -/
def Reg.qobQid : Nat := 0x08040
/-- QOB_ARGCFG -/
def Reg.qobArgcfg : Nat := 0x08044
/-- QOB_RING_LO -/
def Reg.qobRingLo : Nat := 0x08048
/-- QOB_RING_HI -/
def Reg.qobRingHi : Nat := 0x0804C
/-- QOB_DBA_LO -/
def Reg.qobDbaLo : Nat := 0x08050
/-- QOB_DBA_HI -/
def Reg.qobDbaHi : Nat := 0x08054
/-- QOB_DBV_LO -/
def Reg.qobDbvLo : Nat := 0x08058
/-- QOB_DBV_HI -/
def Reg.qobDbvHi : Nat := 0x0805C
/-- QOB_STAT -/
def Reg.qobStat : Nat := 0x08060
/-- QOB_INFO0 -/
def Reg.qobInfo0 : Nat := 0x08064
/-- QOB_INFO_TAIL_LO -/
def Reg.qobInfoTailLo : Nat := 0x08068
/-- QOB_INFO_TAIL_HI -/
def Reg.qobInfoTailHi : Nat := 0x0806C
/-- QOB_INFO_READ_LO -/
def Reg.qobInfoReadLo : Nat := 0x08070
/-- QOB_INFO_READ_HI -/
def Reg.qobInfoReadHi : Nat := 0x08074
/-- QOB_INFO_REL_LO -/
def Reg.qobInfoRelLo : Nat := 0x08078
/-- QOB_INFO_REL_HI -/
def Reg.qobInfoRelHi : Nat := 0x0807C
/-- QOB_INFO_MARK_LO -/
def Reg.qobInfoMarkLo : Nat := 0x08080
/-- QOB_INFO_MARK_HI -/
def Reg.qobInfoMarkHi : Nat := 0x08084
/-- QOB_NSTAT -/
def Reg.qobNstat : Nat := 0x08088
/-- QOB_NLOST -/
def Reg.qobNlost : Nat := 0x0808C
/-- QOB_HOSKIP -/
def Reg.qobHoskip : Nat := 0x08090
/-- HS_QOBSTAT -/
def Reg.hsQobstat : Nat := 0x000A0
/-- HS_QOBDB -/
def Reg.hsQobdb : Nat := 0x000A4
/-- HSC_QOP_LO -/
def Reg.hscQopLo : Nat := 0x000B0
/-- HSC_QOP_HI -/
def Reg.hscQopHi : Nat := 0x000B4
/-- HSC_QPGIN -/
def Reg.hscQpgin : Nat := 0x000B8
/-- HSC_QPGOUT -/
def Reg.hscQpgout : Nat := 0x000BC
/-- HSC_QREFILL -/
def Reg.hscQrefill : Nat := 0x000C0
/-- HSC_QFULL -/
def Reg.hscQfull : Nat := 0x000C4
/-- HSC_QEMPTY -/
def Reg.hscQempty : Nat := 0x000C8
/-- HSC_QBRK -/
def Reg.hscQbrk : Nat := 0x000CC
/-- HSC_QDBELL -/
def Reg.hscQdbell : Nat := 0x000D0
/-- HSC_QDBLOST -/
def Reg.hscQdblost : Nat := 0x000D4
/-- HSC_QWCRC -/
def Reg.hscQwcrc : Nat := 0x000D8
/-- TMP_CTL -/
def Reg.tmpCtl : Nat := 0x09020
/-- TMP_BASE_LO -/
def Reg.tmpBaseLo : Nat := 0x09024
/-- TMP_BASE_HI -/
def Reg.tmpBaseHi : Nat := 0x09028
/-- TMP_CMD -/
def Reg.tmpCmd : Nat := 0x0902C
/-- TMP_STAT -/
def Reg.tmpStat : Nat := 0x09030
/-- TMP_POS_LO -/
def Reg.tmpPosLo : Nat := 0x09034
/-- TMP_POS_HI -/
def Reg.tmpPosHi : Nat := 0x09038
/-- TMP_PCT -/
def Reg.tmpPct : Nat := 0x0903C
/-- TMP_LOCKSKIP -/
def Reg.tmpLockskip : Nat := 0x09040
/-- TMP_WSKIP -/
def Reg.tmpWskip : Nat := 0x09044
/-- TMP_OSKIP -/
def Reg.tmpOskip : Nat := 0x09048
/-- TMP_SPCLR -/
def Reg.tmpSpclr : Nat := 0x0904C
/-- CRM_CTL -/
def Reg.crmCtl : Nat := 0x09080
/-- CRM_STAT -/
def Reg.crmStat : Nat := 0x09084
/-- CRM_PFCFG -/
def Reg.crmPfcfg : Nat := 0x09088
/-- CRM_LKCFG -/
def Reg.crmLkcfg : Nat := 0x0908C
/-- CRM_LKBASE_LO -/
def Reg.crmLkbaseLo : Nat := 0x09090
/-- CRM_LKBASE_HI -/
def Reg.crmLkbaseHi : Nat := 0x09094
/-- CRM_LKCMD -/
def Reg.crmLkcmd : Nat := 0x09098
/-- CRM_LKSTAT -/
def Reg.crmLkstat : Nat := 0x0909C
/-- CRM_LK_POS_LO -/
def Reg.crmLkPosLo : Nat := 0x090A0
/-- CRM_LK_POS_HI -/
def Reg.crmLkPosHi : Nat := 0x090A4
/-- CRM_LK_PCT -/
def Reg.crmLkPct : Nat := 0x090A8
/-- CRM_LKFAIL -/
def Reg.crmLkfail : Nat := 0x090AC
/-- CRM_LKSKIP -/
def Reg.crmLkskip : Nat := 0x090B0
/-- HS_CRMCTL -/
def Reg.hsCrmctl : Nat := 0x000B0
/-- HS_CRMSTAT -/
def Reg.hsCrmstat : Nat := 0x000B4
/-- HS_CRMVAL -/
def Reg.hsCrmval : Nat := 0x000B8
/-- HSC_CRMLOOK_LO -/
def Reg.hscCrmlookLo : Nat := 0x000E0
/-- HSC_CRMLOOK_HI -/
def Reg.hscCrmlookHi : Nat := 0x000E4
/-- HSC_CRMHIT_LO -/
def Reg.hscCrmhitLo : Nat := 0x000E8
/-- HSC_CRMHIT_HI -/
def Reg.hscCrmhitHi : Nat := 0x000EC
/-- HSC_CRMCRC -/
def Reg.hscCrmcrc : Nat := 0x000F0
/-- HSC_CRMTAG -/
def Reg.hscCrmtag : Nat := 0x000F4
/-- HSC_PFISS -/
def Reg.hscPfiss : Nat := 0x000F8
/-- HSC_PFHIT -/
def Reg.hscPfhit : Nat := 0x000FC
/-- HSC_PFDROP -/
def Reg.hscPfdrop : Nat := 0x00100
/-- HSC_LKLOST -/
def Reg.hscLklost : Nat := 0x00104
/-- GLB_CRSLC -/
def Reg.glbCrslc : Nat := 0x000A0
/-- CRCFG0 -/
def Reg.pCrcfg0 : Nat := 0x000C0
/-- CRCFG1 -/
def Reg.pCrcfg1 : Nat := 0x000C4
/-- CRPEER0 -/
def Reg.pCrpeer0 : Nat := 0x000C8
/-- CRPEER1 -/
def Reg.pCrpeer1 : Nat := 0x000CC
/-- CRHOLD -/
def Reg.pCrhold : Nat := 0x000D0
/-- EGSTALL -/
def Reg.pEgstall : Nat := 0x000D4
/-- HS_CRSTAT0 -/
def Reg.hsCrstat0 : Nat := 0x000C0
/-- HS_CRSTAT1 -/
def Reg.hsCrstat1 : Nat := 0x000C4
/-- HSC_DBWAIT -/
def Reg.hscDbwait : Nat := 0x00110
/-- HSC_RBWAIT -/
def Reg.hscRbwait : Nat := 0x00114
/-- LCTL -/
def Reg.pLctl : Nat := 0x00020
/-- LSTAT -/
def Reg.pLstat : Nat := 0x00024
/-- CRCERR -/
def Reg.pCrcerr : Nat := 0x00028
/-- REPLAY -/
def Reg.pReplay : Nat := 0x0002C
/-- REPLAYF -/
def Reg.pReplayf : Nat := 0x00030
/-- RETRAIN -/
def Reg.pRetrain : Nat := 0x00034
/-- PROTERR -/
def Reg.pProterr : Nat := 0x00038
/-- LOSTWR -/
def Reg.pLostwr : Nat := 0x0003C
/-- RTWIN -/
def Reg.pRtwin : Nat := 0x00040
/-- IP_HDM_BASE_LO -/
def Reg.ipHdmBaseLo : Nat := 0x00140
/-- IP_HDM_BASE_HI -/
def Reg.ipHdmBaseHi : Nat := 0x00144
/-- IP_HDM_CFG -/
def Reg.ipHdmCfg : Nat := 0x00148
/-- FLT_CTL -/
def Reg.fltCtl : Nat := 0x04020
/-- FLT_STATUS_LO -/
def Reg.fltStatusLo : Nat := 0x04024
/-- FLT_STATUS_HI -/
def Reg.fltStatusHi : Nat := 0x04028
/-- FLT_LOST_LO -/
def Reg.fltLostLo : Nat := 0x0402C
/-- FLT_LOST_HI -/
def Reg.fltLostHi : Nat := 0x04030
/-- FLT_FENCED_LO -/
def Reg.fltFencedLo : Nat := 0x04034
/-- FLT_FENCED_HI -/
def Reg.fltFencedHi : Nat := 0x04038
/-- FLT_SUB63 -/
def Reg.fltSub63 : Nat := 0x0403C
/-- FLT_RELEASE -/
def Reg.fltRelease : Nat := 0x04040
/-- FLT_PEND -/
def Reg.fltPend : Nat := 0x04044
/-- FLT_OVF -/
def Reg.fltOvf : Nat := 0x04048
/-- FLT_SNPTO -/
def Reg.fltSnpto : Nat := 0x0404C
/-- FLT_CAP -/
def Reg.fltCap : Nat := 0x04060
/-- FLT_CFG -/
def Reg.fltCfg : Nat := 0x04100
/-- FLT_CNT -/
def Reg.fltCnt : Nat := 0x04200
/-- RVP_RHSTAT -/
def Reg.rvpRhstat : Nat := 0x0B080
/-- RVP_RH_POS -/
def Reg.rvpRhPos : Nat := 0x0B084
/-- RVP_RH_PCT -/
def Reg.rvpRhPct : Nat := 0x0B088
/-- RVP_RHCNT -/
def Reg.rvpRhcnt : Nat := 0x0B08C
/-- RVP_SPARE -/
def Reg.rvpSpare : Nat := 0x0B090
/-- RVP_FAGENT -/
def Reg.rvpFagent : Nat := 0x0B094
/-- RVP_OS_POS -/
def Reg.rvpOsPos : Nat := 0x0B098
/-- RVP_OS_PCT -/
def Reg.rvpOsPct : Nat := 0x0B09C
/-- RVP_LOSTCNT -/
def Reg.rvpLostcnt : Nat := 0x0B0A0
/-- RVP_POISCNT -/
def Reg.rvpPoiscnt : Nat := 0x0B0A4
/-- RVP_RHCMD -/
def Reg.rvpRhcmd : Nat := 0x0B0A8
/-- REC_CTL -/
def Reg.recCtl : Nat := 0x05020
/-- REC_CMD -/
def Reg.recCmd : Nat := 0x05024
/-- REC_STAT -/
def Reg.recStat : Nat := 0x05028
/-- REC_CUR -/
def Reg.recCur : Nat := 0x0502C
/-- REC_SEEK -/
def Reg.recSeek : Nat := 0x05030
/-- REC_WSEL -/
def Reg.recWsel : Nat := 0x05034
/-- REC_WIN -/
def Reg.recWin : Nat := 0x05040
/-- REC_MISSED -/
def Reg.recMissed : Nat := 0x05080
/-- REC_FRZTO -/
def Reg.recFrzto : Nat := 0x05084
/-- REC_FLCNT -/
def Reg.recFlcnt : Nat := 0x05088
/-- REC_RETIRED -/
def Reg.recRetired : Nat := 0x0508C
/-- REC_VFILT -/
def Reg.recVfilt : Nat := 0x05090
/-- REC_PERIOD -/
def Reg.recPeriod : Nat := 0x05094
/-- REC_RAWADDR -/
def Reg.recRawaddr : Nat := 0x05098
/-- REC_SSCFG -/
def Reg.recSscfg : Nat := 0x050A0
/-- REC_SSIDX -/
def Reg.recSsidx : Nat := 0x050C0
/-- REC_SSADR -/
def Reg.recSsadr : Nat := 0x050C4
/-- REC_TRG -/
def Reg.recTrg : Nat := 0x050E0
/-- PWR_CTL -/
def Reg.pwrCtl : Nat := 0x01020
/-- PWR_FREQ -/
def Reg.pwrFreq : Nat := 0x01024
/-- PWR_DOMCMD -/
def Reg.pwrDomcmd : Nat := 0x01028
/-- PWR_DOMSTAT -/
def Reg.pwrDomstat : Nat := 0x0102C
/-- PWR_DOMIDX -/
def Reg.pwrDomidx : Nat := 0x01030
/-- PWR_DOMST -/
def Reg.pwrDomst : Nat := 0x01034
/-- PWR_ONMAP -/
def Reg.pwrOnmap : Nat := 0x01040
/-- PWR_EVT -/
def Reg.pwrEvt : Nat := 0x01060
/-- PWR_EVTIE -/
def Reg.pwrEvtie : Nat := 0x01064
/-- PWR_BU_POS -/
def Reg.pwrBuPos : Nat := 0x01068
/-- PWR_BU_PCT -/
def Reg.pwrBuPct : Nat := 0x0106C
/-- PWR_LPIDLE -/
def Reg.pwrLpidle : Nat := 0x01070
/-- RST_CMD -/
def Reg.rstCmd : Nat := 0x02020
/-- RST_STAT -/
def Reg.rstStat : Nat := 0x02024
/-- RST_LOSTWR -/
def Reg.rstLostwr : Nat := 0x02028
/-- RST_RCNT -/
def Reg.rstRcnt : Nat := 0x0202C
/-- RST_Z_POS -/
def Reg.rstZPos : Nat := 0x02030
/-- RST_Z_PCT -/
def Reg.rstZPct : Nat := 0x02034
/-- AON_OPSEC -/
def Reg.aonOpsec : Nat := 0x06020
/-- AON_USEC -/
def Reg.aonUsec : Nat := 0x06024
/-- AON_PCC -/
def Reg.aonPcc : Nat := 0x06028
/-- AON_VCFG -/
def Reg.aonVcfg : Nat := 0x06030
/-- AON_VSTAT -/
def Reg.aonVstat : Nat := 0x06040
/-- AON_TCFG -/
def Reg.aonTcfg : Nat := 0x06044
/-- AON_TSTAT -/
def Reg.aonTstat : Nat := 0x06048
/-- AON_WDT -/
def Reg.aonWdt : Nat := 0x0604C
/-- TST_MBCMD -/
def Reg.tstMbcmd : Nat := 0x0E020
/-- TST_MBSTAT -/
def Reg.tstMbstat : Nat := 0x0E024
/-- TST_MB_POS -/
def Reg.tstMbPos : Nat := 0x0E028
/-- TST_MB_PCT -/
def Reg.tstMbPct : Nat := 0x0E02C
/-- TST_LBCMD -/
def Reg.tstLbcmd : Nat := 0x0E030
/-- TST_LBSTAT -/
def Reg.tstLbstat : Nat := 0x0E034
/-- TST_LB_PCT -/
def Reg.tstLbPct : Nat := 0x0E038
/-- TST_LBRES0 -/
def Reg.tstLbres0 : Nat := 0x0E03C
/-- TST_LBRES1 -/
def Reg.tstLbres1 : Nat := 0x0E040
/-- TST_SFBAD -/
def Reg.tstSfbad : Nat := 0x0E050
/-- TST_CRBAD -/
def Reg.tstCrbad : Nat := 0x0E064
/-- SEC_CTL -/
def Reg.secCtl : Nat := 0x03020
/-- SEC_IRQ -/
def Reg.secIrq : Nat := 0x03024
/-- SEC_PART -/
def Reg.secPart : Nat := 0x03028
/-- SEC_SCAP -/
def Reg.secScap : Nat := 0x0302C
/-- SEC_CLAIM -/
def Reg.secClaim : Nat := 0x03040
/-- SEC_HELDSTAT -/
def Reg.secHeldstat : Nat := 0x03060
/-- SEC_HELDADR -/
def Reg.secHeldadr : Nat := 0x03064
/-- SEC_HELDVAL -/
def Reg.secHeldval : Nat := 0x03068
/-- SEC_HELDCMD -/
def Reg.secHeldcmd : Nat := 0x0306C
/-- SEC_LCSTAT -/
def Reg.secLcstat : Nat := 0x03070
/-- SEC_LCCMD -/
def Reg.secLccmd : Nat := 0x03074
/-- SEC_LC_POS -/
def Reg.secLcPos : Nat := 0x03078
/-- SEC_LC_PCT -/
def Reg.secLcPct : Nat := 0x0307C
/-- SEC_DEVID_LO -/
def Reg.secDevidLo : Nat := 0x03080
/-- SEC_DEVID_HI -/
def Reg.secDevidHi : Nat := 0x03084
/-- SEC_AUTH -/
def Reg.secAuth : Nat := 0x030A0
/-- SEC_KEY -/
def Reg.secKey : Nat := 0x03140
/-- SEC_PATCH -/
def Reg.secPatch : Nat := 0x031A0
/-- SEC_PATCHCMD -/
def Reg.secPatchcmd : Nat := 0x031AC
/-- GLB_STAT -/
def Reg.glbStat : Nat := 0x000B0
/-- GLB_INTSTAT -/
def Reg.glbIntstat : Nat := 0x000B4
/-- GLB_ERRSUM -/
def Reg.glbErrsum : Nat := 0x000C0
/-- GLB_FWID -/
def Reg.glbFwid : Nat := 0x000E0
/-- CTP_STAT -/
def Reg.ctpStat : Nat := 0x0A020
/-- RVP_STAT -/
def Reg.rvpStat : Nat := 0x0B020
/-- TLP_STAT -/
def Reg.tlpStat : Nat := 0x0C020
/-- CTP_RCNT -/
def Reg.ctpRcnt : Nat := 0x0A024
/-- RVP_RCNT -/
def Reg.rvpRcnt : Nat := 0x0B024
/-- TLP_RCNT -/
def Reg.tlpRcnt : Nat := 0x0C024
/-- CTP_FINFO -/
def Reg.ctpFinfo : Nat := 0x0A028
/-- RVP_FINFO -/
def Reg.rvpFinfo : Nat := 0x0B028
/-- TLP_FINFO -/
def Reg.tlpFinfo : Nat := 0x0C028
/-- CTP_FPC -/
def Reg.ctpFpc : Nat := 0x0A02C
/-- RVP_FPC -/
def Reg.rvpFpc : Nat := 0x0B02C
/-- TLP_FPC -/
def Reg.tlpFpc : Nat := 0x0C02C
/-- CTP_IMGSTAT -/
def Reg.ctpImgstat : Nat := 0x0A080
/-- CTP_IMGLEN -/
def Reg.ctpImglen : Nat := 0x0A084
/-- TLP_SNAPSTAT -/
def Reg.tlpSnapstat : Nat := 0x0C080
/-- TLP_SNAPCNT -/
def Reg.tlpSnapcnt : Nat := 0x0C084
/-- TLP_MAPPEND -/
def Reg.tlpMappend : Nat := 0x0C088
/-- HS_STAT -/
def Reg.hsStat : Nat := 0x00058
/-- HS_ERRSTAT -/
def Reg.hsErrstat : Nat := 0x0005C
/-- HS_EINJ -/
def Reg.hsEinj : Nat := 0x0006C
/-- HS_MSP_CMD -/
def Reg.hsMspCmd : Nat := 0x000D0
/-- HS_MSP_IDX -/
def Reg.hsMspIdx : Nat := 0x000D4
/-- HS_MSP_STAT -/
def Reg.hsMspStat : Nat := 0x000D8
/-- HS_MSP_DATA -/
def Reg.hsMspData : Nat := 0x000E0
/-- HS_MSP_PAR -/
def Reg.hsMspPar : Nat := 0x00100
/-- HSC_REQ_LO -/
def Reg.hscReqLo : Nat := 0x00118
/-- HSC_REQ_HI -/
def Reg.hscReqHi : Nat := 0x0011C
/-- HSC_TESUM_LO -/
def Reg.hscTesumLo : Nat := 0x00120
/-- HSC_TESUM_HI -/
def Reg.hscTesumHi : Nat := 0x00124
/-- HSC_ACTCYC_LO -/
def Reg.hscActcycLo : Nat := 0x00128
/-- HSC_ACTCYC_HI -/
def Reg.hscActcycHi : Nat := 0x0012C
/-- HSC_SNP -/
def Reg.hscSnp : Nat := 0x00130
/-- HSC_MRD -/
def Reg.hscMrd : Nat := 0x00134
/-- HSC_MWR -/
def Reg.hscMwr : Nat := 0x00138
/-- HSC_EVH -/
def Reg.hscEvh : Nat := 0x0013C
/-- HSC_CTL -/
def Reg.hscCtl : Nat := 0x003F0
/-- LCFG -/
def Reg.pLcfg : Nat := 0x00044
/-- PCTL -/
def Reg.pPctl : Nat := 0x00050
/-- RXFLIT_LO -/
def Reg.pRxflitLo : Nat := 0x00060
/-- RXFLIT_HI -/
def Reg.pRxflitHi : Nat := 0x00064
/-- TXFLIT_LO -/
def Reg.pTxflitLo : Nat := 0x00068
/-- TXFLIT_HI -/
def Reg.pTxflitHi : Nat := 0x0006C
/-- UPCYC_LO -/
def Reg.pUpcycLo : Nat := 0x00070
/-- UPCYC_HI -/
def Reg.pUpcycHi : Nat := 0x00074
/-- RXREQ -/
def Reg.pRxreq : Nat := 0x00078
/-- RXRSP -/
def Reg.pRxrsp : Nat := 0x0007C
/-- RXDAT -/
def Reg.pRxdat : Nat := 0x00080
/-- RXMEM -/
def Reg.pRxmem : Nat := 0x00084
/-- TXSNP -/
def Reg.pTxsnp : Nat := 0x00088
/-- TXRSP -/
def Reg.pTxrsp : Nat := 0x0008C
/-- TXDAT -/
def Reg.pTxdat : Nat := 0x00090
/-- TXMEM -/
def Reg.pTxmem : Nat := 0x00094

/-- The header registers of every page (Table 16-2). PG_LOCK is writable on the GLB page only (R420). -/
def hdrRows : List RegRow :=
  [⟨0x000, 1, 4, 0, 0, 0, 0, 0⟩, ⟨0x004, 1, 4, 0, 0, 0, 0, 0x4230⟩, ⟨0x008, 1, 4, 0, 0, 0, 0, 0⟩,
   ⟨0x00C, 1, 4, 0, 0, 0, 0, 0⟩, ⟨0x010, 1, 4, 0, 0x80000000, 0, 0, 0⟩, ⟨0x014, 1, 4, 0, 0x3FE, 0, 0, 0⟩,
   ⟨0x018, 1, 4, 0, 0, 0, 0, 0⟩]

/-- The registers of the GLB page. -/
def glbRows : List RegRow :=
  [⟨0x020, 1, 4, 0, 0x0, 0x0, 0x0, 0x0⟩, ⟨0x024, 1, 4, 0, 0x0, 0x0, 0x0, 0x0⟩,
   ⟨0x040, 8, 4, 0, 0x0, 0x0, 0x0, 0x0⟩, ⟨0x060, 1, 4, 1, 0x0, 0x0, 0x0, 0x0⟩,
   ⟨0x064, 1, 4, 2, 0x0, 0x0, 0x0, 0x0⟩, ⟨0x068, 1, 4, 0, 0x0, 0x0, 0x0, 0x0⟩,
   ⟨0x070, 1, 4, 0, 0xFFFFFFFF, 0x0, 0x0, 0x0⟩, ⟨0x074, 1, 4, 0, 0x3FFF, 0x0, 0x0, 0x0⟩,
   ⟨0x078, 1, 4, 0, 0x0, 0x0, 0x0, 0x0⟩, ⟨0x07C, 1, 4, 0, 0x0, 0x0, 0x0, 0x1052D07⟩,
   ⟨0x080, 1, 4, 1, 0x0, 0x0, 0x0, 0x0⟩, ⟨0x084, 1, 4, 2, 0x0, 0x0, 0x0, 0x0⟩,
   ⟨0x088, 1, 4, 0, 0x0, 0x0, 0x0, 0x0⟩, ⟨0x090, 1, 4, 0, 0x10701, 0x0, 0x2, 0x401⟩,
   ⟨0x094, 1, 4, 0, 0xFFFFFF, 0x0, 0x0, 0x0⟩, ⟨0x098, 1, 4, 0, 0x1FFF0003, 0x0, 0x0, 0x400001⟩,
   ⟨0x0A0, 1, 4, 0, 0x0, 0x0, 0x0, 0x0⟩, ⟨0x0B0, 1, 4, 0, 0x0, 0x0, 0x0, 0x0⟩,
   ⟨0x0B4, 1, 4, 0, 0x0, 0x0, 0x0, 0x0⟩, ⟨0x0C0, 8, 4, 0, 0x0, 0x0, 0x0, 0x0⟩,
   ⟨0x0E0, 4, 4, 0, 0x0, 0xFFFFFFFF, 0x0, 0x0⟩]

/-- The registers of the RMP page. -/
def rmpRows : List RegRow :=
  [⟨0x020, 1, 4, 0, 0x2, 0x0, 0x0, 0x2⟩, ⟨0x024, 1, 4, 0, 0x0, 0x0, 0x0, 0x0⟩,
   ⟨0x028, 1, 4, 1, 0xFFFFF000, 0x0, 0x0, 0x0⟩, ⟨0x02C, 1, 4, 2, 0xFFFFF, 0x0, 0x0, 0x0⟩,
   ⟨0x030, 1, 4, 1, 0xFFFFF000, 0x0, 0x0, 0x0⟩, ⟨0x034, 1, 4, 2, 0xFFFFF, 0x0, 0x0, 0x0⟩,
   ⟨0x038, 1, 4, 0, 0x0, 0x0, 0x13F, 0x0⟩, ⟨0x040, 4, 12, 1, 0x0, 0x0, 0x0, 0x0⟩,
   ⟨0x044, 4, 12, 2, 0x0, 0x0, 0x0, 0x0⟩, ⟨0x048, 4, 12, 0, 0x0, 0x0, 0x0, 0x0⟩,
   ⟨0x070, 1, 4, 1, 0x0, 0x0, 0x0, 0x0⟩, ⟨0x074, 1, 4, 2, 0x0, 0x0, 0x0, 0x0⟩,
   ⟨0x078, 1, 4, 0, 0x0, 0x0, 0x0, 0x0⟩, ⟨0x07C, 1, 4, 0, 0x0, 0x0, 0x0, 0x0⟩]

/-- The registers of the HS pages. -/
def hsRows : List RegRow :=
  [⟨0x020, 1, 4, 0, 0xF01, 0x0, 0x0, 0xC01⟩, ⟨0x024, 1, 4, 0, 0x0, 0x0, 0xF, 0x0⟩,
   ⟨0x028, 1, 4, 0, 0x0, 0x0, 0x0, 0x0⟩, ⟨0x02C, 1, 4, 0, 0x0, 0x0, 0x0, 0x0⟩,
   ⟨0x030, 1, 4, 0, 0x0, 0x0, 0x0, 0x0⟩, ⟨0x034, 1, 4, 1, 0x0, 0x0, 0x0, 0x0⟩,
   ⟨0x038, 1, 4, 2, 0x0, 0x0, 0x0, 0x0⟩, ⟨0x03C, 1, 4, 0, 0x0, 0x0, 0x0, 0x0⟩,
   ⟨0x040, 1, 4, 0, 0x0, 0x0, 0x0, 0x0⟩, ⟨0x044, 4, 4, 0, 0x0, 0x0, 0x0, 0x0⟩,
   ⟨0x054, 1, 4, 0, 0x0, 0x0, 0x0, 0x0⟩, ⟨0x058, 1, 4, 0, 0x0, 0x0, 0x0, 0x0⟩,
   ⟨0x05C, 1, 4, 0, 0x3FF, 0x0, 0x0, 0x0⟩, ⟨0x060, 1, 4, 0, 0x0, 0x0, 0x0, 0x0⟩,
   ⟨0x064, 1, 4, 0, 0x0, 0x0, 0x0, 0x0⟩, ⟨0x068, 1, 4, 0, 0x0, 0x0, 0x0, 0x0⟩,
   ⟨0x06C, 1, 4, 0, 0x80000F0F, 0x0, 0x0, 0x0⟩, ⟨0x080, 1, 4, 0, 0x0, 0x0, 0x0, 0x0⟩,
   ⟨0x084, 1, 4, 0, 0x0, 0x0, 0x0, 0x0⟩, ⟨0x090, 1, 4, 0, 0x0, 0x0, 0x0, 0x0⟩,
   ⟨0x0A0, 1, 4, 0, 0x0, 0x0, 0x0, 0x0⟩, ⟨0x0A4, 1, 4, 0, 0x0, 0x0, 0x0, 0x0⟩,
   ⟨0x0B0, 1, 4, 0, 0xFF, 0x0, 0x0, 0x0⟩, ⟨0x0B4, 1, 4, 0, 0x0, 0x0, 0x0, 0x0⟩] ++
  [⟨0x0B8, 1, 4, 0, 0x0, 0x0, 0x0, 0x0⟩, ⟨0x0C0, 1, 4, 0, 0x0, 0x0, 0x0, 0x0⟩,
   ⟨0x0C4, 1, 4, 0, 0x0, 0x0, 0x0, 0x0⟩, ⟨0x0D0, 1, 4, 0, 0x0, 0x0, 0x3F, 0x0⟩,
   ⟨0x0D4, 1, 4, 0, 0x3FFFF, 0x0, 0x0, 0x0⟩, ⟨0x0D8, 1, 4, 0, 0x0, 0x0, 0x0, 0x0⟩,
   ⟨0x0E0, 8, 4, 0, 0x0, 0x0, 0x0, 0x0⟩, ⟨0x100, 1, 4, 0, 0x0, 0x0, 0x0, 0x0⟩]

/-- The registers of the HSC pages. -/
def hscRows : List RegRow :=
  [⟨0x020, 1, 4, 1, 0x0, 0x0, 0x0, 0x0⟩, ⟨0x024, 1, 4, 2, 0x0, 0x0, 0x0, 0x0⟩,
   ⟨0x028, 1, 4, 1, 0x0, 0x0, 0x0, 0x0⟩, ⟨0x02C, 1, 4, 2, 0x0, 0x0, 0x0, 0x0⟩,
   ⟨0x030, 1, 4, 0, 0x0, 0x0, 0x0, 0x0⟩, ⟨0x034, 1, 4, 0, 0x0, 0x0, 0x0, 0x0⟩,
   ⟨0x038, 1, 4, 0, 0x0, 0x0, 0x0, 0x0⟩, ⟨0x03C, 1, 4, 0, 0x0, 0x0, 0x0, 0x0⟩,
   ⟨0x040, 1, 4, 0, 0x0, 0x0, 0x0, 0x0⟩, ⟨0x044, 1, 4, 0, 0x0, 0x0, 0x0, 0x0⟩,
   ⟨0x048, 1, 4, 0, 0x0, 0x0, 0x0, 0x0⟩, ⟨0x04C, 1, 4, 0, 0x0, 0x0, 0x0, 0x0⟩,
   ⟨0x050, 1, 4, 0, 0x0, 0x0, 0x0, 0x0⟩, ⟨0x060, 1, 4, 1, 0x0, 0x0, 0x0, 0x0⟩,
   ⟨0x064, 1, 4, 2, 0x0, 0x0, 0x0, 0x0⟩, ⟨0x068, 1, 4, 0, 0x0, 0x0, 0x0, 0x0⟩,
   ⟨0x06C, 1, 4, 0, 0x0, 0x0, 0x0, 0x0⟩, ⟨0x070, 1, 4, 0, 0x0, 0x0, 0x0, 0x0⟩,
   ⟨0x074, 1, 4, 0, 0x0, 0x0, 0x0, 0x0⟩, ⟨0x080, 1, 4, 0, 0x0, 0x0, 0x0, 0x0⟩,
   ⟨0x084, 1, 4, 0, 0x0, 0x0, 0x0, 0x0⟩, ⟨0x088, 1, 4, 0, 0x0, 0x0, 0x0, 0x0⟩,
   ⟨0x08C, 1, 4, 0, 0x0, 0x0, 0x0, 0x0⟩, ⟨0x090, 1, 4, 0, 0x0, 0x0, 0x0, 0x0⟩] ++
  [⟨0x094, 1, 4, 0, 0x0, 0x0, 0x0, 0x0⟩, ⟨0x098, 1, 4, 0, 0x0, 0x0, 0x0, 0x0⟩,
   ⟨0x0A0, 1, 4, 0, 0x0, 0x0, 0x0, 0x0⟩, ⟨0x0A4, 1, 4, 0, 0x0, 0x0, 0x0, 0x0⟩,
   ⟨0x0A8, 1, 4, 0, 0x0, 0x0, 0x0, 0x0⟩, ⟨0x0AC, 1, 4, 0, 0x0, 0x0, 0x0, 0x0⟩,
   ⟨0x0B0, 1, 4, 1, 0x0, 0x0, 0x0, 0x0⟩, ⟨0x0B4, 1, 4, 2, 0x0, 0x0, 0x0, 0x0⟩,
   ⟨0x0B8, 1, 4, 0, 0x0, 0x0, 0x0, 0x0⟩, ⟨0x0BC, 1, 4, 0, 0x0, 0x0, 0x0, 0x0⟩,
   ⟨0x0C0, 1, 4, 0, 0x0, 0x0, 0x0, 0x0⟩, ⟨0x0C4, 1, 4, 0, 0x0, 0x0, 0x0, 0x0⟩,
   ⟨0x0C8, 1, 4, 0, 0x0, 0x0, 0x0, 0x0⟩, ⟨0x0CC, 1, 4, 0, 0x0, 0x0, 0x0, 0x0⟩,
   ⟨0x0D0, 1, 4, 0, 0x0, 0x0, 0x0, 0x0⟩, ⟨0x0D4, 1, 4, 0, 0x0, 0x0, 0x0, 0x0⟩,
   ⟨0x0D8, 1, 4, 0, 0x0, 0x0, 0x0, 0x0⟩, ⟨0x0E0, 1, 4, 1, 0x0, 0x0, 0x0, 0x0⟩,
   ⟨0x0E4, 1, 4, 2, 0x0, 0x0, 0x0, 0x0⟩, ⟨0x0E8, 1, 4, 1, 0x0, 0x0, 0x0, 0x0⟩,
   ⟨0x0EC, 1, 4, 2, 0x0, 0x0, 0x0, 0x0⟩, ⟨0x0F0, 1, 4, 0, 0x0, 0x0, 0x0, 0x0⟩,
   ⟨0x0F4, 1, 4, 0, 0x0, 0x0, 0x0, 0x0⟩, ⟨0x0F8, 1, 4, 0, 0x0, 0x0, 0x0, 0x0⟩] ++
  [⟨0x0FC, 1, 4, 0, 0x0, 0x0, 0x0, 0x0⟩, ⟨0x100, 1, 4, 0, 0x0, 0x0, 0x0, 0x0⟩,
   ⟨0x104, 1, 4, 0, 0x0, 0x0, 0x0, 0x0⟩, ⟨0x110, 1, 4, 0, 0x0, 0x0, 0x0, 0x0⟩,
   ⟨0x114, 1, 4, 0, 0x0, 0x0, 0x0, 0x0⟩, ⟨0x118, 1, 4, 1, 0x0, 0x0, 0x0, 0x0⟩,
   ⟨0x11C, 1, 4, 2, 0x0, 0x0, 0x0, 0x0⟩, ⟨0x120, 1, 4, 1, 0x0, 0x0, 0x0, 0x0⟩,
   ⟨0x124, 1, 4, 2, 0x0, 0x0, 0x0, 0x0⟩, ⟨0x128, 1, 4, 1, 0x0, 0x0, 0x0, 0x0⟩,
   ⟨0x12C, 1, 4, 2, 0x0, 0x0, 0x0, 0x0⟩, ⟨0x130, 1, 4, 0, 0x0, 0x0, 0x0, 0x0⟩,
   ⟨0x134, 1, 4, 0, 0x0, 0x0, 0x0, 0x0⟩, ⟨0x138, 1, 4, 0, 0x0, 0x0, 0x0, 0x0⟩,
   ⟨0x13C, 1, 4, 0, 0x0, 0x0, 0x0, 0x0⟩, ⟨0x3F0, 1, 4, 0, 0x1, 0x0, 0x2, 0x0⟩]

/-- The registers of the PORT pages. -/
def portRows : List RegRow :=
  [⟨0x020, 1, 4, 0, 0x1, 0x0, 0xC, 0x0⟩, ⟨0x024, 1, 4, 0, 0x0, 0x0, 0x0, 0x0⟩,
   ⟨0x028, 1, 4, 0, 0x0, 0x0, 0x0, 0x0⟩, ⟨0x02C, 1, 4, 0, 0x0, 0x0, 0x0, 0x0⟩,
   ⟨0x030, 1, 4, 0, 0x0, 0x0, 0x0, 0x0⟩, ⟨0x034, 1, 4, 0, 0x0, 0x0, 0x0, 0x0⟩,
   ⟨0x038, 1, 4, 0, 0x0, 0x0, 0x0, 0x0⟩, ⟨0x03C, 1, 4, 0, 0x0, 0x0, 0x0, 0x0⟩,
   ⟨0x040, 1, 4, 0, 0x0, 0x0, 0x0, 0x0⟩, ⟨0x044, 1, 4, 0, 0xF, 0x0, 0x0, 0x0⟩,
   ⟨0x050, 1, 4, 0, 0x1, 0x0, 0x2, 0x0⟩, ⟨0x060, 1, 4, 1, 0x0, 0x0, 0x0, 0x0⟩,
   ⟨0x064, 1, 4, 2, 0x0, 0x0, 0x0, 0x0⟩, ⟨0x068, 1, 4, 1, 0x0, 0x0, 0x0, 0x0⟩,
   ⟨0x06C, 1, 4, 2, 0x0, 0x0, 0x0, 0x0⟩, ⟨0x070, 1, 4, 1, 0x0, 0x0, 0x0, 0x0⟩,
   ⟨0x074, 1, 4, 2, 0x0, 0x0, 0x0, 0x0⟩, ⟨0x078, 1, 4, 0, 0x0, 0x0, 0x0, 0x0⟩,
   ⟨0x07C, 1, 4, 0, 0x0, 0x0, 0x0, 0x0⟩, ⟨0x080, 1, 4, 0, 0x0, 0x0, 0x0, 0x0⟩,
   ⟨0x084, 1, 4, 0, 0x0, 0x0, 0x0, 0x0⟩, ⟨0x088, 1, 4, 0, 0x0, 0x0, 0x0, 0x0⟩,
   ⟨0x08C, 1, 4, 0, 0x0, 0x0, 0x0, 0x0⟩, ⟨0x090, 1, 4, 0, 0x0, 0x0, 0x0, 0x0⟩] ++
  [⟨0x094, 1, 4, 0, 0x0, 0x0, 0x0, 0x0⟩, ⟨0x0C0, 1, 4, 0, 0x0, 0x0, 0x0, 0x0⟩,
   ⟨0x0C4, 1, 4, 0, 0x0, 0x0, 0x0, 0x0⟩, ⟨0x0C8, 1, 4, 0, 0x0, 0x0, 0x0, 0x0⟩,
   ⟨0x0CC, 1, 4, 0, 0x0, 0x0, 0x0, 0x0⟩, ⟨0x0D0, 1, 4, 0, 0x0, 0x0, 0x0, 0x0⟩,
   ⟨0x0D4, 1, 4, 0, 0x0, 0x0, 0x0, 0x0⟩, ⟨0x100, 1, 4, 0, 0x0, 0x0, 0x0, 0x0⟩,
   ⟨0x104, 1, 4, 0, 0x0, 0x0, 0x0, 0x0⟩, ⟨0x108, 1, 4, 0, 0x0, 0x0, 0x0, 0x0⟩,
   ⟨0x10C, 1, 4, 0, 0x0, 0x0, 0x0, 0x0⟩, ⟨0x140, 8, 12, 1, 0x0, 0x0, 0x0, 0x0⟩,
   ⟨0x144, 8, 12, 2, 0x0, 0x0, 0x0, 0x0⟩, ⟨0x148, 8, 12, 0, 0x0, 0x0, 0x0, 0x0⟩]

/-- The registers of the QOB page. -/
def qobRows : List RegRow :=
  [⟨0x020, 1, 4, 0, 0x1, 0x0, 0x0, 0x1⟩, ⟨0x024, 1, 4, 1, 0x0, 0x0, 0x0, 0x0⟩,
   ⟨0x028, 1, 4, 2, 0x0, 0x0, 0x0, 0x0⟩, ⟨0x02C, 1, 4, 0, 0x0, 0x0, 0x0, 0x4000000⟩,
   ⟨0x030, 1, 4, 0, 0x0, 0x0, 0x7FF0000, 0x0⟩, ⟨0x034, 1, 4, 0, 0x0, 0x0, 0x0, 0x0⟩,
   ⟨0x038, 1, 4, 0, 0x0, 0x0, 0x0, 0x0⟩, ⟨0x03C, 1, 4, 0, 0x0, 0x0, 0x7, 0x0⟩,
   ⟨0x040, 1, 4, 0, 0xFFFFF, 0x0, 0x0, 0x0⟩, ⟨0x044, 1, 4, 0, 0x1F08, 0x0, 0x0, 0x0⟩,
   ⟨0x048, 1, 4, 1, 0xFFFFFE00, 0x0, 0x0, 0x0⟩, ⟨0x04C, 1, 4, 2, 0xFFFFF, 0x0, 0x0, 0x0⟩,
   ⟨0x050, 1, 4, 1, 0xFFFFFFF8, 0x0, 0x0, 0x0⟩, ⟨0x054, 1, 4, 2, 0xFFFFF, 0x0, 0x0, 0x0⟩,
   ⟨0x058, 1, 4, 1, 0xFFFFFFFF, 0x0, 0x0, 0x0⟩, ⟨0x05C, 1, 4, 2, 0xFFFFFFFF, 0x0, 0x0, 0x0⟩,
   ⟨0x060, 1, 4, 0, 0x0, 0x0, 0x0, 0x0⟩, ⟨0x064, 1, 4, 0, 0x0, 0x0, 0x0, 0x0⟩,
   ⟨0x068, 1, 4, 1, 0x0, 0x0, 0x0, 0x0⟩, ⟨0x06C, 1, 4, 2, 0x0, 0x0, 0x0, 0x0⟩,
   ⟨0x070, 1, 4, 1, 0x0, 0x0, 0x0, 0x0⟩, ⟨0x074, 1, 4, 2, 0x0, 0x0, 0x0, 0x0⟩,
   ⟨0x078, 1, 4, 1, 0x0, 0x0, 0x0, 0x0⟩, ⟨0x07C, 1, 4, 2, 0x0, 0x0, 0x0, 0x0⟩] ++
  [⟨0x080, 1, 4, 1, 0x0, 0x0, 0x0, 0x0⟩, ⟨0x084, 1, 4, 2, 0x0, 0x0, 0x0, 0x0⟩,
   ⟨0x088, 1, 4, 0, 0x3, 0x0, 0x0, 0x0⟩, ⟨0x08C, 1, 4, 0, 0x0, 0x0, 0x0, 0x0⟩,
   ⟨0x090, 1, 4, 0, 0x0, 0x0, 0x0, 0x0⟩]

/-- The registers of the TMP page. -/
def tmpRows : List RegRow :=
  [⟨0x020, 1, 4, 0, 0x1, 0x0, 0x2, 0x0⟩, ⟨0x024, 1, 4, 1, 0xFFFFF000, 0x0, 0x0, 0x0⟩,
   ⟨0x028, 1, 4, 2, 0xFFFFF, 0x0, 0x0, 0x0⟩, ⟨0x02C, 1, 4, 0, 0x0, 0x0, 0xFF0F, 0x0⟩,
   ⟨0x030, 1, 4, 0, 0x0, 0x0, 0x0, 0x0⟩, ⟨0x034, 1, 4, 1, 0x0, 0x0, 0x0, 0x0⟩,
   ⟨0x038, 1, 4, 2, 0x0, 0x0, 0x0, 0x0⟩, ⟨0x03C, 1, 4, 0, 0x0, 0x0, 0x0, 0x0⟩,
   ⟨0x040, 1, 4, 0, 0x0, 0x0, 0x0, 0x0⟩, ⟨0x044, 1, 4, 0, 0x0, 0x0, 0x0, 0x0⟩,
   ⟨0x048, 1, 4, 0, 0x0, 0x0, 0x0, 0x0⟩, ⟨0x04C, 1, 4, 0, 0x0, 0x0, 0x0, 0x0⟩,
   ⟨0x080, 1, 4, 0, 0x5, 0x0, 0x2, 0x5⟩, ⟨0x084, 1, 4, 0, 0x8, 0x0, 0x0, 0x0⟩,
   ⟨0x088, 1, 4, 0, 0xF, 0x0, 0x0, 0x4⟩, ⟨0x08C, 1, 4, 0, 0x7, 0x0, 0x0, 0x0⟩,
   ⟨0x090, 1, 4, 1, 0xFFFFF000, 0x0, 0x0, 0x0⟩, ⟨0x094, 1, 4, 2, 0xFFFFF, 0x0, 0x0, 0x0⟩,
   ⟨0x098, 1, 4, 0, 0x0, 0x0, 0x3F03, 0x0⟩, ⟨0x09C, 1, 4, 0, 0x0, 0x0, 0x0, 0x0⟩,
   ⟨0x0A0, 1, 4, 1, 0x0, 0x0, 0x0, 0x0⟩, ⟨0x0A4, 1, 4, 2, 0x0, 0x0, 0x0, 0x0⟩,
   ⟨0x0A8, 1, 4, 0, 0x0, 0x0, 0x0, 0x0⟩, ⟨0x0AC, 1, 4, 0, 0x0, 0x0, 0x0, 0x0⟩] ++
  [⟨0x0B0, 1, 4, 0, 0x0, 0x0, 0x0, 0x0⟩]

/-- The registers of the FLT page. -/
def fltRows : List RegRow :=
  [⟨0x020, 1, 4, 0, 0x17, 0x0, 0x0, 0x10⟩, ⟨0x024, 1, 4, 1, 0x0, 0x0, 0x0, 0x0⟩,
   ⟨0x028, 1, 4, 2, 0x0, 0x0, 0x0, 0x0⟩, ⟨0x02C, 1, 4, 1, 0x0, 0x0, 0x0, 0x0⟩,
   ⟨0x030, 1, 4, 2, 0x0, 0x0, 0x0, 0x0⟩, ⟨0x034, 1, 4, 1, 0x0, 0x0, 0x0, 0x0⟩,
   ⟨0x038, 1, 4, 2, 0x0, 0x0, 0x0, 0x0⟩, ⟨0x03C, 1, 4, 0, 0x0, 0x0, 0x0, 0x0⟩,
   ⟨0x040, 1, 4, 0, 0x0, 0x0, 0x7F01, 0x0⟩, ⟨0x044, 1, 4, 0, 0x0, 0x0, 0x0, 0x0⟩,
   ⟨0x048, 1, 4, 0, 0x0, 0x0, 0x0, 0x0⟩, ⟨0x04C, 1, 4, 0, 0x3FFF, 0x0, 0x0, 0x32⟩,
   ⟨0x060, 8, 4, 0, 0x0, 0x0, 0x0, 0x0⟩, ⟨0x100, 64, 4, 0, 0x3FFFFFF, 0x0, 0x0, 0x205A010⟩,
   ⟨0x200, 64, 4, 0, 0x0, 0x0, 0x0, 0x0⟩]

/-- The registers of the RVP page. -/
def rvpRows : List RegRow :=
  [⟨0x020, 1, 4, 0, 0x0, 0x0, 0x0, 0x0⟩, ⟨0x024, 1, 4, 0, 0x0, 0x0, 0x0, 0x0⟩,
   ⟨0x028, 1, 4, 0, 0x0, 0x0, 0x0, 0x0⟩, ⟨0x02C, 1, 4, 0, 0x0, 0x0, 0x0, 0x0⟩,
   ⟨0x080, 1, 4, 0, 0x0, 0x0, 0x0, 0x0⟩, ⟨0x084, 1, 4, 0, 0x0, 0x0, 0x0, 0x0⟩,
   ⟨0x088, 1, 4, 0, 0x0, 0x0, 0x0, 0x0⟩, ⟨0x08C, 1, 4, 0, 0x0, 0x0, 0x0, 0x0⟩,
   ⟨0x090, 1, 4, 0, 0x0, 0x0, 0x0, 0x2120⟩, ⟨0x094, 1, 4, 0, 0x0, 0x0, 0x0, 0x0⟩,
   ⟨0x098, 1, 4, 0, 0x0, 0x0, 0x0, 0x0⟩, ⟨0x09C, 1, 4, 0, 0x0, 0x0, 0x0, 0x0⟩,
   ⟨0x0A0, 1, 4, 0, 0x0, 0x0, 0x0, 0x0⟩, ⟨0x0A4, 1, 4, 0, 0x0, 0x0, 0x0, 0x0⟩,
   ⟨0x0A8, 1, 4, 0, 0x0, 0x0, 0x8000003F, 0x0⟩]

/-- The registers of the REC page. -/
def recRows : List RegRow :=
  [⟨0x020, 1, 4, 0, 0x3, 0x0, 0x0, 0x0⟩, ⟨0x024, 1, 4, 0, 0x0, 0x0, 0xFF0F, 0x0⟩,
   ⟨0x028, 1, 4, 0, 0x0, 0x0, 0x0, 0x0⟩, ⟨0x02C, 1, 4, 0, 0x0, 0x0, 0x0, 0x0⟩,
   ⟨0x030, 1, 4, 0, 0xFFFFFFFF, 0x0, 0x0, 0x0⟩, ⟨0x034, 1, 4, 0, 0x1F, 0x0, 0x0, 0x0⟩,
   ⟨0x040, 16, 4, 0, 0x0, 0x0, 0x0, 0x0⟩, ⟨0x080, 1, 4, 0, 0x0, 0x0, 0x0, 0x0⟩,
   ⟨0x084, 1, 4, 0, 0xFF, 0x0, 0x0, 0x1E⟩, ⟨0x088, 1, 4, 0, 0x0, 0x0, 0x0, 0x0⟩,
   ⟨0x08C, 1, 4, 0, 0x0, 0x0, 0x0, 0x0⟩, ⟨0x090, 1, 4, 0, 0x1FFFF, 0x0, 0x0, 0x1FFFF⟩,
   ⟨0x094, 1, 4, 0, 0xFFFF, 0x0, 0x0, 0x0⟩, ⟨0x098, 1, 4, 0, 0x7FFFC0, 0x0, 0x0, 0x0⟩,
   ⟨0x0A0, 8, 4, 0, 0xC000007F, 0x0, 0x0, 0x0⟩, ⟨0x0C0, 1, 4, 0, 0x73F, 0x0, 0x0, 0x0⟩,
   ⟨0x0C4, 1, 4, 0, 0xFFFFF, 0x0, 0x0, 0x0⟩, ⟨0x0E0, 8, 4, 0, 0xFFF, 0x0, 0x0, 0x0⟩]

/-- The registers of the PWR page. -/
def pwrRows : List RegRow :=
  [⟨0x020, 1, 4, 0, 0x3, 0x0, 0x0, 0x2⟩, ⟨0x024, 1, 4, 0, 0x1F001F, 0x0, 0x0, 0xC0000⟩,
   ⟨0x028, 1, 4, 0, 0x0, 0x0, 0x3FF, 0x0⟩, ⟨0x02C, 1, 4, 0, 0x0, 0x0, 0x0, 0x0⟩,
   ⟨0x030, 1, 4, 0, 0xFF, 0x0, 0x0, 0x0⟩, ⟨0x034, 1, 4, 0, 0x0, 0x0, 0x0, 0x0⟩,
   ⟨0x040, 8, 4, 0, 0x0, 0x0, 0x0, 0x0⟩, ⟨0x060, 1, 4, 0, 0x7F, 0x0, 0x0, 0x0⟩,
   ⟨0x064, 1, 4, 0, 0x7F, 0x0, 0x0, 0x0⟩, ⟨0x068, 1, 4, 0, 0x0, 0x0, 0x0, 0x0⟩,
   ⟨0x06C, 1, 4, 0, 0x0, 0x0, 0x0, 0x0⟩, ⟨0x070, 1, 4, 0, 0xFFFF, 0x0, 0x0, 0x64⟩]

/-- The registers of the RST page. -/
def rstRows : List RegRow :=
  [⟨0x020, 1, 4, 0, 0x0, 0x0, 0x3F3F, 0x0⟩, ⟨0x024, 1, 4, 0, 0x0, 0x0, 0x0, 0x0⟩,
   ⟨0x028, 1, 4, 0, 0x0, 0x0, 0x0, 0x0⟩, ⟨0x02C, 1, 4, 0, 0x0, 0x0, 0x0, 0x0⟩,
   ⟨0x030, 1, 4, 0, 0x0, 0x0, 0x0, 0x0⟩, ⟨0x034, 1, 4, 0, 0x0, 0x0, 0x0, 0x0⟩]

/-- The registers of the AON page. -/
def aonRows : List RegRow :=
  [⟨0x020, 1, 4, 0, 0x0, 0x0, 0x0, 0x0⟩, ⟨0x024, 1, 4, 0, 0x0, 0x0, 0x0, 0x0⟩,
   ⟨0x028, 1, 4, 0, 0x0, 0x0, 0x0, 0x0⟩, ⟨0x030, 4, 4, 0, 0x80000FFF, 0x0, 0x0, 0x0⟩,
   ⟨0x040, 1, 4, 0, 0x0, 0x0, 0x0, 0x0⟩, ⟨0x044, 1, 4, 0, 0xFFFF, 0x0, 0x0, 0x6E5F⟩,
   ⟨0x048, 1, 4, 0, 0x0, 0x0, 0x0, 0x0⟩, ⟨0x04C, 1, 4, 0, 0x0, 0x0, 0x0, 0x0⟩]

/-- The registers of the TST page. -/
def tstRows : List RegRow :=
  [⟨0x020, 1, 4, 0, 0x0, 0x0, 0x3F3B, 0x0⟩, ⟨0x024, 1, 4, 0, 0x0, 0x0, 0x0, 0x0⟩,
   ⟨0x028, 1, 4, 0, 0x0, 0x0, 0x0, 0x0⟩, ⟨0x02C, 1, 4, 0, 0x0, 0x0, 0x0, 0x0⟩,
   ⟨0x030, 1, 4, 0, 0x0, 0x0, 0x1, 0x0⟩, ⟨0x034, 1, 4, 0, 0x0, 0x0, 0x0, 0x0⟩,
   ⟨0x038, 1, 4, 0, 0x0, 0x0, 0x0, 0x0⟩, ⟨0x03C, 1, 4, 0, 0x0, 0x0, 0x0, 0x0⟩,
   ⟨0x040, 1, 4, 0, 0x0, 0x0, 0x0, 0x0⟩, ⟨0x050, 4, 4, 0, 0xFFFFFFFF, 0x0, 0x0, 0x0⟩, ⟨0x060, 1, 4, 0, 0xFF, 0x0, 0x0, 0x0⟩,
   ⟨0x064, 4, 4, 0, 0x77777777, 0x0, 0x0, 0x0⟩,
   ⟨0x074, 1, 4, 0, 0x77, 0x0, 0x0, 0x0⟩]

/-- The registers of the SEC page. -/
def secRows : List RegRow :=
  [⟨0x020, 1, 4, 0, 0x1F, 0x0, 0x0, 0x0⟩, ⟨0x024, 1, 4, 0, 0x1E, 0x0, 0x0, 0x0⟩,
   ⟨0x028, 1, 4, 0, 0x3, 0x0, 0x0, 0x0⟩, ⟨0x02C, 1, 4, 0, 0xFFFFFF, 0x0, 0x0, 0x0⟩,
   ⟨0x040, 8, 4, 0, 0xFFFFFFFF, 0x0, 0x0, 0x0⟩, ⟨0x060, 1, 4, 0, 0x0, 0x0, 0x0, 0x0⟩,
   ⟨0x064, 1, 4, 0, 0x0, 0x0, 0x0, 0x0⟩, ⟨0x068, 1, 4, 0, 0x0, 0x0, 0x0, 0x0⟩,
   ⟨0x06C, 1, 4, 0, 0x0, 0x0, 0x3, 0x0⟩, ⟨0x070, 1, 4, 0, 0x0, 0x0, 0x0, 0x0⟩,
   ⟨0x074, 1, 4, 0, 0x0, 0x0, 0x7, 0x0⟩, ⟨0x078, 1, 4, 0, 0x0, 0x0, 0x0, 0x0⟩,
   ⟨0x07C, 1, 4, 0, 0x0, 0x0, 0x0, 0x0⟩, ⟨0x080, 1, 4, 1, 0x0, 0x0, 0x0, 0x0⟩,
   ⟨0x084, 1, 4, 2, 0x0, 0x0, 0x0, 0x0⟩, ⟨0x0A0, 32, 4, 0, 0xFFFFFFFF, 0x0, 0x0, 0x0⟩,
   ⟨0x140, 24, 4, 0, 0xFFFFFFFF, 0x0, 0x0, 0x0⟩, ⟨0x1A0, 3, 4, 0, 0x0, 0x0, 0x0, 0x0⟩,
   ⟨0x1AC, 1, 4, 0, 0x0, 0x0, 0x103, 0x0⟩]

/-- The registers of the CTP page. -/
def ctpRows : List RegRow :=
  [⟨0x020, 1, 4, 0, 0x0, 0x0, 0x0, 0x0⟩, ⟨0x024, 1, 4, 0, 0x0, 0x0, 0x0, 0x0⟩,
   ⟨0x028, 1, 4, 0, 0x0, 0x0, 0x0, 0x0⟩, ⟨0x02C, 1, 4, 0, 0x0, 0x0, 0x0, 0x0⟩,
   ⟨0x080, 1, 4, 0, 0x0, 0x0, 0x0, 0x0⟩, ⟨0x084, 1, 4, 0, 0x0, 0x0, 0x0, 0x0⟩]

/-- The registers of the TLP page. -/
def tlpRows : List RegRow :=
  [⟨0x020, 1, 4, 0, 0x0, 0x0, 0x0, 0x0⟩, ⟨0x024, 1, 4, 0, 0x0, 0x0, 0x0, 0x0⟩,
   ⟨0x028, 1, 4, 0, 0x0, 0x0, 0x0, 0x0⟩, ⟨0x02C, 1, 4, 0, 0x0, 0x0, 0x0, 0x0⟩,
   ⟨0x080, 1, 4, 0, 0x0, 0x0, 0x0, 0x0⟩, ⟨0x084, 1, 4, 0, 0x0, 0x0, 0x0, 0x0⟩,
   ⟨0x088, 1, 4, 0, 0x0, 0x0, 0x0, 0x0⟩]

/-- The registers of the DBG page. -/
def dbgRows : List RegRow :=
  [⟨0x020, 1, 4, 0, 0, 0, 0, 0⟩]

end Sys2Proof.Machine
end

