-- ==== Sys2Proof/Machine/SliceState.lean ====
section
/-! DEFINITION. The state of one home slice (Table 01-3): tracker entries, Halyard, Crow's Nest, Crema, monitors,
predictor, queue engine, buffers. -/

namespace Sys2Proof.Machine

/-- What a tracker entry serves (Table 05-1 `kind`, R229, R252, R263, R227). `qop` carries the code of Table 08-1. -/
inductive TKind where
  | rds | rdo | rdc | upg | wrl | wrp | wbd | evh | atm | rsl | scd
  | qop (op : BitVec 4)
  | mbs | biv | rebuild
  /-- A lost line whose other holders the owner sweep invalidates (R324). -/
  | sweep
  | qcmd (op : BitVec 4) | qho | qnlost | lock | unlock | zero
  deriving DecidableEq, Repr

/-- The states of R119; `evh` is an EVH that holds its key until its pass (R72). -/
inductive TeSt where
  | free | wait | active | evh
  deriving DecidableEq, Repr

/-- The step a tracker entry has reached (Table 05-1 `phase`). -/
inductive Phase where
  /-- Waits for its region attributes (R62 step 2). -/
  | region
  /-- Waits for its turn. -/
  | turn
  /-- Its lookup waits: victim buffer, bucket table, interlock or uncopied set (R86, R331). -/
  | lookup
  /-- Its lookup's bucket read is in flight or waits for a return buffer (R86). -/
  | bucket
  /-- Waits for an allocatable way (R91) or for room in the victim buffer (R92). -/
  | wayWait
  /-- Waits for a snoop data buffer (R275). -/
  | reserve
  /-- Waits for a write-combining buffer (R197). -/
  | wcWait
  /-- Snoops, data and its own DTW awaited (R66). -/
  | collect
  /-- The completion waits for an MWC (R188, R78, R263). -/
  | mwc
  /-- A ZERO line waits for a data buffer for its write (R275). -/
  | wbuf
  /-- A queue operation waits for its descriptor read (R223). -/
  | qdesc
  /-- A queue operation waits for a slot, for page-in reads or for its head window (R223, R221). -/
  | qslot | qpage | qhead
  /-- A queue operation waits for its QENQ8 words. -/
  | qdtw
  /-- A hand-over waits for the ring fill (R237). -/
  | qfill
  /-- A Tamper range holds the page-in (R262). -/
  | qheld
  deriving DecidableEq, Repr

/-- The pool a tracker entry was taken from (Table 10-2, R274). -/
inductive Pool where
  | plain | wr | mbs | shared | crow
  deriving DecidableEq, Repr

/-- Where a transaction's home data stands (R65, R163). -/
inductive Rd where
  | none
  /-- A read waits for a shared return buffer. -/
  | want
  /-- A read is in flight in a return buffer. -/
  | flight (rb : Nat)
  /-- Home data is held; `bad` marks poison (R69). -/
  | have (bad : Bool) (data : Line)
  /-- The target port is fenced: the read cannot be made (R74). -/
  | down
  deriving DecidableEq, Repr

/-- The snoops of a transaction and what their answers told (R63 to R67). -/
structure Snp where
  /-- The forward or broadcast opcode, if one was sent. -/
  fwd    : Option Opc := none
  toHome : Bool := false
  /-- The recorded owner the forward went to, none for a broadcast. -/
  owner  : Option (BitVec 5) := none
  /-- The entry was imprecise: the answers of a broadcast are resolved (R64). -/
  bcast  : Bool := false
  /-- Agents that were sent SNI. -/
  sni    : BitVec 24 := 0
  /-- Agents that answered SRS. -/
  srs    : BitVec 24 := 0
  /-- Agents that kept nothing. -/
  gone   : BitVec 24 := 0
  /-- The agent that supplied data, the state it kept, and whether ownership passed (SRFO). -/
  from_  : Option (BitVec 5 × BitVec 2 × Bool) := none
  /-- Dirty data has arrived with a DTW. -/
  dtw    : Bool := false
  deriving DecidableEq, Repr

/-- What the Crema lookup at a turn's start found (R123): the line hit, whether its way was unlocked (R257), or the way whose CRC
did not match (R245). -/
structure CrmHit where
  line : Option Line := none
  use  : Bool := false
  bad  : Option Nat := none
  deriving DecidableEq, Repr

/-- One tracker entry (Table 05-1, R118 to R120), with the operands its message carried. -/
structure TE where
  st    : TeSt := .free
  kind  : TKind := .rds
  ph    : Phase := .turn
  pool  : Pool := .shared
  /-- The port it came from, 28 for Tribex's own work. -/
  port  : Nat := 28
  agent : BitVec 5 := 0
  tid   : Tid := 0
  rqid  : BitVec 9 := 0
  sec   : Bool := false
  key   : LineKey := 0
  /-- Order of acceptance within the slice (R126). -/
  ord   : Nat := 0
  /-- An MBS that names both lines of its sector, which are its keys (R78, R121), and the lines that an entry of two keys has
  reached while it waits (R128). -/
  two   : Bool := false
  got   : BitVec 2 := 0
  /-- Byte offset in the line, and log2 of the access size. -/
  lo    : BitVec 6 := 0
  sz    : BitVec 3 := 0
  /-- Region-map leaf bits [23:8], once known. -/
  attr  : Option (BitVec 16) := none
  pend  : BitVec 24 := 0
  tocnt : BitVec 2 := 0
  tmr   : BitVec 16 := 0
  /-- Line home state, owner and presence the lookup returned. -/
  lst   : BitVec 2 := 0
  own   : BitVec 5 := 0
  pres  : BitVec 24 := 0
  /-- The sector's entry was found or installed by this turn. -/
  hit   : Bool := false
  imp   : Bool := false
  /-- The way hit, or the way chosen on a miss (R89). -/
  way   : Option Nat := none
  /-- The slot word of a refill that waits for a way (R98). -/
  refill : Option W64 := none
  snp   : Snp := {}
  crm   : CrmHit := {}
  /-- GLB_WCCTL.wc_en when the turn of a write started, and since (R199). -/
  wcEn  : Bool := false
  rd    : Rd := .none
  /-- Far placement (R159). -/
  far   : Bool := false
  /-- hmode when a far placement was made (R180). -/
  hm    : Bool := false
  /-- Served by CME without data (R75). -/
  nodata : Bool := false
  /-- The requester was fenced while this entry was ACTIVE (R130). -/
  orphan : Bool := false
  /-- The line is lost (R131, R132). -/
  lost  : Bool := false
  /-- A fenced owner that the line's loss belongs to. -/
  lostBy : BitVec 5 := 0
  /-- The entry of the sector was lost with a parity error: make no update of it (R443). -/
  noUpd : Bool := false
  /-- Own data buffer (request) and snoop data buffer. -/
  dbuf  : Option Nat := none
  sbuf  : Option Nat := none
  /-- Operands: mask of WRP, operation and operands of ATM, word and count of a QOP. -/
  mask  : Mask := 0
  aop   : BitVec 8 := 0
  opa   : BitVec 128 := 0
  opb   : BitVec 128 := 0
  word  : W64 := 0
  qn    : BitVec 4 := 0
  /-- Write-order sequence at the port (R190). -/
  wo    : Option Nat := none
  /-- Ring regions a queue entry has looked up, and the one its walk is for (R222). -/
  reg   : List (Off × Option (BitVec 16)) := []
  woff  : Option Off := none
  /-- The order of a queue operation's turn start within the slice (R224). -/
  tseq  : Nat := 0
  /-- Lines of the sector still to snoop, and results per line for two-line tasks (R444). -/
  lines : BitVec 2 := 0
  line1 : Bool := false
  res0  : Option Snp := none
  res1  : Option Snp := none
  spf   : Bool := false
  /-- The lines of a rebuild's sector that are suspect: bit 0 line 0, bit 1 line 1 (R149, R325). -/
  suspect : BitVec 2 := 0
  /-- The MBS's BISnp index at its port (R287), or a queue command's result code. -/
  aux   : Nat := 0
  /-- A parity error that no second source corrects was found in the identity or progress word (R149). -/
  badId : Bool := false
  badPr : Bool := false
  /-- The line that its return buffer holds fails its CRC-32C (R327). -/
  rbad  : Bool := false
  /-- Its data was unreadable: it ends with CMX POISON (R327). -/
  pz    : Bool := false
  deriving DecidableEq, Repr

/-- A wait list: its key (a line, or a QID marked by the top bit) and its members in arrival order (R124). -/
structure WList where
  key : BitVec 41
  q   : List Nat
  /-- Its links are unreadable (R327). -/
  bad : Bool := false
  deriving DecidableEq, Repr

/-- A victim-buffer entry (R92): the sector, its entry word, and whether an eviction has begun. -/
structure Victim where
  sec  : BitVec 39
  word : W64
  /-- The world of its sector, for the spill slots of R114, once its region is known. -/
  w    : Option Bool := none
  /-- Sent to the spill directory by an evacuation (R111). -/
  evac : Bool := false
  deriving DecidableEq, Repr

/-- The in-flight operations of the bucket table (R100). -/
inductive BktUse where
  | lookup (te : Nat)
  | evictRd (sec : BitVec 39) | evictWr (sec : BitVec 39) | evictBiv (sec : BitVec 39)
  | copyRd (sec : BitVec 39) (free : Bool) | copyWr (sec : BitVec 39) (free : Bool)
  | recount (set : Nat)
  | scrubRd
  /-- A scrubbed bucket is written back, with this many slots kept (R264). -/
  | scrubWr (kept : Nat)
  | sweepRd (set : Nat) | errWr
  deriving DecidableEq, Repr

/-- One bucket in flight: its physical address. -/
structure Bkt where
  addr : PA
  use  : BktUse
  deriving DecidableEq, Repr

/-- What a return buffer was reserved for (Table 10-2, R276). -/
inductive RUse where
  | data (te : Nat)
  | walk (grp slot : Nat)
  | bkt (addr : PA)
  | prefetch (attr : BitVec 16)
  | fill (set way : Nat)
  | qdesc (te : Nat)
  | qtail (slot te : Nat)
  | qhead (slot : Nat) (line : W64)
  | ddesc (te : Nat)
  deriving DecidableEq, Repr

/-- A return buffer in use: the port read, the address, and whether its line may still fill Crema (R248). `fill` is set for a demand
read of a coherent line: the region attributes under which its MRT fills Crema, whoever served the requester (R245, R247). -/
structure RBuf where
  use    : RUse
  port   : Nat
  off    : Off
  /-- The `htag[8:0]` of its MRD, and the order of issue within the slice. -/
  htag   : Nat
  ord    : Nat
  fillOk : Bool := true
  fill   : Option (BitVec 16) := none
  /-- The reader has ended or needs the data no more (R65). -/
  drop   : Bool := false
  deriving DecidableEq, Repr

/-- What a memory write was made for, once it leaves its buffer (R70, R100, R221, R226). -/
inductive WUse where
  | demand | mbs (te : Nat) | zero (te : Nat) | deferred (te : Nat)
  | bkt (addr : PA) | desc | qdesc (te : Nat) | qwin | doorbell (qid : BitVec 20)
  deriving DecidableEq, Repr

/-- A write in flight from a buffer until its MWC (R275). -/
structure Wr where
  op   : Opc
  port : Nat
  off  : Off
  mask : Mask
  use  : WUse
  /-- The `htag[8:0]` it was sent with. -/
  htag : Nat
  /-- Issue order within the slice, for reads served from the write buffer (R70). -/
  seq  : Nat
  /-- The write was acknowledged before its MWC (R188). -/
  early : Bool := false
  /-- Write-order entries that retire at its MWC: (port, sequence) (R190). -/
  notes : List (Nat × Nat) := []
  deriving DecidableEq, Repr

/-- A data buffer (Table 10-2): the entry that holds it, the data, and the write in flight from it. -/
structure DBuf where
  te   : Option Nat := none
  have_ : Bool := false
  psn  : Bool := false
  data : Line := 0
  mask : Mask := 0
  ded  : Option Nat := none
  wr   : Option Wr := none
  /-- The request it was reserved for has ended, and its DTW is still to come: (agent, tid) (R62). -/
  owed : Option (BitVec 5 × Tid) := none
  /-- A byte's parity fails (R327). -/
  bad  : Bool := false
  deriving DecidableEq, Repr

/-- A write-combining buffer (R196, R197). -/
structure WcBuf where
  key  : LineKey
  data : Line
  mask : Mask
  attr : BitVec 16
  notes : List (Nat × Nat)
  /-- The order of its last merge. -/
  last : Nat
  wr   : Option Wr := none
  /-- It closed for a write that waits for a buffer (R197). -/
  evict : Bool := false
  /-- A byte's parity fails (R327). -/
  bad  : Bool := false
  deriving DecidableEq, Repr

/-- A queue residency slot (R220) with its two windows and their CRC-32C (R231). -/
structure QSlot where
  qid    : BitVec 20
  sec    : Bool
  cap    : BitVec 5
  notify : Bool
  nlost  : Bool
  ring   : PA
  tail   : W64
  read   : W64
  rel    : W64
  mark   : W64
  dba    : PA
  dbv    : W64
  /-- The order of its last operation's start (R223). -/
  last   : Nat
  twin   : Line
  tcrc   : BitVec 32
  /-- Line number the head window holds, if any; none is aliased or empty. -/
  hline  : Option W64
  hwin   : Line
  hcrc   : BitVec 32
  /-- A parity error stored by an injection (R430): the byte it is in. -/
  bad    : Option Nat := none
  /-- To be paged out once nothing holds or waits on its QID (R232, R233). -/
  out    : Bool := false
  /-- It is the victim of this entry's page-in, and its page-out holds its QID key while it waits for its ring's region (R144, R224). -/
  vict   : Option Nat := none
  deriving DecidableEq, Repr

/-- A stream tracker (R254). -/
structure Strm where
  agent : BitVec 5
  rqid  : BitVec 9
  sec   : Bool
  last  : Int
  dp    : Int
  conf  : Nat
  front : Int
  deriving DecidableEq, Repr

/-- A queued prefetch line (R255). -/
structure Pf where
  off : Int
  sec : Bool
  deriving DecidableEq, Repr

/-- A doorbell waiting to be issued or awaiting its MWC (R226). -/
structure Bell where
  qid : BitVec 20
  sec : Bool
  dba : PA
  dbv : W64
  wb  : Option Nat := none
  deriving DecidableEq, Repr

/-- Way-bank states (R108). -/
inductive BankSt where
  | off | waking | on | evac
  deriving DecidableEq, Repr

/-- A memory or queue task that waits for a buffer or for a bucket-table entry (R100, R275). -/
inductive Todo where
  | read (use : RUse) (port : Nat) (off : Off)
  | write (op : Opc) (port : Nat) (off : Off) (use : WUse) (data : Line) (mask : Mask) (attr : Option (BitVec 16)) (te : Option Nat)
  deriving DecidableEq, Repr

/-- A running engine of the slice over sets (R111, R114, R324). -/
structure Evac where
  /-- The bank, or none for a sort (R114). -/
  bank : Option Nat
  set  : Nat
  way  : Nat
  /-- The world of the entry under the engine, once its region is known (R114). -/
  world : Option Bool := none
  aborted : Bool := false
  deriving DecidableEq, Repr

/-- A set sweep run (R106). -/
structure Sweep where
  sets : List Nat
  done : Nat
  tag  : Nat
  queued : List (BitVec 39)
  deriving DecidableEq, Repr

/-- An owner sweep of one fenced agent (R324). -/
structure OSweep where
  agent : Nat
  set   : Nat
  lostN : Nat
  /-- Buckets of the set already asked for. -/
  bkt   : Nat := 0
  /-- What a walk gave for a sector whose region was not cached. -/
  reg   : Option (BitVec 39 × Option (BitVec 16)) := none
  /-- The sector whose region is being walked. -/
  wsec  : Option (BitVec 39) := none
  deriving DecidableEq, Repr

/-- A side-port read in progress (R431). -/
structure Msp where
  array : BitVec 4
  chunk : BitVec 2
  idx   : BitVec 18
  deriving DecidableEq, Repr

/-- Background zeroisation (R380): entries written so far, in every array at once, and the arrays that served the S world:
way-bank 3, the S lock ways, the S residency slots, and always the data and write-combining buffers. -/
structure Zer where
  pos   : Nat := 0
  bank3 : Bool
  ways  : Nat
  slots : Nat
  deriving DecidableEq, Repr

/-- The role of a physical slice (HS_STAT.role, R428). -/
inductive Role where
  | active | spare | unusable | fenced
  deriving DecidableEq, Repr

/-- What a fenced or powered slice's logic does: it serves, it is frozen for a rehoming (R330), or it has stopped. -/
inductive Run where
  | on | frozen | stopped
  deriving DecidableEq, Repr

/-- What COPYSF still copies from the failing slice (R331): the sets from `next` on but those copied on demand, its
arrays as they stood at the switch-over, and the banks that were OFF or unreadable there. -/
structure Copy where
  old   : Nat
  next  : Nat
  done  : List Nat
  ss    : SMap (BitVec 54)
  sf    : SMap (BitVec 72)
  off   : BitVec 4
  /-- The rehoming restarted on this spare (RVP_RHSTAT.result). -/
  again : Bool := false
  /-- The S world commanded it, by RVP_RHCMD (R344). -/
  sec   : Bool := false
  deriving DecidableEq, Repr

/-- One home slice. Array words carry their check bits above the data bits. -/
structure Slice where
  /-- Set-state words: 48 bits and 6 parity bits (Table 04-2). -/
  ss    : SMap (BitVec 54) := []
  /-- Snoop-filter entries by way × 16,384 + set: 64 bits and 8 parity bits (Table 04-3). -/
  sf    : SMap (BitVec 72) := []
  bank  : Vector BankSt 4 := #v[.on, .on, .on, .on]
  /-- Banks that auto_off turned off (R110). -/
  auto  : BitVec 4 := 0
  vbuf  : List Victim := []
  bkts  : List Bkt := []
  /-- Sectors awaiting a rebuild, oldest first, with their suspect lines (R103, R325). -/
  rbq   : List (BitVec 39 × BitVec 2) := []
  /-- The move table: sectors awaiting an evacuation move, with their world (R111). -/
  mvt   : List (BitVec 39 × Bool) := []
  /-- Sets awaiting a recount, in ascending order, and the recount that runs: set, buckets read, slots counted. -/
  rcq   : List Nat := []
  rcn   : Option (Nat × Nat × Nat) := none
  evac  : Option Evac := none
  /-- A sort awaits the end of the evacuation that runs (R114). -/
  sort  : Bool := false
  swp   : Option Sweep := none
  osw   : Option OSweep := none
  te    : SMap TE := []
  wl    : List WList := []
  ovf   : List Nat := []
  /-- Contention counters and far history, least recently written first (R167, R168). -/
  pred  : SMap (BitVec 3) := []
  hist  : List (LineKey × BitVec 5) := []
  predClr : Bool := false
  /-- Far monitors by agent × 512 + rqid: 48 bits and 6 parity bits (R173). -/
  mon   : SMap (BitVec 54) := []
  /-- Crema tags by way × 1,024 + set (48 bits and 6 parity bits), nru words (16 and 2), data (512 and CRC-32C). -/
  ctag  : SMap (BitVec 54) := []
  cnru  : SMap (BitVec 18) := []
  cdat  : SMap (BitVec 544) := []
  strm  : List Strm := []
  pfq   : List Pf := []
  dbuf  : SMap DBuf := []
  rbuf  : SMap (Option RBuf) := []
  wc    : SMap (Option WcBuf) := []
  slot  : SMap (Option QSlot) := []
  dbq   : List Bell := []
  /-- QIDs whose descriptor awaits its nlost (R227). -/
  nlq   : List (BitVec 20) := []
  todo  : List Todo := []
  /-- Issue order of writes and of queue operations. -/
  seq   : Nat := 0
  role  : Role := .active
  ls    : Nat := 0
  run   : Run := .on
  gated : Bool := false
  msp   : Option Msp := none
  copy  : Option Copy := none
  /-- Sets whose simp was set at the latest agent fence: their installs are suspect (R325). -/
  susp  : List Nat := []
  /-- Sectors with suspect lines: imprecise at the latest agent fence (R325), or of a lost progress word (R149). -/
  susq  : List (BitVec 39 × BitVec 2) := []
  /-- Messages that reached a frozen or fenced slice and wait at its ingress (R148, R332). -/
  ingress : List Instr := []
  /-- The Tamper, queue-disable, lock-wipe and zeroisation positions of this slice (R262, R232, R251, R380). -/
  tmpPos : Nat := 0
  wipe  : Option (Nat × BitVec 16) := none
  zeroise : Option Zer := none
  /-- The Crema array went OFF with the idle slice logic (R367). -/
  crmIdle : Bool := false
  /-- The last grants of credit beyond the dedicated part: the port served last (R274). -/
  rr    : Nat := 0
  deriving DecidableEq, Repr

end Sys2Proof.Machine
end

