-- ==== Sys2Proof/Machine/CtlState.lean ====
section
/-! DEFINITION. The state of the control and management planes: fault collector, recovery, recorder, power, resets,
self-test, lifecycle, long operations (chapters 08, 09, 12 to 16). -/

namespace Sys2Proof.Machine

/-- The severity classes of Table 12-3. -/
inductive Cls where
  | c | d | f | x
  deriving DecidableEq, Repr

/-- The two-bit code of a class (Table 12-5). -/
def Cls.code : Cls → BitVec 2
  | .c => 0 | .d => 1 | .f => 2 | .x => 3

/-- Why a slice is rehomed (R328, R329): an escalation, a write of RVP_RHCMD, or a fault. -/
inductive RhWhy where
  | esc | cmd | fault
  deriving DecidableEq, Repr

/-- A reaction RVP owes (R314, R318, R329): fence of an agent or a port, rehoming of a slice with whether it has
stopped, the safe state, a controller restart, a spare marked unusable. -/
inductive Due where
  | agent (a : Nat)
  | port (p : Nat) (fcause : BitVec 4) (cap : Bool)
  | slice (h : Nat) (stopped : Bool) (why : RhWhy)
  | safe (cause : Nat) (addr : BitVec 20)
  deriving DecidableEq, Repr

/-- The steps of the safe-state sequence (Table 12-13): the step running. -/
structure Safe where
  step  : Nat
  cause : Nat
  addr  : BitVec 20
  deriving DecidableEq, Repr

/-- A rehoming in PREP or, with `freeze`, in FREEZE (R328 to R333). COPYSF is the state of the spare's `copy`. -/
structure Rehome where
  ls    : Nat
  old   : Nat
  new   : Nat
  freeze : Bool := false
  /-- The slice stopped at event 0x1D. -/
  stopped : Bool
  why   : RhWhy
  again : Bool := false
  deriving DecidableEq, Repr

/-- A controller: 0 held in reset, 1 ROM alone, 2 verified patch, 3 restarting (Table 16-6), and the time of its
last restart in µs (R335). -/
structure CtrlSt where
  run   : BitVec 2 := 0
  since : Option Nat := none
  /-- Security version of the running patch. -/
  ver   : Option Nat := none
  deriving DecidableEq, Repr

/-- States of a switched domain (R363). -/
inductive DomSt where
  | off | waking | on | draining
  deriving DecidableEq, Repr

/-- A recorder record (Table 13-1): its type byte, class, world, payload bytes, sequence, time stamp and origin. -/
structure Rcd where
  typ    : BitVec 8
  snap   : Bool
  sec    : Bool
  pay    : List (BitVec 8)
  seq    : W32
  opsec  : W32
  pcc    : BitVec 24
  origin : BitVec 4
  deriving DecidableEq, Repr

/-- A committed record of the store as the cursor finds it (R357): its sequence, world and the store addresses of its
bytes' first word and its length. -/
structure RcdIdx where
  seq : W32
  sec : Bool
  blk : Nat
  off : Nat
  len : Nat
  /-- The block it continues in, 0 where it ends in its own. -/
  blk2 : Nat := 0
  deriving DecidableEq, Repr

/-- One world's cursor (R357). -/
structure Cursor where
  at_  : Option RcdIdx := none
  cres : BitVec 3 := 0
  deriving DecidableEq, Repr

/-- The recorder's volatile state (R348 to R358). -/
structure RecSt where
  buf     : List Rcd := []
  /-- Recorder sequence of the next record (R341). -/
  seq     : W32 := 0
  ready   : Bool := false
  flush   : Bool := false
  /-- A flush is exempt from the budget: power fail or safe state (R352). -/
  exempt  : Bool := false
  paused  : Bool := false
  frozen  : Bool := false
  /-- Power fail: no record is accepted any more (R353). -/
  closed  : Bool := false
  /-- Bytes written to the store in this OPSEC second. -/
  spent   : Nat := 0
  /-- Write position: block, byte offset in it, lap (R354). -/
  blk     : Nat := 2
  off     : Nat := 0
  lap     : Nat := 0
  index   : List RcdIdx := []
  /-- Blocks the flush engine skips in this power cycle, and those whose map copies await TLP (R356). -/
  skip    : List Nat := []
  mapPend : List Nat := []
  curNs   : Cursor := {}
  curS    : Cursor := {}
  /-- Snapshot lists by set × 64 + index (R345). -/
  lists   : SMap (BitVec 20) := []
  /-- Sets being read with the trigger word, the value of a set's first register once TLP has read it, and pending sets (R346). -/
  run     : SMap (BitVec 12) := []
  got     : SMap (Option (BitVec 20 × W32)) := []
  pend    : SMap (BitVec 12) := []
  deriving DecidableEq, Repr

/-- Who runs a Tamper operation (Table 09-4 `owner`). -/
inductive TmpOwner where
  | s | ns | device
  deriving DecidableEq, Repr

/-- Why Tribex itself started a Tamper operation (R260). -/
inductive TmpWhy where
  | soft | spill | ring (hs te : Nat)
  deriving DecidableEq, Repr

/-- A Tamper operation (R262): its op, range as an offset and log2 of its size, and its progress. -/
structure TmpOp where
  op    : BitVec 4
  base  : Off
  log2  : Nat
  il    : Bool
  all   : Bool
  owner : TmpOwner
  why   : TmpWhy := .soft
  /-- Lines or buckets sent. -/
  sent  : Nat := 0
  /-- Lines, buckets still in flight. -/
  busy  : Nat := 0
  /-- SCRUBSP: per slice and set, the numbers of the buckets done and the slots kept in them (R264). -/
  scr   : List (Nat × Nat × List Nat × Nat) := []
  /-- FLUSHQW: what a walk gave for the ring line of a slot (slice, slot). -/
  known : Option (Nat × Nat × Option (BitVec 16)) := none
  abort : Bool := false
  /-- The engine's state fails its parity (Table 12-2). -/
  bad   : Bool := false
  /-- en was 0 at the start and since (R258). -/
  enOff : Bool := false
  deriving DecidableEq, Repr

/-- A lock or unlock command (R252). -/
structure LkCmd where
  lock : Bool
  base : Off
  log2 : Nat
  sec  : Bool
  sent : Nat := 0
  busy : Nat := 0
  deriving DecidableEq, Repr

/-- A QOB command in progress (R228): the descriptor CREATE would write, and whether its tracker entry has been taken. -/
structure QCmd where
  op  : BitVec 4
  qid : BitVec 20
  sec : Bool
  arg : Line
  going : Bool := false
  deriving DecidableEq, Repr

/-- A QID hand-over (R237). -/
structure QHo where
  cur   : Nat
  first : Nat
  last  : Nat
  newFirst : Nat
  /-- The current QID's entry has been taken. -/
  going : Bool := false
  deriving DecidableEq, Repr

/-- A drain of R378: which reset or lifecycle transition it serves. -/
inductive Drain where
  | warm | soft | lifecycle
  deriving DecidableEq, Repr

/-- A lifecycle transition (R404): its target and the stage running. -/
structure LcTrans where
  target : Fin 5
  stage  : Nat
  /-- The state it leaves, once its fuses are burned. -/
  old    : Nat := 0
  /-- The wipe result: 0 OK, else the number of the first array that did not read back zero. -/
  bad    : BitVec 8 := 0
  deriving DecidableEq, Repr

/-- A memory self-test (R384): slice, Crema or way-bank, bank, stage 1 to 3, and the failure found. -/
structure Mbist where
  hs    : Nat
  crm   : Bool
  bank  : Nat
  stage : Nat
  fail  : Bool := false
  deriving DecidableEq, Repr

/-- The status of a management response (R304). -/
inductive MgmtSt where
  | ok | unavail | perr
  deriving DecidableEq, Repr

/-- Integration parameters (Table 01-9), bound into the netlist. -/
structure Integ where
  dp    : BitVec 16 := 0xFFFF
  mp    : BitVec 8 := 0xFF
  ip    : BitVec 4 := 0xF
  cxl   : BitVec 4 := 0x3
  fmax  : BitVec 6 := 24
  homed : BitVec 6 := 46
  sfpart : Bool := true
  deriving DecidableEq, Repr

/-- Everything the block holds but its command queue, record store, counter store and fuses. -/
structure Mach where
  integ  : Integ := {}
  /-- The management plane is out of POR (R20). -/
  up     : Bool := false
  /-- Registers by management address; a register of the S world's own copy lies 0x100000 higher (R416, R361). -/
  regs   : SMap W32 := []
  slices : SMap Slice := []
  ports  : SMap Port := []
  groups : SMap Group := []
  doms   : SMap DomSt := []
  /-- Latches of _HI registers and held _LO writes (R4, R416), by address, the S world's 0x100000 higher. -/
  latch  : SMap W32 := []
  heldLo : SMap (Option W32) := []
  resp   : MgmtSt × W32 := (.ok, 0)
  -- fault collector
  caps   : List (BitVec 256) := []
  capSeq : BitVec 8 := 0
  lost   : SMap (BitVec 4) := []
  win    : SMap Nat := []
  due    : List Due := []
  /-- An error in the Yard buffer that the next flit crosses: single-bit (false) or double-bit (true) (R316). -/
  yard   : Option Bool := none
  -- recovery
  fagent : BitVec 24 := 0
  sweeps : List Nat := []
  /-- Memory ports whose spill directory and descriptors stay out of use after a PORT reset (R299). -/
  metaDn : List Nat := []
  safe   : Option Safe := none
  fatal  : Bool := false
  rehome : Option Rehome := none
  rhq    : List (Nat × Bool × RhWhy) := []
  ctrl   : SMap CtrlSt := []
  rcr    : RecSt := {}
  -- queue engine and Tamper
  tmp    : Option TmpOp := none
  tmpq   : List TmpOp := []
  lk     : Option LkCmd := none
  qcmd   : Option QCmd := none
  qho    : Option QHo := none
  invBusy : Bool := false
  -- power, clocks, resets
  domCmd : Option (Nat × Bool) := none
  /-- Domain transitions that CP has yet to make (R363, Table 12-12). -/
  domq   : List (Nat × DomSt) := []
  freqTo : Option (BitVec 5) := none
  cur    : BitVec 5 := 0
  throttle : Bool := false
  vmon   : BitVec 4 := 0
  tmon   : BitVec 2 := 0
  /-- The bring-up step that runs (Table 14-8), 8 once step 7 has ended. -/
  step   : Nat := 0
  halted : Bool := false
  /-- The slice mapping has been written since POR (R11, Table 14-6). -/
  mapped : Bool := false
  cpFails : Nat := 0
  drain  : Option Drain := none
  image  : Option Image := none
  heldq  : List (BitVec 20 × W32) := []
  lc     : Option LcTrans := none
  dbgOpen : Bool := false
  /-- TX_INT[3] stays low after a WARM or SOFT reset until the recorder sets attn again (R307). -/
  recOff : Bool := false
  mbist  : Option Mbist := none
  lbist  : Bool := false
  /-- Draws made from the free values (Config). -/
  free   : Nat := 0
  /-- The counter-store slot written next (R373). -/
  cslot  : Nat := 0
  deriving DecidableEq, Repr

/-- The one-time-programmable fuses (R401 to R408). -/
structure Fuse where
  /-- The three copies of the lifecycle state (R405). -/
  lc       : Vector (BitVec 3) 3 := #v[0, 0, 0]
  redeploy : BitVec 2 := 0
  devid    : W64 := 0
  key      : List W32 := List.replicate 24 0
  /-- The three controllers' minimum security versions, each a 32-bit thermometer (R408). -/
  min      : Vector W32 3 := #v[0, 0, 0]
  deriving DecidableEq, Repr

end Sys2Proof.Machine
end

