-- ==== Sys2Proof/Machine/State.lean ====
section
/-! DEFINITION. The state of the block, its outcomes that are not a next state, and the state after reset. -/

namespace Sys2Proof.Machine

/-- The faults of a step. The block has none: every command the spec names has an effect or is refused with one
(notes/assumptions/4.md). The type is empty. -/
inductive Fault where
  deriving DecidableEq, Repr

/-- The refusals of a step. -/
inductive Refusal where
  /-- Raised by `exec` for a command that has no meaning yet; safe. -/
  | notModelled (mnemonic : String)
  deriving DecidableEq, Repr

/-- The bytes of an addressed store, in canonical form: addresses strictly rising, no byte equal to 0, the value an
unlisted address reads as (notes/assumptions/6.md). -/
abbrev Bytes := List Host.Cell

/-- The block. `pending` is the queue of commands, first in, first out. -/
structure State where
  pending : List Instr := []
  /-- The 8 MiB record store (R354). -/
  store   : Bytes := []
  /-- 64-bit words of the record store, by byte address / 8, that fail their SECDED check (R357). -/
  storeBad : List Nat := []
  /-- The number of the first array that has bits which cannot be cleared, 0 for none: a wipe finds it (R404). -/
  stuck   : BitVec 8 := 0
  /-- The record store's erased marker (R405). -/
  erased  : Bool := false
  /-- The 16 slots of the counter store: OPSEC and PCC (R373). -/
  cstore  : Vector (W32 × BitVec 24) 16 := Vector.replicate 16 (0, 0)
  fuse    : Fuse := {}
  m       : Mach := {}
  deriving DecidableEq, Repr

/-- The state right after reset: TX_POR_N is held low, every switched domain is OFF, every register holds its
"After reset" value and every table is empty (R376, R379, Table 14-6). Fuses and counter store are as the device
leaves manufacture (R373, notes/assumptions/5.md). -/
def State.reset : State := {}

end Sys2Proof.Machine
end

