-- ==== Sys2Proof/Machine/Operands.lean ====
section
/-! DEFINITION. The address operands and the keys the block computes from them: the fold to a logical slice, set
indices, tags, buckets, the predictor index, and byte accesses within a line. -/

namespace Sys2Proof.Machine

/-- The logical slice of a homed offset: bit `j` folds bits `7 + j + 5k` up to 45 (R28). -/
def lsOf (off : Off) : BitVec 5 :=
  (List.range 8).foldl (fun a k => a ^^^ off.extractLsb' (7 + 5 * k) 5) 0

/-- The line key of an offset, bits [45:6] (R121). -/
def keyOf (off : Off) : LineKey := off.extractLsb' 6 40

/-- The offset of a line key. -/
def offOf (k : LineKey) : Off := k ++ (0 : BitVec 6)

/-- The sector number, offset bits [45:7]. -/
def secOf (off : Off) : BitVec 39 := off.extractLsb' 7 39

/-- The sector of a line key. -/
def keySec (k : LineKey) : BitVec 39 := k.extractLsb' 1 39

/-- The line of a sector. -/
def lineKey (s : BitVec 39) (line1 : Bool) : LineKey := s ++ (BitVec.ofBool line1)

/-- The offset of a sector. -/
def secOff (s : BitVec 39) : Off := s ++ (0 : BitVec 7)

/-- The snoop-filter set index of a sector (R82). -/
def setOf (s : BitVec 39) : BitVec 14 :=
  s.extractLsb' 0 14 ^^^ s.extractLsb' 14 14 ^^^ (s.extractLsb' 28 11).setWidth 14

/-- The snoop-filter tag, offset bits [45:21] (R82). -/
def tagOf (s : BitVec 39) : BitVec 25 := s.extractLsb' 14 25

/-- The sector of a set index and a tag (R82). -/
def sectorOf (set : BitVec 14) (tag : BitVec 25) : BitVec 39 :=
  tag ++ (set ^^^ tag.extractLsb' 0 14 ^^^ (tag.extractLsb' 14 11).setWidth 14)

/-- The fold `th` of the tag into `m` bits (R93). -/
def thOf (m : Nat) (tag : BitVec 25) : Nat :=
  (List.range 25).foldl (fun a i => if tag.getLsbD i then a ^^^ (1 <<< (i % m)) else a) 0

/-- The bucket index of a sector for a spill directory of `2^z` bytes (R93). -/
def bucketIdx (z : Nat) (s : BitVec 39) : Nat :=
  (setOf s).toNat * 2 ^ (z - 25) + thOf (z - 25) (tagOf s)

/-- The Crema set index of a line key (R242). -/
def crmSet (k : LineKey) : Nat :=
  (k.extractLsb' 0 10 ^^^ k.extractLsb' 10 10 ^^^ k.extractLsb' 20 10 ^^^ k.extractLsb' 30 10).toNat

/-- The contention counter index of a line key (R167). -/
def predIdx (k : LineKey) : Nat :=
  (k.extractLsb' 0 12 ^^^ k.extractLsb' 12 12 ^^^ k.extractLsb' 24 12 ^^^ (k.extractLsb' 36 4).setWidth 12).toNat

/-- The fold `h` over offset bits 12 to 45 of a page (R254). -/
def pageFold (off : Off) : BitVec 5 := lsOf (off &&& 0x3FFFFFFFF000#46)

/-- The offset of the sector of page `p` homed on logical slice `ls` (R254). -/
def pageSector (page : BitVec 34) (ls : BitVec 5) : Off :=
  let base : Off := page ++ (0 : BitVec 12)
  base ||| ((ls ^^^ pageFold base).setWidth 46 <<< 7)

/-- Is `off` aligned to `2^s` bytes? -/
def aligned (off : Nat) (s : Nat) : Bool := off % 2 ^ s = 0

/-- Does the range of `2^s` bytes at `base` hold `a`? -/
def inRange (base s a : Nat) : Bool := decide (base ≤ a ∧ a < base + 2 ^ s)

/-- Do two ranges overlap? -/
def overlap (b1 s1 b2 s2 : Nat) : Bool := decide (b1 < b2 + 2 ^ s2 ∧ b2 < b1 + 2 ^ s1)

/-- The `n` bytes of a line from byte `lo`, as a number. -/
def lineBytes (d : Line) (lo n : Nat) : Nat := (d.toNat >>> (8 * lo)) % 2 ^ (8 * n)

/-- The mask of `n` bytes from byte `lo`. -/
def byteMask (lo n : Nat) : Mask := BitVec.ofNat 64 ((2 ^ n - 1) <<< lo)

/-- Expand a byte mask to the bits of a line. -/
def maskBits (m : Mask) : Line :=
  BitVec.ofNat 512 ((List.range 64).foldl (fun a i => if m.getLsbD i then a + (0xFF <<< (8 * i)) else a) 0)

/-- Write the masked bytes of `new` over `old`. -/
def mergeLine (m : Mask) (new old : Line) : Line := (new &&& maskBits m) ||| (old &&& ~~~ maskBits m)

/-- 64-bit word `i` of a line. -/
def lineWord (d : Line) (i : Nat) : W64 := d.extractLsb' (64 * i) 64

/-- Write word `i` of a line. -/
def setLineWord (d : Line) (i : Nat) (w : W64) : Line := mergeLine (byteMask (8 * i) 8) (w.setWidth 512 <<< (64 * i)) d

/-- A line made of eight 64-bit words, word 0 lowest. -/
def lineOf (ws : List W64) : Line :=
  BitVec.ofNat 512 (ws.foldr (fun w a => a * 2 ^ 64 + w.toNat) 0)

end Sys2Proof.Machine
end

