-- ==== Sys2Proof/Machine/Flags.lean ====
section
/-! DEFINITION. Check bits and the small flag words: parity, CRC-32C, and the fields of the array words
(R85, R83, R242, R290, Tables 04-2, 04-3, 09-1). -/

namespace Sys2Proof.Machine

/-- The even-parity bit of a byte: the exclusive-or of its bits (R85). -/
def parBit (b : Nat) : Bool := (List.range 8).foldl (fun a i => a != b.testBit i) false

/-- The parity bits of the first `n` bytes of `w` (R85). -/
def parBits (n w : Nat) : Nat :=
  (List.range n).foldl (fun a k => if parBit ((w >>> (8 * k)) % 256) then a + 2 ^ k else a) 0

/-- A word of `n` bytes with its parity bits above it, as the arrays hold it. -/
def withPar (n : Nat) (w : Nat) : Nat := parBits n w * 2 ^ (8 * n) + w

/-- The bytes of a stored word whose parity fails. -/
def badBytes (n : Nat) (stored : Nat) : List Nat :=
  let w := stored % 2 ^ (8 * n)
  let p := stored / 2 ^ (8 * n)
  (List.range n).filter fun k => parBit ((w >>> (8 * k)) % 256) != p.testBit k

/-- A stored word rewritten: the bytes that change take fresh parity, the others keep what they held (R85). -/
def rewrite (n : Nat) (old new : Nat) : Nat :=
  let ow := old % 2 ^ (8 * n)
  let op := old / 2 ^ (8 * n)
  let p := (List.range n).foldl (fun a k =>
    let b := (new >>> (8 * k)) % 256
    if (if b = (ow >>> (8 * k)) % 256 then op.testBit k else parBit b) then a + 2 ^ k else a) 0
  p * 2 ^ (8 * n) + new

/-- One bit of the reflected CRC-32C (R290). -/
def crcStep (c : BitVec 32) (b : Bool) : BitVec 32 :=
  if (c.getLsbD 0) != b then (c >>> 1) ^^^ 0x82F63B78#32 else c >>> 1

/-- CRC-32C of the low `n` bytes of `d`, byte 0 first (R290). -/
def crc32c (n d : Nat) : BitVec 32 :=
  ~~~ ((List.range (8 * n)).foldl (fun c i => crcStep c (d.testBit i)) 0xFFFFFFFF#32)

/-- The CRC-32C of a line (R292). -/
def lineCrc (d : Line) : BitVec 32 := crc32c 64 d.toNat

-- Set-state word (Table 04-2)
/-- `valid` of way `w`. -/
def ssValid (s : BitVec 48) (w : Nat) : Bool := s.getLsbD w
/-- `nru` of way `w`. -/
def ssNru (s : BitVec 48) (w : Nat) : Bool := s.getLsbD (16 + w)
/-- The spill count. -/
def ssSpc (s : BitVec 48) : Nat := (s.extractLsb' 32 13).toNat
/-- The imprecise bit. -/
def ssSimp (s : BitVec 48) : Bool := s.getLsbD 45
/-- Write one bit of a set-state word. -/
def ssBit (s : BitVec 48) (i : Nat) (b : Bool) : BitVec 48 :=
  if b then s ||| (1#48 <<< i) else s &&& ~~~ (1#48 <<< i)
/-- Write the spill count, bounded by its 4,096 maximum. -/
def ssSetSpc (s : BitVec 48) (n : Nat) : BitVec 48 :=
  (s &&& ~~~ (0x1FFF#48 <<< 32)) ||| (BitVec.ofNat 48 (min n 4096) <<< 32)

-- Snoop-filter entry (Table 04-3)
/-- The tag. -/
def enTag (e : W64) : BitVec 25 := e.extractLsb' 39 25
/-- The presence vector. -/
def enPres (e : W64) : BitVec 24 := e.extractLsb' 15 24
/-- The home state of a line. -/
def enSt (e : W64) (line1 : Bool) : BitVec 2 := e.extractLsb' (if line1 then 13 else 6) 2
/-- The owner of a line. -/
def enOwn (e : W64) (line1 : Bool) : BitVec 5 := e.extractLsb' (if line1 then 8 else 1) 5
/-- The spf bit. -/
def enSpf (e : W64) : Bool := e.getLsbD 0
/-- Build an entry. -/
def mkEntry (tag : BitVec 25) (pres : BitVec 24) (st1 : BitVec 2) (own1 : BitVec 5) (st0 : BitVec 2)
    (own0 : BitVec 5) (spf : Bool) : W64 :=
  tag ++ pres ++ st1 ++ own1 ++ st0 ++ own0 ++ BitVec.ofBool spf
/-- Write the state and owner of a line; the owner is zero in I and S (R84). -/
def enSetLine (e : W64) (line1 : Bool) (st : BitVec 2) (own : BitVec 5) : W64 :=
  let o : BitVec 5 := if st = 2 ∨ st = 3 then own else 0
  let v : W64 := (st ++ o : BitVec 7).setWidth 64
  if line1 then (e &&& ~~~ (0x7F#64 <<< 8)) ||| (v <<< 8) else (e &&& ~~~ (0x7F#64 <<< 1)) ||| (v <<< 1)
/-- Write the presence vector. -/
def enSetPres (e : W64) (p : BitVec 24) : W64 :=
  (e &&& ~~~ (0xFFFFFF#64 <<< 15)) ||| (p.setWidth 64 <<< 15)
/-- Write spf. -/
def enSetSpf (e : W64) (b : Bool) : W64 := if b then e ||| 1 else e &&& ~~~ (1#64)
/-- An imprecise entry (R102). -/
def enImp (e : W64) : Bool := enPres e = 0xFFFFFF#24

/-- Home states (Table 03-5). -/
def hsI : BitVec 2 := 0
def hsS : BitVec 2 := 1
def hsX : BitVec 2 := 2
def hsOS : BitVec 2 := 3

-- Crema tag word (Table 09-1)
/-- A tag word. -/
def mkTag (k : LineKey) (v lk w pf rf : Bool) : BitVec 48 :=
  k ++ BitVec.ofBool v ++ BitVec.ofBool lk ++ BitVec.ofBool w ++ BitVec.ofBool pf ++ BitVec.ofBool rf ++ (0 : BitVec 3)
/-- The key of a tag word. -/
def tgKey (t : BitVec 48) : LineKey := t.extractLsb' 8 40
/-- Its flags. -/
def tgV (t : BitVec 48) : Bool := t.getLsbD 7
def tgLk (t : BitVec 48) : Bool := t.getLsbD 6
def tgW (t : BitVec 48) : Bool := t.getLsbD 5
def tgPf (t : BitVec 48) : Bool := t.getLsbD 4
def tgRf (t : BitVec 48) : Bool := t.getLsbD 3

-- Region-map leaf attributes, leaf bits [23:8] (Table 02-3, Table 05-1)
/-- coh. -/
def atCoh (a : BitVec 16) : BitVec 2 := a.extractLsb' 0 2
/-- early_ack. -/
def atEack (a : BitVec 16) : Bool := a.getLsbD 2
/-- world. -/
def atSec (a : BitVec 16) : Bool := a.getLsbD 3
/-- crema_alloc. -/
def atAlloc (a : BitVec 16) : Bool := a.getLsbD 4
/-- pf_allow. -/
def atPf (a : BitVec 16) : Bool := a.getLsbD 5
/-- atom. -/
def atAtom (a : BitVec 16) : BitVec 2 := a.extractLsb' 6 2
/-- qob_area. -/
def atQob (a : BitVec 16) : Bool := a.getLsbD 8
/-- tgt_num. -/
def atNum (a : BitVec 16) : Nat := (a.extractLsb' 12 3).toNat
/-- tgt_io. -/
def atIo (a : BitVec 16) : Bool := a.getLsbD 15
/-- The target port. -/
def atPort (a : BitVec 16) : Nat := if atIo a then 24 + atNum a else 16 + atNum a
/-- Coherent write-back (00), non-cached (01), device (10). -/
def atWb (a : BitVec 16) : Bool := atCoh a = 0
def atNc (a : BitVec 16) : Bool := atCoh a = 1
def atDev (a : BitVec 16) : Bool := atCoh a = 2

end Sys2Proof.Machine
end

