-- ==== Sys2Proof/Machine/Ops.lean ====
section
/-! DEFINITION. The named operations over the machine state: slices, ports, registers, counters, the recorder buffer,
capture and escalation, and sending a message (R117, R270, R293, R317 to R322, R340 to R351). -/

namespace Sys2Proof.Machine

-- ===== registers =====

/-- The page's own register table (Table 16-1); none for a reserved page and for the page of an unpopulated port
(R7, R23). -/
def pageRows (g : Integ) (p : Nat) : Option (List RegRow) :=
  match p with
  | 0 => some glbRows | 1 => some pwrRows | 2 => some rstRows | 3 => some secRows | 4 => some fltRows
  | 5 => some recRows | 6 => some aonRows | 7 => some rmpRows | 8 => some qobRows | 9 => some tmpRows
  | 10 => some ctpRows | 11 => some rvpRows | 12 => some tlpRows | 13 => some dbgRows | 14 => some tstRows
  | _ =>
    if 0x40 ≤ p ∧ p < 0x50 ∧ g.dp.getLsbD (p - 0x40) then some portRows
    else if 0x50 ≤ p ∧ p < 0x58 ∧ g.mp.getLsbD (p - 0x50) then some portRows
    else if 0x58 ≤ p ∧ p < 0x5C ∧ g.ip.getLsbD (p - 0x58) then some portRows
    else if 0x80 ≤ p ∧ p < 0xA2 then some hsRows
    else if 0xC0 ≤ p ∧ p < 0xE2 then some hscRows
    else none

/-- Registers of a port page that the page's port type does not have (Table 17-7, R437). -/
def portHas (p off : Nat) : Bool :=
  let die := p < 0x50
  let io := 0x58 ≤ p
  if off = Reg.pLcfg then die
  else if Reg.pWostat ≤ off ∧ off ≤ Reg.pBarlost then die || io
  else if Reg.ipHdmBaseLo ≤ off ∧ off < 0x1A0 then io
  else true

/-- The row of offset `off` in a page's table. -/
def findRow (rows : List RegRow) (off : Nat) : Option RegRow :=
  rows.find? fun r => decide (r.off ≤ off ∧ (off - r.off) % r.stride = 0 ∧ (off - r.off) / r.stride < r.n)

/-- The row of register address `a`, header registers included. -/
def regRow (g : Integ) (a : Nat) : Option RegRow :=
  let p := a / 0x1000
  let off := a % 0x1000
  match pageRows g p with
  | none => none
  | some rows =>
    if off < 0x01C then findRow hdrRows off
    else if off = 0x01C then some ⟨0x01C, 1, 4, 0, if p = 0 then 1 else 0, 0, 0, 0⟩
    else if 0x40 ≤ p ∧ p < 0x5C ∧ !portHas p off then none
    else findRow rows off

/-- What a stored register reads after POR (R6, and the tables of `spec/`). The integration values are those of
`Integ` (R23); the register parts that depend on the index are GLB_LSMAPk (Table 01-2) and AON_VCFGk (Table 14-4). -/
def rstVal (g : Integ) (a : Nat) : W32 :=
  let a := a % 0x100000
  if a = Reg.glbIntcfg0 then g.cxl ++ g.ip ++ g.mp ++ g.dp
  else if a = Reg.glbIntcfg1 then
    (BitVec.ofBool g.sfpart).setWidth 32 <<< 16 ||| g.homed.setWidth 32 <<< 8 ||| g.fmax.setWidth 32
  else if Reg.glbLsmap ≤ a ∧ a < Reg.glbLsmap + 0x20 then
    BitVec.ofNat 32 (let k := a - Reg.glbLsmap; (k + 3) * 2 ^ 24 + (k + 2) * 2 ^ 16 + (k + 1) * 2 ^ 8 + k)
  else if a = Reg.pwrFreq then 0xC0000#32 ||| (g.fmax.setWidth 32 &&& 0x1F)
  else if a = Reg.aonVcfg then 680
  else if a = Reg.aonVcfg + 4 then 0x800002A8#32
  else if a = Reg.aonVcfg + 8 then 0x800002D0#32
  else if a = Reg.aonVcfg + 12 then 0x80000258#32
  else if a = Reg.secPart then (BitVec.ofBool g.sfpart).setWidth 32 <<< 8
  else match regRow g a with
    | some r => r.rst
    | none => 0

/-- The stored value of a register. -/
def Mach.reg (m : Mach) (a : Nat) : W32 := m.regs.get (rstVal m.integ a) a

/-- Store a register. -/
def Mach.setReg (m : Mach) (a : Nat) (v : W32) : Mach := { m with regs := m.regs.set (rstVal m.integ a) a v }

/-- A field of a stored register. -/
def Mach.fld (m : Mach) (a lo w : Nat) : Nat := ((m.reg a).extractLsb' lo w).toNat

/-- One bit of a stored register. -/
def Mach.bit (m : Mach) (a i : Nat) : Bool := (m.reg a).getLsbD i

/-- A word with field `[lo + w - 1 : lo]` replaced. -/
def putField (v : W32) (lo w n : Nat) : W32 :=
  (v &&& ~~~ (BitVec.ofNat 32 ((2 ^ w - 1) <<< lo))) ||| BitVec.ofNat 32 ((n % 2 ^ w) <<< lo)

/-- Store a field of a register. -/
def Mach.setFld (m : Mach) (a lo w n : Nat) : Mach := m.setReg a (putField (m.reg a) lo w n)

/-- Set or clear bits of a register. -/
def Mach.setBits (m : Mach) (a : Nat) (b : W32) : Mach := m.setReg a (m.reg a ||| b)
def Mach.clrBits (m : Mach) (a : Nat) (b : W32) : Mach := m.setReg a (m.reg a &&& ~~~ b)

/-- A register pair as one quantity (R4). -/
def Mach.pair (m : Mach) (lo hi : Nat) : W64 := m.reg hi ++ m.reg lo

/-- Store a pair. -/
def Mach.setPair (m : Mach) (lo hi : Nat) (v : W64) : Mach :=
  (m.setReg lo (v.setWidth 32)).setReg hi (v.extractLsb' 32 32)

/-- A 32-bit count that saturates (R117). -/
def satAdd (v : W32) (n : Nat) : W32 := if v.toNat + n < 2 ^ 32 then v + BitVec.ofNat 32 n else 0xFFFFFFFF#32

/-- Raise a saturating counter register. -/
def Mach.count (m : Mach) (a : Nat) (n : Nat := 1) : Mach := m.setReg a (satAdd (m.reg a) n)

/-- The higher of a progress register and `n`: progress does not decrease during one operation (R5). -/
def Mach.progress (m : Mach) (a n : Nat) : Mach := m.setReg a (BitVec.ofNat 32 (max (m.reg a).toNat n))

/-- The address of register `off` on the control page, and on the counter page, of HSn; and on the page of port p. -/
def hsA (h off : Nat) : Nat := (0x80 + h) * 0x1000 + off
def hscA (h off : Nat) : Nat := (0xC0 + h) * 0x1000 + off
def portA (p off : Nat) : Nat := (0x40 + p) * 0x1000 + off

/-- Raise a 32-bit counter of HSn unless its page is frozen (R117, R435). -/
def Mach.bump (m : Mach) (h off : Nat) (n : Nat := 1) : Mach :=
  if m.bit (hscA h Reg.hscCtl) 0 then m else m.count (hscA h off) n

/-- Raise a 64-bit counter of HSn, held as a pair from `off` (R117, R435). -/
def Mach.bump64 (m : Mach) (h off : Nat) (n : Nat := 1) : Mach :=
  if m.bit (hscA h Reg.hscCtl) 0 then m
  else m.setPair (hscA h off) (hscA h (off + 4)) (m.pair (hscA h off) (hscA h (off + 4)) + BitVec.ofNat 64 n)

/-- Raise a counter of a port page unless it is frozen (R309, R440). -/
def Mach.bumpP (m : Mach) (p off : Nat) (n : Nat := 1) : Mach :=
  if m.bit (portA p Reg.pPctl) 0 then m else m.count (portA p off) n

/-- Raise a 64-bit counter of a port page (R439, R440). -/
def Mach.bumpP64 (m : Mach) (p off : Nat) : Mach :=
  if m.bit (portA p Reg.pPctl) 0 then m
  else m.setPair (portA p off) (portA p (off + 4)) (m.pair (portA p off) (portA p (off + 4)) + 1)

/-- Set a bit of HS_ERRSTAT (R429). -/
def Mach.err (m : Mach) (h i : Nat) : Mach := m.setBits (hsA h Reg.hsErrstat) (1#32 <<< i)

-- ===== slices, ports, groups, domains =====

/-- A slice under the POR mapping (R11). -/
def Slice.fresh (h : Nat) : Slice := if h < 32 then { role := .active, ls := h } else { role := .spare, ls := 0 }

/-- Physical slice HSn. -/
def Mach.slice (m : Mach) (h : Nat) : Slice := m.slices.get (Slice.fresh h) h
/-- Write HSn. -/
def Mach.setSlice (m : Mach) (h : Nat) (s : Slice) : Mach := { m with slices := m.slices.set (Slice.fresh h) h s }
/-- Change HSn. -/
def Mach.modS (m : Mach) (h : Nat) (f : Slice → Slice) : Mach := m.setSlice h (f (m.slice h))

/-- A port. -/
def Mach.port (m : Mach) (p : Nat) : Port := m.ports.get {} p
/-- Write a port. -/
def Mach.setPort (m : Mach) (p : Nat) (v : Port) : Mach := { m with ports := m.ports.set {} p v }
/-- Change a port. -/
def Mach.modP (m : Mach) (p : Nat) (f : Port → Port) : Mach := m.setPort p (f (m.port p))

/-- The walker and region cache of SGg. -/
def Mach.group (m : Mach) (g : Nat) : Group := m.groups.get {} g
/-- Change a group. -/
def Mach.modG (m : Mach) (g : Nat) (f : Group → Group) : Mach := { m with groups := m.groups.set {} g (f (m.group g)) }

/-- A switched domain's state (R363). -/
def Mach.dom (m : Mach) (d : Nat) : DomSt := m.doms.get .off d
/-- Set a domain's state. -/
def Mach.setDom (m : Mach) (d : Nat) (v : DomSt) : Mach := { m with doms := m.doms.set .off d v }

/-- A tracker entry. -/
def Slice.ent (s : Slice) (t : Nat) : TE := s.te.get {} t
/-- Write a tracker entry. -/
def Slice.setEnt (s : Slice) (t : Nat) (e : TE) : Slice := { s with te := s.te.set {} t e }
/-- A tracker entry of HSn. -/
def Mach.te (m : Mach) (h t : Nat) : TE := (m.slice h).ent t
/-- Write a tracker entry of HSn. -/
def Mach.setTe (m : Mach) (h t : Nat) (e : TE) : Mach := m.modS h fun s => s.setEnt t e
/-- Change a tracker entry of HSn. -/
def Mach.modTe (m : Mach) (h t : Nat) (f : TE → TE) : Mach := m.setTe h t (f (m.te h t))

/-- The physical slice that serves a logical slice, from GLB_LSMAP (R14). -/
def Mach.hsOf (m : Mach) (ls : Nat) : Nat := m.fld (Reg.glbLsmap + 4 * (ls / 4)) (8 * (ls % 4)) 6

/-- The slice group of HSn (Table 01-1). -/
def grpOf (h : Nat) : Nat := h / 8

/-- The htag of tracker entry `t` of HSn: the logical slice and the entry (Table 03-1). -/
def Mach.htag (m : Mach) (h t : Nat) : BitVec 14 := BitVec.ofNat 14 ((m.slice h).ls * 512 + t)

/-- The active slices. -/
def Mach.active (m : Mach) : List Nat := (List.range 34).filter fun h => (m.slice h).role = .active

/-- Is a port populated (R23)? -/
def Mach.populated (m : Mach) (p : Nat) : Bool :=
  if p < 16 then m.integ.dp.getLsbD p else if p < 24 then m.integ.mp.getLsbD (p - 16) else m.integ.ip.getLsbD (p - 24)

/-- Is an I/O port a CXL port (Table 01-10)? -/
def Mach.isCxl (m : Mach) (p : Nat) : Bool := decide (24 ≤ p) && m.integ.cxl.getLsbD (p - 24)

/-- The port of an agent (R9, R285). -/
def agPort (a : Nat) : Nat := if a < 16 then a else 24 + (a - 16) / 2

/-- Is an agent populated: its port is. -/
def Mach.agPop (m : Mach) (a : Nat) : Bool := decide (a < 24) && m.populated (agPort a)

/-- Is an agent fenced (R324)? -/
def Mach.agFenced (m : Mach) (a : Nat) : Bool := m.fagent.getLsbD a

/-- Every populated, unfenced agent, as a presence vector (R63). -/
def Mach.liveAgents (m : Mach) : BitVec 24 :=
  BitVec.ofNat 24 ((List.range 24).foldl (fun x a => if m.agPop a && !m.agFenced a then x + 2 ^ a else x) 0)

/-- Can a port take no new message towards its target? A port that is DOWN counts as a fenced one does (R74, R298;
notes/assumptions/85.md). -/
def Mach.portDown (m : Mach) (p : Nat) : Bool := (m.port p).st = .fenced || (m.port p).st = .down

/-- The agents named by a vector, lowest first. -/
def agents (v : BitVec 24) : List Nat := (List.range 24).filter fun a => v.getLsbD a
/-- The vector of one agent. -/
def agBit (a : Nat) : BitVec 24 := 1#24 <<< a

-- ===== homed space and seeds =====

/-- The homed base PA. -/
def Mach.hbase (m : Mach) : Nat := (m.pair Reg.glbHbaseLo Reg.glbHbaseHi).toNat
/-- log2 of the homed size. -/
def Mach.hlog2 (m : Mach) : Nat := m.fld Reg.glbHsize 0 6
/-- Is the homed space loaded? -/
def Mach.hvalid (m : Mach) : Bool := m.bit Reg.glbHsize 31

/-- The homed offset of a PA, none outside homed space (R26, R27). -/
def Mach.homed (m : Mach) (pa : Nat) : Option Off :=
  if m.hvalid && decide (m.hbase ≤ pa ∧ pa < m.hbase + 2 ^ m.hlog2) then some (BitVec.ofNat 46 (pa - m.hbase)) else none

/-- The PA of an offset. -/
def Mach.paOf (m : Mach) (off : Off) : PA := BitVec.ofNat 52 (m.hbase + off.toNat)

/-- The memory port of the seed that contains a PA (R34). -/
def Mach.seedPort (m : Mach) (pa : Nat) : Option Nat :=
  (List.range 4).findSome? fun k =>
    let cfg := m.reg (Reg.rmpSeedCfg + 12 * k)
    let base := (m.pair (Reg.rmpSeedBaseLo + 12 * k) (Reg.rmpSeedBaseHi + 12 * k)).toNat
    if cfg.getLsbD 31 && inRange base (cfg.extractLsb' 8 6).toNat pa then some (16 + (cfg.extractLsb' 0 3).toNat) else none

/-- The memory port of the seed that holds the spill directory (R34, R101). -/
def Mach.spillPort (m : Mach) : Nat := (m.seedPort (m.pair Reg.glbSpbaseLo Reg.glbSpbaseHi).toNat).getD 16
/-- Is the spill directory's seed port out of service (R101, R299)? -/
def Mach.spillDown (m : Mach) : Bool := m.portDown m.spillPort || m.metaDn.contains m.spillPort || !m.bit Reg.glbSpsize 31
/-- The PA of the bucket of a sector in logical slice `ls`'s share (R93). -/
def Mach.bucketPa (m : Mach) (ls : Nat) (s : BitVec 39) : PA :=
  let z := m.fld Reg.glbSpsize 0 6
  BitVec.ofNat 52 ((m.pair Reg.glbSpbaseLo Reg.glbSpbaseHi).toNat + ls * 2 ^ (z - 5) + bucketIdx z s * 64)
/-- The memory port of the seed that holds the descriptor table. -/
def Mach.descPort (m : Mach) : Nat := (m.seedPort (m.pair Reg.qobDescBaseLo Reg.qobDescBaseHi).toNat).getD 16
/-- Is that port out of service (R225)? -/
def Mach.descDown (m : Mach) : Bool := m.portDown m.descPort || m.metaDn.contains m.descPort
/-- The PA of a queue's descriptor (R217). -/
def Mach.descPa (m : Mach) (qid : BitVec 20) : Nat := (m.pair Reg.qobDescBaseLo Reg.qobDescBaseHi).toNat + qid.toNat * 64

-- ===== worlds and claims =====

/-- The lifecycle state now in force, as SEC_LCSTAT shows it (R401). -/
def Mach.lcState (m : Mach) : Nat := m.fld Reg.secLcstat 0 3

/-- The domains of a slice (Table 14-1). -/
def sliceDom (h k : Nat) : Nat := 6 * h + k
/-- The adapter domain of a port (Table 14-1). -/
def portDom (p : Nat) : Nat := 214 + p

/-- Explicit claims (R398). -/
def Mach.claimBit (m : Mach) (d : Nat) : Bool := m.bit (Reg.secClaim + 4 * (d / 32)) (d % 32)

/-- A claim by any rule but the one that follows from another domain of the slice (R398). -/
def Mach.claim1 (m : Mach) (d : Nat) : Bool :=
  m.claimBit d || (decide (d < 204) && (
    let h := d / 6
    let k := d % 6
    let act := decide ((m.slice h).role = .active)
    (act && decide (k = 4) && m.bit Reg.secPart 0) ||
    (act && decide (k = 5) && (decide (m.fld Reg.crmLkcfg 0 3 > 0) || decide (m.fld Reg.qobWcfg 0 11 > 0))) ||
    (match m.rehome with | some r => decide (h = r.old ∨ h = r.new) | none => false) ||
    (m.slices.any fun e => e.2.copy.any fun c => h = e.1 || h = c.old)))

/-- Is a domain claimed by the S world (R398)? -/
def Mach.claimed (m : Mach) (d : Nat) : Bool :=
  m.claim1 d || (decide (d < 204 ∧ d % 6 = 0) && (List.range 5).any fun k => m.claim1 (d + k + 1))

-- ===== recorder buffer =====

/-- The bytes a record takes (R340). -/
def Rcd.len (r : Rcd) : Nat := 16 + r.pay.length
/-- The bytes in the buffer. -/
def RecSt.fill (r : RecSt) : Nat := (r.buf.map Rcd.len).sum

/-- The recorder sets REC_STAT.attn, and with it the bits of `b` (R306, R307). -/
def Mach.attn (m : Mach) (b : W32 := 0) : Mach := { m with recOff := false }.setBits Reg.recStat (0x40 ||| b)

/-- Count a dropped record of class V or S, and set attn (R351). -/
def Mach.missed (m : Mach) (snap : Bool) : Mach :=
  let lo := if snap then 0 else 16
  let v := m.fld Reg.recMissed lo 16
  (m.setFld Reg.recMissed lo 16 (if v < 0xFFFF then v + 1 else v)).attn

/-- The oldest class S records removed until `need` bytes are free (R351): what is kept, and how many left. -/
def dropSnaps (need : Nat) : List Rcd → List Rcd × Nat
  | [] => ([], 0)
  | r :: rest =>
    if need = 0 then (r :: rest, 0)
    else if r.snap then
      let (k, n) := dropSnaps (need - r.len) rest
      (k, n + 1)
    else
      let (k, n) := dropSnaps need rest
      (r :: k, n)

/-- Start a flush, or hold the trigger while frozen (R350, R358). -/
def Mach.startFlush (m : Mach) : Mach := { m with rcr := { m.rcr with flush := true } }

/-- Place a record in the buffer (R341, R348, R351); at 75% fill a flush starts (R350). -/
def Mach.place (m : Mach) (typ : BitVec 8) (snap sec : Bool) (pay : List (BitVec 8)) (origin : BitVec 4) : Mach :=
  let r : Rcd := { typ, snap, sec, pay, seq := m.rcr.seq, opsec := m.reg Reg.aonOpsec,
                   pcc := (m.reg Reg.aonPcc).setWidth 24, origin }
  let m := { m with rcr := { m.rcr with seq := m.rcr.seq + 1 } }
  if m.rcr.closed then m.missed snap
  else
    let free := 262144 - m.rcr.fill
    if r.len ≤ free then
      let m := { m with rcr := { m.rcr with buf := m.rcr.buf ++ [r] } }
      if 196608 ≤ m.rcr.fill then m.startFlush else m
    else if snap then m.missed true
    else
      let (kept, n) := dropSnaps (r.len - free) m.rcr.buf
      if (kept.map Rcd.len).sum + r.len ≤ 262144 then
        let m := (List.range n).foldl (fun m _ => m.missed true) m
        { m with rcr := { m.rcr with buf := kept ++ [r] } }.startFlush
      else m.missed false

/-- The little-endian bytes of a number. -/
def leBytes (n v : Nat) : List (BitVec 8) := (List.range n).map fun k => BitVec.ofNat 8 (v >>> (8 * k))

/-- A class V record (Table 13-2), subject to the filter of its type (R342). -/
def Mach.recordV (m : Mach) (typ : Nat) (sec : Bool) (pay : List (BitVec 8)) (origin : BitVec 4)
    (filtered : Bool := false) : Mach :=
  if filtered && !m.bit Reg.recVfilt typ then m else m.place (BitVec.ofNat 8 typ) false sec pay origin

/-- The payload of a record whose layout Table 13-2 does not give (notes/assumptions/15.md). -/
def payload (typ : Nat) (fields : List Nat) (n : Nat) : List (BitVec 8) := (List.range n).map (Config.payload typ fields)

/-- A POWER record (Table 13-2). -/
def Mach.powerRec (m : Mach) (dom old new cmp : Nat) (sec filtered : Bool) : Mach :=
  m.recordV 3 sec (payload 3 [dom, old, new, cmp] 8) 1 filtered

/-- The domain's state changes, with a POWER record (Table 13-2). -/
def DomSt.code : DomSt → Nat
  | .off => 0 | .waking => 1 | .on => 2 | .draining => 3
def Mach.moveDom (m : Mach) (d : Nat) (st : DomSt) : Mach :=
  let old := m.dom d
  if old = st then m else (m.setDom d st).powerRec d old.code st.code 15 (m.claimed d) true

/-- Is a controller running (Table 16-6)? -/
def Mach.ctrlRuns (m : Mach) (c : Nat) : Bool :=
  let r := (m.ctrl.get {} c).run
  r = 1 || r = 2

/-- The state a domain is in once CP has made what it was asked for. -/
def Mach.domWant (m : Mach) (d : Nat) : DomSt :=
  match (m.domq.filter fun x => x.1 = d).getLast? with
  | some x => x.2
  | none => m.dom d

/-- May CP make a transition now? It switches at most eight domains into WAKING at once (R363). -/
def Mach.domFree (m : Mach) (st : DomSt) : Bool :=
  m.ctrlRuns 0 && (st ≠ .waking || decide ((m.doms.filter fun e => e.2 = .waking).length < 8))

/-- Ask CP for a transition of a domain: it waits while CP is in reset, and while eight domains wake (R363, Table 12-12). -/
def Mach.domTo (m : Mach) (d : Nat) (st : DomSt) : Mach :=
  if m.domWant d = st then m
  else if m.domFree st && !(m.domq.any fun x => x.1 = d) then m.moveDom d st
  else { m with domq := m.domq ++ [(d, st)] }

/-- A snapshot trigger reaches the sets of `mask`: before the set's first register has been read it is merged into the snapshot that
runs, and later it makes the set pending (R345, R346). -/
def Mach.trigSets (m : Mach) (bit : Nat) (mask : BitVec 8) : Mach :=
  (List.range 8).foldl (fun m k =>
    if !mask.getLsbD k then m
    else if !m.ctrlRuns 2 then m.missed true
    else
      let w : BitVec 12 := 1#12 <<< bit
      if m.rcr.run.get 0 k = 0 || (m.rcr.got.get none k).isNone then { m with rcr := { m.rcr with run := m.rcr.run.upd 0 k (· ||| w) } }
      else { m with rcr := { m.rcr with pend := m.rcr.pend.upd 0 k (· ||| w) } }) m

/-- An event of trigger bit `bit` (Table 13-4) whose class V record would have world `sec` (R345). -/
def Mach.trigger (m : Mach) (bit : Nat) (sec : Bool := false) : Mach :=
  m.trigSets bit (BitVec.ofNat 8 ((List.range 8).foldl (fun a k =>
    let cfg := m.reg (Reg.recSscfg + 4 * k)
    if cfg.getLsbD 31 && m.bit (Reg.recTrg + 4 * k) bit && (cfg.getLsbD 30 || !sec) then a + 2 ^ k else a) 0))

-- ===== capture =====

/-- An event for the fault collector (Tables 12-4 and 12-5). `who` names requester agent, rqid and tid. -/
structure Ev where
  src   : Nat
  code  : BitVec 8
  cls   : Cls := .c
  counted : Bool := false
  sub   : Nat := 0
  akind : BitVec 4 := 0
  addr  : BitVec 52 := 0
  auth  : BitVec 2 := 2
  who   : Option (BitVec 5 × BitVec 9 × Tid) := none
  htag  : BitVec 14 := 0
  opc   : BitVec 5 := 0
  mcls  : BitVec 3 := 0
  deriving DecidableEq, Repr

/-- The 32-byte capture record (Table 12-5). -/
def capRecord (e : Ev) (esc : Bool) (cls : Cls) (seq : BitVec 8) (opsec : W32) (usec : BitVec 20) (pcc : BitVec 24) :
    BitVec 256 :=
  let w0 : W32 := (1 : BitVec 1) ++ BitVec.ofBool esc ++ cls.code ++ BitVec.ofNat 6 e.src ++ BitVec.ofNat 6 e.sub ++
    e.code ++ seq
  let w2 : W32 := (0 : BitVec 8) ++ e.akind ++ e.addr.extractLsb' 32 20
  let w3 : W32 := match e.who with
    | some (a, r, t) => e.auth ++ (1 : BitVec 1) ++ a ++ r ++ t ++ (0 : BitVec 3)
    | none => e.auth ++ (0 : BitVec 30)
  let w4 : W32 := (0 : BitVec 5) ++ e.htag ++ e.opc ++ e.mcls ++ (0 : BitVec 5)
  ((0 : BitVec 8) ++ pcc : W32) ++ ((0 : BitVec 12) ++ usec : W32) ++ opsec ++ w4 ++ w3 ++ w2 ++
    e.addr.setWidth 32 ++ w0

/-- The unit behind a fault source may be fenced by an escalation or an unnarrowed class F event (Table 12-1), whose own
record stands for the fence (R314, R318). -/
def sourceDue (src : Nat) (esc : Bool) : List Due :=
  if src < 34 then [.slice src false (if esc then .esc else .fault)]
  else if src < 62 then [.port (src - 34) 3 false]
  else []

/-- Is a usable spare left (R329)? -/
def Mach.spareOk (m : Mach) : Bool := (List.range 34).any fun h => (m.slice h).role = .spare && !(m.rehome.any fun r => r.new = h)

/-- The threshold N of a source (R317). -/
def Mach.threshold (m : Mach) (src : Nat) : Nat := max 1 (m.fld (Reg.fltCfg + 4 * src) 0 8)

/-- Raise an event: count it, escalate it at N (R317, R318), capture or lose it (R319, R320), place its FAULT
record (R342), fire its snapshot trigger (R345), start the flush of a class F or X capture (R350), and queue the
reaction of Table 12-1. -/
def Mach.capture (m : Mach) (e : Ev) : Mach :=
  let n := m.win.get 0 e.src + 1
  let esc := e.counted && decide (m.threshold e.src ≤ n)
  let m := if !e.counted then m
    else if esc then { m with win := m.win.set 0 e.src 0 }.setBits (Reg.fltCnt + 4 * e.src) 0x80000000
    else { m with win := m.win.set 0 e.src n }
  let cls := if esc then Cls.f else e.cls
  let r := capRecord e esc cls m.capSeq (m.reg Reg.aonOpsec) (BitVec.ofNat 20 (Config.subSecond m.free).val) ((m.reg Reg.aonPcc).setWidth 24)
  let m := { m with capSeq := m.capSeq + 1, free := m.free + 1 }
  let m := if m.caps.length < 33 then { m with caps := m.caps ++ [r] }
    else { m.count Reg.fltOvf with lost := m.lost.upd 0 e.src (· ||| (1#4 <<< cls.code.toNat)) }
  let sec := decide (e.auth = 1)
  let m := if cls = .c && !m.bit Reg.recVfilt 16 then m else m.place 1 false sec (leBytes 32 r.toNat) 0
  let m := m.trigger cls.code.toNat sec
  let m := if cls = .f || cls = .x then m.startFlush else m
  let m := if esc && m.bit Reg.fltCtl 4 then { m with due := m.due ++ sourceDue e.src true } else m
  if cls = .x then { m with due := m.due ++ [.safe e.code.toNat (if e.akind = 4 then e.addr.setWidth 20 else 0)] } else m

/-- A protocol error of a port (R51): counted in PROTERR and captured as code 0x02, class C. -/
def Mach.protErr (m : Mach) (p : Nat) (agent : BitVec 5) (rqid : BitVec 9) (tid : Tid) (pa : BitVec 52)
    (opc : BitVec 5) (mcls : BitVec 3) (auth : BitVec 2 := 2) : Mach :=
  (m.bumpP p Reg.pProterr).capture
    { src := 34 + p, code := 0x02, counted := true, akind := if pa = 0 then 0 else 1, addr := pa, auth,
      who := some (agent, rqid, tid), opc, mcls }

/-- A protocol error of a MEM or link-level flit: no agent is named. -/
def Mach.protErrM (m : Mach) (p : Nat) (pa : BitVec 52) (mcls : BitVec 3) : Mach :=
  (m.bumpP p Reg.pProterr).capture
    { src := 34 + p, code := 0x02, counted := true, akind := if pa = 0 then 0 else 1, addr := pa, mcls }

-- ===== ports: sending =====

/-- The credit class of a message: the `cr_cls` code it needs from the far side (Table 11-5). -/
def Opc.cred : Opc → Nat
  | .mrd => 6
  | .mwr | .mwm | .mwp | .mbr => 7
  | o => match o.cls with | 1 => 2 | 2 => 3 | _ => 4

/-- Flits of a message: an MWM takes two (R291). -/
def Opc.flits (o : Opc) : Nat := if o = .mwm then 2 else 1

/-- Is the key of a message a QID? -/
def Msg.qid (g : Msg) : Bool := g.op = .cmq

/-- Does an ending message leave with this one: a completion, or a DAT that completes (R66)? -/
def Msg.ends (g : Msg) : Bool := g.op.cls = 2 || g.cmp

/-- Split an egress queue into what can be sent now and what stays, in order per agent and line (R57), with the
credits left. `room` is the room in the replay buffer in flits. -/
def pumpList : List Msg → List Nat → Nat → List (BitVec 5 × LineKey × Bool) → List Msg × List Msg × List Nat
  | [], cr, _, _ => ([], [], cr)
  | g :: r, cr, room, blocked =>
    let c := g.op.cred
    let have_ := cr.getD c 0
    if (g.agent, g.key, g.qid) ∉ blocked ∧ g.op.flits ≤ have_ ∧ g.op.flits ≤ room then
      let (a, b, cr') := pumpList r (cr.set c (have_ - g.op.flits)) (room - g.op.flits) blocked
      (g :: a, b, cr')
    else
      let (a, b, cr') := pumpList r cr room ((g.agent, g.key, g.qid) :: blocked)
      (a, g :: b, cr')

/-- Give the flits of the messages their sequence numbers (R293). -/
def numberFlits : Seq → List Msg → List TxFlit × Seq
  | s, [] => ([], s)
  | s, g :: r =>
    let fs : List TxFlit := if g.op = .mwm then [{ seq := s, msg := g, part := 0 }, { seq := s + 1, msg := g, part := 1 }]
      else [{ seq := s, msg := g, part := 0 }]
    let (t, s') := numberFlits (s + BitVec.ofNat 9 fs.length) r
    (fs ++ t, s')

/-- The write-order table and BARs once requests have ended at the egress: mark covered requests whose ending message
has left (R192). -/
def markOut (wo : List WoEnt) (sent : List Msg) : List WoEnt :=
  wo.map fun w => if sent.any fun g => g.ends && g.agent = w.agent && g.tid = w.tid then { w with out := true } else w

/-- Count the sent flits (R439). -/
def Mach.countTx (m : Mach) (p : Nat) (g : Msg) : Mach :=
  let off := match g.op.cls with | 1 => Reg.pTxsnp | 2 => Reg.pTxrsp | 3 => Reg.pTxdat | _ => Reg.pTxmem
  (List.range g.op.flits).foldl (fun m _ => (m.bumpP64 p Reg.pTxflitLo).bumpP p off) m

/-- A BAR completes once every covered entry has retired and its request's ending message has left (R192). BARs of one
requester complete in order. -/
def barsReady (wo : List WoEnt) : List Bar → List (BitVec 5 × BitVec 9) → List Bar × List Bar
  | [], _ => ([], [])
  | b :: r, held =>
    let covered := wo.filter fun w => w.agent = b.agent && w.rqid = b.rqid && decide (w.seq < b.seq)
    if (b.agent, b.rqid) ∉ held ∧ covered.all fun w => w.done && w.out then
      let (x, y) := barsReady wo r held
      (b :: x, y)
    else
      let (x, y) := barsReady wo r ((b.agent, b.rqid) :: held)
      (x, b :: y)

/-- Drop the write-order entries that have retired, whose ending message has left, and that no pending BAR covers. -/
def woTrim (wo : List WoEnt) : List WoEnt := wo.filter fun w => !(w.done && w.out)

/-- Take the credits a flit returns: those of the first class that waits, at most 31 (Table 11-5). -/
def Port.takeCr (v : Port) : Port × BitVec 4 × BitVec 5 :=
  let c := ((List.range 9).find? fun c => 0 < v.crq.getD c 0).getD 0
  let n := min 31 (v.crq.getD c 0)
  ({ v with crq := v.crq.set c (v.crq.getD c 0 - n), owed := v.owed.set c (v.owed.getD c 0 + n) }, BitVec.ofNat 4 c, BitVec.ofNat 5 n)

/-- A flit leaves with the current acknowledgement (R289, R293). -/
def Port.push (v : Port) (b : Body) (c : BitVec 4) (n : BitVec 5) : Port :=
  { v with
    sent := ({ body := b, ack := { ackV := true, ackSeq := v.rxSeq - 1, nak := false, crCls := c, crCnt := n } } :: v.sent).take 512
    unack := 0 }

/-- A link-level flit leaves. -/
def Port.link (v : Port) (b : Body) : Port := let (v, c, n) := v.takeCr; v.push b c n

/-- A new message flit leaves, and enters the replay buffer. -/
def Port.flit (v : Port) (f : TxFlit) : Port :=
  let (v, c, n) := v.takeCr
  let f := { f with crCls := c, crCnt := n }
  { v with rpl := v.rpl ++ [f] }.push (.msg f) c n

/-- The flits of the replay buffer leave again, in order (R294, R296). -/
def Port.resend (v : Port) : Port := v.rpl.foldl (fun v f => v.push (.msg f) f.crCls f.crCnt) v

/-- Credits that no message has carried leave in IDLE flits (R288). -/
def Port.sendCr : Nat → Port → Port
  | 0, v => v
  | n + 1, v => if v.crq.all (· = 0) then v else Port.sendCr n (v.link .idle)

/-- Send from a port's egress what credits and the replay buffer allow (R270, R293, R300). -/
def Mach.pumpOnce (m : Mach) (p : Nat) : Mach :=
  let v := m.port p
  if v.st = .up || v.st = .replay then
    let (now, rest, cr) := pumpList v.egr v.peer (256 - v.rpl.length) []
    if now = [] then m
    else
      let (fs, s) := numberFlits v.txSeq now
      let v := fs.foldl (fun v f => v.flit f) { v with egr := rest, peer := cr, txSeq := s, wo := markOut v.wo now, l1 := false }
      now.foldl (fun m g => m.countTx p g) (m.setPort p v)
  else m

/-- Complete the BARs that are ready: CMP, or CMX TGTDOWN where a covered entry retired lost (R192), and drop the
entries that nothing needs. -/
def Mach.bars (m : Mach) (p : Nat) : Mach :=
  let v := m.port p
  let (rdy, rest) := barsReady v.wo v.bars []
  let done : List Msg := rdy.map fun b =>
    ({ op := if b.lost then .cmx else .cmp, agent := b.agent, tid := b.tid,
       stat := if b.lost then Cmx.tgtdown.code else 0 } : Msg)
  let outs := v.outs.filter fun o => !(rdy.any fun b => b.agent = o.agent && b.tid = o.tid)
  let m := m.setPort p { v with bars := rest, wo := woTrim v.wo, outs := outs, egr := v.egr ++ done }
  rdy.foldl (fun m b => let m := m.bumpP p Reg.pBarcnt
                        if b.lost then m.bumpP p Reg.pBarlost else m) m

/-- Send what can be sent, then complete BARs that waited for it, and send those. -/
def Mach.pump (m : Mach) (p : Nat) : Mach := ((m.pumpOnce p).bars p).pumpOnce p

/-- A message reaches a port's egress. A fenced or DOWN port, and a fenced agent's egress on an I/O port, discard it
(R132, R323). -/
def Mach.emit (m : Mach) (p : Nat) (g : Msg) : Mach :=
  if m.portDown p || (g.op.cls < 4 && m.agFenced g.agent.toNat) then
    -- the request has ended all the same
    m.modP p fun v => { v with wo := markOut v.wo [g] }
  else (m.modP p fun v => { v with egr := v.egr ++ [g] }).pump p

/-- A completion or DAT to a requester ends its request at the port (R48, R271). -/
def Mach.reply (m : Mach) (p : Nat) (g : Msg) : Mach :=
  let m := if g.ends then m.modP p fun v =>
      { v with outs := (v.outs.filter fun o => !(o.agent = g.agent && o.tid = g.tid && !o.dtw)).map fun o =>
          if o.agent = g.agent && o.tid = g.tid then { o with ended := true } else o }
    else m
  m.emit p g

/-- Return a credit of class `c` to the far side, or withhold it while quiesced (REQ and MBS) or in the safe state or
a drain (R270, R299, Table 12-13, R378). -/
def Mach.credit (m : Mach) (p c : Nat) : Mach :=
  let stop := (c = 1 || c = 8) && (m.bit (portA p Reg.pLctl) 0 || m.safe.isSome || m.drain.isSome)
  m.modP p fun v =>
    if stop then { v with withh := v.withh.set c (v.withh.getD c 0 + 1) }
    else { v with crq := v.crq.set c (v.crq.getD c 0 + 1) }

end Sys2Proof.Machine
end

