-- ==== Sys2Proof/Machine/Flit.lean ====
section
/-! DEFINITION. The flit on the wire: the header, payload, acknowledgement field and CRC of a flit that Tribex sends, and the
command a received flit spells (R47 to R50, R210, R286 to R292; Tables 03-1 to 03-3, 08-1, 11-2 to 11-6). -/

namespace Sys2Proof.Machine

-- ===== flits sent =====

/-- The header of a message flit (Table 11-3). -/
def Msg.header (g : Msg) (seq : Seq) : W64 :=
  let lo : W32 := g.htag ++ BitVec.ofBool g.psn ++ seq ++ g.op.code ++ BitVec.ofNat 3 g.op.cls
  let hi : W32 := if g.op.cls = 4 then g.key.setWidth 32
    else (0 : BitVec 13) ++ BitVec.ofBool g.cmp ++ (0 : BitVec 1) ++ g.tid ++ g.agent
  hi ++ lo

/-- The payload of a message flit, bytes 8 to 71 (Tables 03-2, 08-2 and 11-6); `part` tells the two flits of an MWM apart. -/
def Msg.payload (g : Msg) (hbase part : Nat) : Line :=
  match g.op with
  | .sns | .sni | .fws | .fwo | .fwc | .biv =>
    BitVec.ofNat 512 (hbase + (offOf g.key).toNat + 2 ^ 64 * (g.tgt.toNat + (if g.toHome then 32 else 0) + g.ttid.toNat * 2 ^ 16))
  | .cmx => g.stat.setWidth 512
  | .mwm => if part = 0 then g.mask.setWidth 512 else g.data
  | .cmp | .cme | .mrd | .mwp => 0
  | .cma | .cmq | .dts | .dte | .dtm | .dtc | .mwr | .mbr => g.data

/-- Does a message carry a line's address in its header and byte 75 (R287, R289)? -/
def Msg.addressed (g : Msg) : Bool := g.op.cls = 4

/-- The acknowledgement and credit field (Table 11-5). -/
def ackWord (a : AckField) (xaddr : BitVec 8) : W32 :=
  xaddr ++ (0 : BitVec 4) ++ a.crCnt ++ a.crCls ++ BitVec.ofBool a.nak ++ BitVec.ofBool a.ackV ++ a.ackSeq

/-- Bytes 0 to 75 of a sent flit. -/
def Sent.bytes (s : Sent) (hbase : Nat) : BitVec 608 :=
  match s.body with
  | .idle => ackWord s.ack 0 ++ (0 : Line) ++ (5 : W64)
  | .ctrl c v => ackWord s.ack 0 ++ ((0 : BitVec 384) ++ v ++ (0 : BitVec 56) ++ c) ++ (6 : W64)
  | .msg f =>
    ackWord s.ack (if f.msg.addressed then f.msg.key.extractLsb' 32 8 else 0) ++ f.msg.payload hbase f.part ++ f.msg.header f.seq

/-- The 80 bytes of a sent flit: bytes 76 to 79 hold the CRC-32C of the others (R286, R290). -/
def Sent.bits (s : Sent) (hbase : Nat) : BitVec 640 := crc32c 76 (s.bytes hbase).toNat ++ s.bytes hbase

/-- The flits a port has sent, most recent first, as the far side sees them. -/
def Mach.wire (m : Mach) (p : Nat) : List (BitVec 640) := (m.port p).sent.map fun s => s.bits m.hbase

-- ===== flits received: fields =====

/-- Bits `[lo + w - 1 : lo]` of a flit. -/
def flitFld (f : BitVec 640) (lo w : Nat) : Nat := (f.extractLsb' lo w).toNat
/-- The CRC-32C over bytes 0 to 75 equals bytes 76 to 79 (R290). -/
def flitGood (f : BitVec 640) : Bool := crc32c 76 (flitFld f 0 608) = f.extractLsb' 608 32
/-- The class of a flit. -/
def flitCls (f : BitVec 640) : Nat := flitFld f 0 3
/-- The opcode of a message flit. -/
def flitOpc (f : BitVec 640) : BitVec 5 := f.extractLsb' 3 5
/-- The sequence number of a message flit. -/
def flitSeq (f : BitVec 640) : Seq := f.extractLsb' 8 9
/-- The agent, tid and htag of a message flit. -/
def flitAgent (f : BitVec 640) : BitVec 5 := f.extractLsb' 32 5
def flitTid (f : BitVec 640) : Tid := f.extractLsb' 37 12
def flitHtag (f : BitVec 640) : BitVec 14 := f.extractLsb' 18 14
/-- The payload, bytes 8 to 71. -/
def flitData (f : BitVec 640) : Line := f.extractLsb' 64 512
/-- The offset a MEM flit names (R287). -/
def flitOff (f : BitVec 640) : Off := f.extractLsb' 600 8 ++ f.extractLsb' 32 32 ++ (0 : BitVec 6)
/-- The acknowledgement and credit field. -/
def flitAck (f : BitVec 640) : AckField :=
  { ackSeq := f.extractLsb' 576 9, ackV := f.getLsbD 585, nak := f.getLsbD 586, crCls := f.extractLsb' 587 4, crCnt := f.extractLsb' 591 5 }
/-- The command byte and the value of a CTRL flit (Table 11-4). -/
def flitCode (f : BitVec 640) : BitVec 8 := f.extractLsb' 64 8
def flitVal (f : BitVec 640) : W64 := f.extractLsb' 128 64

-- ===== flits received: messages =====

/-- The request a REQ flit carries, before its opcode is looked at (Tables 03-1 and 03-2). -/
def flitReq (p : PortId) (f : BitVec 640) : Req :=
  { port := p, agent := flitAgent f, tid := flitTid f, rqid := f.extractLsb' 119 9, w := if f.getLsbD 49 then .s else .ns
    pa := f.extractLsb' 64 52, sz := f.extractLsb' 116 3 }

/-- The queue operation a QOP flit carries (Table 08-1); none for an op that is not listed (R210). -/
def flitQop (r : Req) (f : BitVec 640) : Option Instr :=
  let q : BitVec 20 := f.extractLsb' 128 20
  let n : BitVec 4 := f.extractLsb' 156 4
  match flitFld f 152 4 with
  | 1 => some (.qenq r q n (f.extractLsb' 192 64)) | 2 => some (.qenq8 r q n) | 3 => some (.qdeq r q n)
  | 4 => some (.qpeek r q n) | 5 => some (.qmark r q n) | 6 => some (.qrewind r q n) | 7 => some (.qrelease r q n)
  | _ => none

/-- The request command a REQ flit spells (Table 03-3); none where its opcode is not listed. -/
def flitInstr (p : PortId) (f : BitVec 640) : Option Instr :=
  let r := flitReq p f
  match (flitOpc f).toNat with
  | 1 => some (.rds r) | 2 => some (.rdo r) | 3 => some (.rdc r) | 4 => some (.upg r)
  | 5 => some (.wrl r) | 6 => some (.wrp r (f.extractLsb' 128 64)) | 7 => some (.wbd r) | 8 => some (.evh r)
  | 9 => some (.atm r (f.extractLsb' 128 8) (f.extractLsb' 192 128) (f.extractLsb' 320 128))
  | 10 => flitQop r f
  | 11 => some (.rsl r) | 12 => some (.scd r) | 13 => some (.bar r) | 14 => some (.mcl r)
  | _ => none

/-- The answer an RSP flit carries. -/
def flitRsp (p : PortId) (f : BitVec 640) : Rsp :=
  { port := p, agent := flitAgent f, htag := flitHtag f, kst := f.extractLsb' 64 2 }

/-- The DTW a DAT flit carries. One that answers a snoop carries its htag and no tid, one that follows a write carries its tid and no
htag; with both zero it belongs to the write that awaits it, if there is one, and else to a snoop (notes/assumptions/90.md). -/
def Mach.flitDtw (m : Mach) (p : PortId) (f : BitVec 640) : Dtw :=
  let a := flitAgent f
  let waits := (m.port p.val).outs.any fun o => o.agent = a && o.tid = 0 && o.dtw
  { port := p, agent := a, ans := flitHtag f ≠ 0 || (flitTid f = 0 && !waits), tid := flitTid f, htag := flitHtag f, psn := f.getLsbD 17
    data := flitData f }

end Sys2Proof.Machine
end

