-- ==== Sys2Proof/Machine/Arrays.lean ====
section
/-! DEFINITION. Reading and writing the arrays of a slice with their check bits: set-state words, snoop-filter
entries, Crema tags, nru words and data, far monitors (R83 to R90, R107, R242 to R247, R430). -/

namespace Sys2Proof.Machine

/-- An armed injection into array `tgt` is used up by this write: the check bit to invert (R430). -/
def Mach.inject (m : Mach) (h tgt : Nat) : Mach × Option Nat :=
  let v := m.reg (hsA h Reg.hsEinj)
  if v.getLsbD 31 && (v.extractLsb' 0 4).toNat = tgt then
    ((m.setReg (hsA h Reg.hsEinj) (v &&& 0x7FFFFFFF#32)).err h 9, some (v.extractLsb' 8 4).toNat)
  else (m, none)

/-- Flip bit `i` of a number where asked. -/
def flipBit (n : Nat) (i : Option Nat) : Nat := match i with | some k => n ^^^ 2 ^ k | none => n

-- ===== the region cache =====

/-- Does a cached entry cover an offset (R38)? -/
def RcEnt.hits (r : RcEnt) (off : Off) : Bool := inRange r.base.toNat r.log2 off.toNat && !r.bad

/-- The attributes of a leaf's low quadword. -/
def leafAttr (w : W64) : BitVec 16 := w.extractLsb' 8 16

/-- Look an offset up in the region cache of HSn's group (R38). -/
def Mach.rcFind (m : Mach) (h : Nat) (off : Off) : Option (BitVec 16) :=
  if m.bit Reg.rmpCtl 1 then ((m.group (grpOf h)).rc.find? fun r => r.hits off).map fun r => leafAttr r.leaf else none

-- ===== Crow's Nest arrays =====

/-- A set-state word (Table 04-2), as stored, without its parity. -/
def Mach.ss (m : Mach) (h set : Nat) : BitVec 48 := ((m.slice h).ss.get 0 set).setWidth 48

/-- Write a set-state word (R83, R85). -/
def Mach.putSs (m : Mach) (h set : Nat) (w : BitVec 48) : Mach :=
  let (m, f) := m.inject h 2
  m.modS h fun s =>
    { s with ss := s.ss.set 0 set (BitVec.ofNat 54 (flipBit (rewrite 6 (s.ss.get 0 set).toNat w.toNat) (f.map (48 + ·)))) }

/-- The index of way `w` of set `set` in the entry array (Table 17-4). -/
def sfIdx (w set : Nat) : Nat := w * 16384 + set

/-- An entry word; a way whose valid bit is clear reads as zero (R83). -/
def Mach.entry (m : Mach) (h set w : Nat) : W64 :=
  if ssValid (m.ss h set) w then ((m.slice h).sf.get 0 (sfIdx w set)).setWidth 64 else 0

/-- Write an entry: only the bytes that change, or all of them when it is newly installed (R85). -/
def Mach.putEntry (m : Mach) (h set w : Nat) (e : W64) (fresh : Bool := false) : Mach :=
  let (m, f) := m.inject h 1
  m.modS h fun s =>
    let old := (s.sf.get 0 (sfIdx w set)).toNat
    let v := if fresh then withPar 8 e.toNat else rewrite 8 old e.toNat
    { s with sf := s.sf.set 0 (sfIdx w set) (BitVec.ofNat 72 (flipBit v (f.map (64 + ·)))) }

/-- Copy one set from the failing slice during COPYSF (R331). -/
def Slice.copySet (s : Slice) (c : Copy) (set : Nat) : Slice :=
  let ways := (List.range 16).filter fun w => !c.off.getLsbD (w / 4)
  let s := { s with ss := s.ss.set 0 set (c.ss.get 0 set) }
  let s := ways.foldl (fun s w => { s with sf := s.sf.set 0 (sfIdx w set) (c.sf.get 0 (sfIdx w set)) }) s
  { s with copy := some { c with done := c.done ++ [set] } }

/-- A lookup of a set not yet copied copies it first (R331). -/
def Mach.ensureSet (m : Mach) (h set : Nat) : Mach :=
  match (m.slice h).copy with
  | some c => if set < c.next || c.done.contains set then m else m.modS h fun s => s.copySet c set
  | none => m

/-- Is the bank of a way searched: ON or EVACUATING (R86)? -/
def Slice.searched (s : Slice) (w : Nat) : Bool :=
  match s.bank.getD (w / 4) .off with | .on => true | .evac => true | _ => false

/-- The way that holds a sector (R86). -/
def Mach.findWay (m : Mach) (h : Nat) (sec : BitVec 39) : Option Nat :=
  let set := (setOf sec).toNat
  firstBelow 16 fun w => (m.slice h).searched w && ssValid (m.ss h set) w && decide (enTag (m.entry h set w) = tagOf sec)

/-- The victim-buffer entry of a sector (R92). -/
def Slice.victim (s : Slice) (sec : BitVec 39) : Option Victim := s.vbuf.find? fun v => v.sec = sec

/-- Free a way: clear its valid bit. -/
def Mach.freeWay (m : Mach) (h set w : Nat) : Mach :=
  (m.putSs h set (ssBit (m.ss h set) w false)).modS h fun s => { s with sf := s.sf.del (sfIdx w set) }

/-- The line key of a tracker entry's sector matches (R88). -/
def TE.inSector (e : TE) (sec : BitVec 39) : Bool := keySec e.key = sec

/-- Kinds whose key is a line. -/
def TKind.isLine : TKind → Bool
  | .qop _ | .qcmd _ | .qho | .qnlost => false
  | _ => true

/-- Tracker entries that are not FREE, by number. -/
def Slice.busy (s : Slice) : List (Nat × TE) := s.te.filter fun e => e.2.st ≠ .free

/-- Is a transaction on a sector active or waiting (R90, R111)? -/
def Slice.sectorBusy (s : Slice) (sec : BitVec 39) : Bool :=
  s.busy.any fun e => e.2.kind.isLine && e.2.inSector sec

/-- Set simp of a set, keeping what R325 needs. -/
def Mach.setSimp (m : Mach) (h set : Nat) : Mach := m.putSs h set (ssBit (m.ss h set) 45 true)

/-- The suspect lines of a sector (R149, R325). -/
def Slice.suspects (s : Slice) (sec : BitVec 39) : BitVec 2 :=
  if s.susp.contains (setOf sec).toNat then 3 else ((s.susq.find? fun x => x.1 = sec).map (·.2)).getD 0

/-- Mark lines of a sector suspect, until its rebuild ends (R149, R325). -/
def Slice.suspectSec (s : Slice) (sec : BitVec 39) (b : BitVec 2) : Slice :=
  let mark := fun (x : BitVec 39 × BitVec 2) => if x.1 = sec then (sec, x.2 ||| b) else x
  { s with
    susq := if s.susq.any fun x => x.1 = sec then s.susq.map mark else s.susq ++ [(sec, b)]
    rbq := s.rbq.map mark
    te := s.te.map fun e => if e.2.kind = .rebuild && e.2.inSector sec then (e.1, { e.2 with suspect := e.2.suspect ||| b }) else e }

/-- Queue a sector for a rebuild unless the queue is full or holds it (R102, R103). -/
def Mach.queueRebuild (m : Mach) (h : Nat) (sec : BitVec 39) : Mach :=
  m.modS h fun s =>
    if s.rbq.any (fun x => x.1 = sec) || (s.busy.any fun e => e.2.kind = .rebuild && e.2.inSector sec) then s
    else if s.rbq.length < 32 then { s with rbq := s.rbq ++ [(sec, s.suspects sec)] } else s

/-- Queue a set for a recount, in ascending order (R442). -/
def insertSorted (n : Nat) : List Nat → List Nat
  | [] => [n]
  | a :: r => if n = a then a :: r else if n < a then n :: a :: r else a :: insertSorted n r

/-- Capture one error of Table 04-5 (R107). -/
def Mach.sfError (m : Mach) (h : Nat) (akind : BitVec 4) (addr : Nat) : Mach :=
  ((m.bump h Reg.hscSfpar).err h 0).capture
    { src := h, code := 0x10, counted := true, akind, addr := BitVec.ofNat 52 addr }

/-- The valid bits of ways are being cleared by an error: the transactions active on their sectors make no more updates of their
entries (R443). -/
def Mach.lostWay (m : Mach) (h set : Nat) (ws : List Nat) : Mach :=
  let secs := (ws.filter fun w => ssValid (m.ss h set) w).map fun w => sectorOf (BitVec.ofNat 14 set) (enTag (m.entry h set w))
  m.modS h fun s => { s with te := s.te.map fun e =>
    if e.2.kind.isLine && e.2.st = .active && secs.contains (keySec e.2.key) then (e.1, { e.2 with noUpd := true }) else e }

/-- Handle the parity errors of a set's state word (Table 04-5). -/
def Mach.repairSs (m : Mach) (h set : Nat) : Mach :=
  let raw := ((m.slice h).ss.get 0 set).toNat
  (badBytes 6 raw).foldl (fun m b =>
    let s := m.ss h set
    -- no bucket is read or recounted while the directory's port is down (R101, R442)
    let down := m.spillDown
    let s' : BitVec 48 :=
      if b < 2 then ssBit ((List.range 8).foldl (fun a i => ssBit a (8 * b + i) false) s) 45 true
      else if b < 4 then (List.range 8).foldl (fun a i => ssBit a (8 * b + i) false) s
      else ssBit (ssSetSpc s (if down then 0 else 4096)) 45 true
    let m := if b < 2 then m.lostWay h set ((List.range 8).map (8 * b + ·)) else m
    let m := m.modS h fun sl => { sl with
      ss := sl.ss.set 0 set (BitVec.ofNat 54 (withPar 6 s'.toNat))
      rcq := if 4 ≤ b && !down then insertSorted set sl.rcq else sl.rcq }
    m.sfError h 3 set) m

/-- Handle the parity errors of a set's valid entries (Table 04-5, R85). -/
def Mach.repairEntries (m : Mach) (h set : Nat) : Mach :=
  (List.range 16).foldl (fun m w =>
    if !(ssValid (m.ss h set) w && (m.slice h).searched w) then m
    else
      let raw := ((m.slice h).sf.get 0 (sfIdx w set)).toNat
      match badBytes 8 raw with
      | [] => m
      | bs =>
        if bs.all (· < 4) then
          let e := m.entry h set w
          let e' := mkEntry (enTag e) 0xFFFFFF 0 0 0 0 true
          let sec := sectorOf (BitVec.ofNat 14 set) (enTag e)
          let m := m.putEntry h set w e' true
          (m.queueRebuild h sec).sfError h 1 (m.paOf (secOff sec)).toNat
        else
          let m := m.lostWay h set [w]
          ((m.freeWay h set w).setSimp h set).sfError h 3 set) m

/-- Check a set before its words are used, and handle every error found (R85, R107). -/
def Mach.checkSet (m : Mach) (h set : Nat) : Mach := (m.repairSs h set).repairEntries h set

/-- Is the partition in force (R114)? -/
def Mach.parted (m : Mach) : Bool := m.bit Reg.secPart 0 && m.integ.sfpart

/-- Is bank `b` permitted to a world (R114)? -/
def Mach.bankFor (m : Mach) (b : Nat) (sec : Bool) : Bool := !m.parted || (if sec then b = 3 else decide (b < 3))

/-- The spill slots permitted to a world (R114). -/
def Mach.slotFor (m : Mach) (s : Nat) (sec : Bool) : Bool := !m.parted || (if sec then decide (6 ≤ s) else decide (s < 6))

/-- Ways chosen by turns on misses, which hold no entry yet (R89). -/
def Slice.chosen (s : Slice) (set : Nat) : List Nat :=
  s.busy.filterMap fun e => if !e.2.hit ∧ e.2.kind.isLine ∧ (setOf (keySec e.2.key)).toNat = set then e.2.way else none

/-- Way-bank 3 is not allocated until it has been zeroised (R380). -/
def Slice.zeroised (s : Slice) (b : Nat) : Bool := b ≠ 3 || !(s.zeroise.any fun z => z.bank3 && decide (z.pos < 65536))

/-- Is a way allocatable to a sector (R90)? -/
def Mach.allocatable (m : Mach) (h set w : Nat) (sec : Bool) : Bool :=
  let s := m.slice h
  decide (s.bank.getD (w / 4) .off = .on) && m.bankFor (w / 4) sec && !(s.chosen set).contains w && s.zeroised (w / 4) &&
  (!ssValid (m.ss h set) w ||
    let v := sectorOf (BitVec.ofNat 14 set) (enTag (m.entry h set w))
    !s.sectorBusy v && !(s.mvt.any fun x => x.1 = v))

/-- The way choice of R90, without its effects. -/
def Mach.wayChoice (m : Mach) (h set : Nat) (sec : Bool) : Option Nat :=
  let st := m.ss h set
  let ok := fun w => m.allocatable h set w sec
  let v := fun w => ssValid st w
  let spf := fun w => enSpf (m.entry h set w)
  (firstBelow 16 fun w => ok w && !v w) <|>
  (firstBelow 16 fun w => ok w && v w && !ssNru st w && spf w) <|>
  (firstBelow 16 fun w => ok w && v w && !ssNru st w) <|>
  (firstBelow 16 fun w => ok w && v w && spf w) <|>
  (firstBelow 16 fun w => ok w && v w)

/-- Set the nru bit of the way chosen, clearing the others once every allocatable way has it (R90). -/
def Mach.touchWay (m : Mach) (h set w : Nat) (sec : Bool) : Mach :=
  let st := ssBit (m.ss h set) (16 + w) true
  let all := (List.range 16).all fun v => !m.allocatable h set v sec || ssNru st v
  m.putSs h set (if all then (List.range 16).foldl (fun a v => if v = w then a else ssBit a (16 + v) false) st else st)

/-- The world of a sector, where the partition makes it matter: that of its region, if it is cached (R114). -/
def Mach.sectorWorld (m : Mach) (h : Nat) (sec : BitVec 39) : Option Bool :=
  if m.parted then (m.rcFind h (secOff sec)).map atSec else some false

/-- Take a way for a sector: its valid entry, if any, moves to the victim buffer (R92). None when it must wait:
no allocatable way (true) or no room in the victim buffer (false). -/
def Mach.takeWay (m : Mach) (h : Nat) (sec : BitVec 39) (w : Bool) : Except Bool (Mach × Nat) :=
  let set := (setOf sec).toNat
  match m.wayChoice h set w with
  | none => .error true
  | some k =>
    if ssValid (m.ss h set) k then
      if (m.slice h).vbuf.length < 16 then
        let e := m.entry h set k
        let vs := sectorOf (BitVec.ofNat 14 set) (enTag e)
        let v : Victim := { sec := vs, word := e, w := m.sectorWorld h vs }
        let m := (m.modS h fun s => { s with vbuf := s.vbuf ++ [v] }).freeWay h set k
        .ok (m.touchWay h set k w, k)
      else .error false
    else .ok (m.touchWay h set k w, k)

/-- Install an entry in a way (R98, R105). -/
def Mach.install (m : Mach) (h set w : Nat) (e : W64) : Mach :=
  let m := m.putEntry h set w e true
  m.putSs h set (ssBit (m.ss h set) w true)

/-- The valid entries of a bank (Table 04-7). -/
def Slice.bankCount (s : Slice) (b : Nat) : Nat :=
  (s.ss.map fun e => ((List.range 4).filter fun i => ssValid (e.2.setWidth 48) (4 * b + i)).length).sum

/-- A bank goes OFF: its valid bits are cleared (R108). -/
def Slice.bankOff (s : Slice) (b : Nat) : Slice :=
  { s with
    bank := s.bank.setIfInBounds b .off
    sf := s.sf.keep fun k => !decide (4 * b ≤ k / 16384 ∧ k / 16384 < 4 * b + 4)
    ss := (s.ss.map fun e =>
      (e.1, BitVec.ofNat 54 (rewrite 6 e.2.toNat
        ((List.range 4).foldl (fun a i => ssBit a (4 * b + i) false) (e.2.setWidth 48 : BitVec 48)).toNat))).filter fun e => e.2 ≠ 0 }

-- ===== Crema arrays =====

/-- The index of way `w` of Crema set `set` (Table 17-4). -/
def crIdx (w set : Nat) : Nat := w * 1024 + set
/-- A Crema tag word. -/
def Mach.ctag (m : Mach) (h set w : Nat) : BitVec 48 := ((m.slice h).ctag.get 0 (crIdx w set)).setWidth 48
/-- Write a Crema tag word (R242). -/
def Mach.putTag (m : Mach) (h set w : Nat) (t : BitVec 48) : Mach :=
  let (m, f) := m.inject h 3
  m.modS h fun s =>
    let k := crIdx w set
    { s with ctag := s.ctag.set 0 k (BitVec.ofNat 54 (flipBit (rewrite 6 (s.ctag.get 0 k).toNat t.toNat) (f.map (48 + ·)))) }
/-- Clear a way of Crema: tag and data. -/
def Mach.dropTag (m : Mach) (h set w : Nat) : Mach :=
  m.modS h fun s => { s with ctag := s.ctag.del (crIdx w set), cdat := s.cdat.del (crIdx w set) }
/-- Write a Crema line with a CRC (R241); an injection flips a bit of the stored CRC's byte (R430). -/
def Mach.putLine (m : Mach) (h set w : Nat) (d : Line) : Mach :=
  let (m, f) := m.inject h 4
  let v := BitVec.ofNat 544 (flipBit ((lineCrc d).toNat * 2 ^ 512 + d.toNat) (f.map (512 + ·)))
  m.modS h fun s => { s with cdat := s.cdat.set 0 (crIdx w set) v }

/-- Is residency slot `set` occupied, so that ways 14 and 15 are windows (R220, R243)? -/
def Slice.window (s : Slice) (set : Nat) : Bool := (s.slot.get none set).isSome

/-- Crema ways withdrawn by a memory self-test or marked bad (R384, R386). -/
def Mach.crBad (m : Mach) (h w : Nat) : Bool :=
  m.bit (Reg.tstCrbad + 4 * (h / 8)) (4 * (h % 8) + w / 4) ||
  (match m.mbist with | some b => b.crm && b.hs = h && b.bank = w / 4 | none => false)

/-- Are the S lock ways zeroised, where way `w` is one of them (R380)? -/
def Slice.wayClean (s : Slice) (w : Nat) : Bool :=
  !(s.zeroise.any fun z => decide (14 - z.ways ≤ w ∧ w < 14 ∧ z.pos < z.ways * 1024))

/-- The Crema array of the slice is ON (R366). -/
def Mach.crmOn (m : Mach) (h : Nat) : Bool := m.dom (sliceDom h 5) = .on

/-- May a way be searched by a lookup (R243, R244, R250, R257)? -/
def Mach.crmSearch (m : Mach) (h set w : Nat) : Bool :=
  let t := m.ctag h set w
  m.crmOn h && tgV t && !tgRf t && (m.bit Reg.crmCtl 0 || tgLk t) && !(decide (w < 8) && m.bit (hsA h Reg.hsCrmctl) w) &&
  !(decide (14 ≤ w) && (m.slice h).window set) && !m.crBad h w

/-- Handle the parity errors of a set's tags and nru word (R246). A tag word with an error loses its line and lock. -/
def Mach.checkTags (m : Mach) (h set : Nat) : Mach :=
  let m := (List.range 16).foldl (fun m w =>
    let raw := ((m.slice h).ctag.get 0 (crIdx w set)).toNat
    if raw = 0 then m
    else if badBytes 6 raw = [] then m
    else
      let lk := tgLk (m.ctag h set w)
      let m := ((m.dropTag h set w).bump h Reg.hscCrmtag).err h 2
      let m := if lk then (m.setBits Reg.crmStat 8).bump h Reg.hscLklost else m
      m.capture { src := h, code := 0x13, counted := true, akind := 3, addr := BitVec.ofNat 52 set }) m
  if badBytes 2 ((m.slice h).cnru.get 0 set).toNat = [] then m
  else
    let m := ((m.modS h fun s => { s with cnru := s.cnru.del set }).bump h Reg.hscCrmtag).err h 2
    m.capture { src := h, code := 0x13, counted := true, akind := 3, addr := BitVec.ofNat 52 set }

/-- The way that holds a line valid, whatever rf and en say (R249). -/
def Mach.crmWay (m : Mach) (h : Nat) (k : LineKey) : Option Nat :=
  let set := crmSet k
  firstBelow 16 fun w => tgV (m.ctag h set w) && decide (tgKey (m.ctag h set w) = k) && !(decide (14 ≤ w) && (m.slice h).window set)

/-- Is a Crema way allocatable (R247)? -/
def Mach.crmAlloc (m : Mach) (h set w : Nat) : Bool :=
  let t := m.ctag h set w
  m.crmOn h && (m.slice h).wayClean w && !(tgV t && (tgLk t || tgRf t)) && !(decide (w < 8) && m.bit (hsA h Reg.hsCrmctl) w) &&
  !(decide (14 ≤ w) && (m.slice h).window set) && !m.crBad h w

/-- Set or clear a way's nru bit; when every allocatable way has it the others are cleared (R247). -/
def Mach.crmTouch (m : Mach) (h set w : Nat) (b : Bool) : Mach :=
  m.modS h fun s =>
    let n := (s.cnru.get 0 set).toNat % 65536
    let n' := if n.testBit w = b then n else n ^^^ 2 ^ w
    let all := (List.range 16).all fun v => !m.crmAlloc h set v || n'.testBit v
    { s with cnru := s.cnru.set 0 set (BitVec.ofNat 18 (withPar 2 (if all then 2 ^ w else n'))) }

/-- Install a line in the victim way of its set (R247); nothing where no way is allocatable. -/
def Mach.crmInstall (m : Mach) (h : Nat) (k : LineKey) (d : Line) (sec pf : Bool) : Mach :=
  let set := crmSet k
  let m := m.checkTags h set
  let nru := fun w => ((m.slice h).cnru.get 0 set).getLsbD w
  let ok := fun w => m.crmAlloc h set w
  let v := fun w => tgV (m.ctag h set w)
  let pick := match m.crmWay h k with
    | some w => some w
    | none =>
      (firstBelow 16 fun w => ok w && !v w) <|> (firstBelow 16 fun w => ok w && !nru w && tgPf (m.ctag h set w)) <|>
      (firstBelow 16 fun w => ok w && !nru w) <|> (firstBelow 16 fun w => ok w)
  match pick with
  | none => m
  | some w =>
    let m := (m.putTag h set w (mkTag k true false sec pf false)).putLine h set w d
    m.crmTouch h set w (!pf)

/-- R240: may the class of a line ever enter Crema? -/
def Mach.crmClass (m : Mach) (off : Off) (a : BitVec 16) : Bool :=
  let pa := (m.paOf off).toNat
  atWb a && !atIo a && !atQob a &&
  !(m.bit Reg.glbSpsize 31 && inRange (m.pair Reg.glbSpbaseLo Reg.glbSpbaseHi).toNat (m.fld Reg.glbSpsize 0 6) pa) &&
  !(inRange (m.pair Reg.qobDescBaseLo Reg.qobDescBaseHi).toNat 26 pa)

-- ===== far monitors =====

/-- The word of a valid monitor on a line (R173). -/
def mkMon (k : LineKey) (shadow : Bool) : BitVec 48 := (0 : BitVec 6) ++ k ++ BitVec.ofBool shadow ++ (1 : BitVec 1)
/-- The index of a requester's monitor. -/
def monIdx (a : BitVec 5) (r : BitVec 9) : Nat := a.toNat * 512 + r.toNat
/-- Write a requester's monitor (R174). -/
def Mach.putMon (m : Mach) (h i : Nat) (w : BitVec 48) : Mach :=
  let (m, f) := m.inject h 6
  m.modS h fun s => { s with mon := s.mon.set 0 i (BitVec.ofNat 54 (flipBit (withPar 6 w.toNat) (f.map (48 + ·)))) }
/-- Clear one monitor. -/
def Mach.clrMon (m : Mach) (h i : Nat) : Mach := m.modS h fun s => { s with mon := s.mon.del i }
/-- Clear every monitor on a line, but the one of `except_` (R176). -/
def Mach.clrMons (m : Mach) (h : Nat) (k : LineKey) (except_ : Option Nat := none) : Mach :=
  m.modS h fun s => { s with mon := s.mon.filter fun e => !(e.2.extractLsb' 2 40 = k) || some e.1 = except_ }

end Sys2Proof.Machine
end

