-- ==== Sys2Proof/Machine/Memory.lean ====
section
/-! DEFINITION. Memory reads and writes of a slice: return buffers, data buffers, write-combining buffers, retire
notes (R65, R70, R188, R190, R197, R248, R249, R258, R272, R275). -/

namespace Sys2Proof.Machine

-- ===== return buffers =====

/-- The return buffers a use may take: first number and count (Table 10-2). Copy removals, scrubs and owner sweeps, whose bucket
reads the table names nowhere, take shared buffers (notes/assumptions/83.md). -/
def Slice.rbPart (s : Slice) : RUse → Nat × Nat
  | .bkt a => match s.bkts.find? (fun b => b.addr = a) with
    | some b => match b.use with | .evictRd _ => (120, 4) | .recount _ => (120, 4) | _ => (0, 120)
    | none => (0, 120)
  | .qdesc _ | .qtail _ _ | .qhead _ _ | .ddesc _ => (124, 4)
  | _ => (0, 120)

/-- A free return buffer for a use. -/
def Slice.freeRb (s : Slice) (u : RUse) : Option Nat :=
  let (lo, n) := s.rbPart u
  (firstBelow n fun i => (s.rbuf.get none (lo + i)).isNone).map (lo + ·)

/-- Free shared return buffers (R255). -/
def Slice.rbFree (s : Slice) : Nat := 120 - (s.rbuf.keep (· < 120)).length

/-- The homed offset of a physical address in homed space. -/
def Mach.offPa (m : Mach) (pa : Nat) : Off := BitVec.ofNat 46 (pa - m.hbase)

/-- The tracker entry that makes a read, if one does (R118). -/
def RUse.te : RUse → Option Nat
  | .data t | .qdesc t | .ddesc t | .qtail _ t => some t
  | _ => none

/-- The tracker entry that makes a write, by its use; the demand write of a turn names it itself. -/
def WUse.te : WUse → Option Nat
  | .mbs t | .zero t | .deferred t | .qdesc t => some t
  | _ => none

/-- `htag[8:0]` of a MEM message: the number of the tracker entry that sends it (R118). A message that none sends carries a number
that stands for its buffer, from 376 for reads and from 296 for writes (notes/assumptions/84.md). -/
def rdTag (te : Option Nat) (b : Nat) : Nat := te.getD (376 + b)
def wrTag (te : Option Nat) (b : Nat) : Nat := te.getD (296 + b)

/-- Issue an MRD into return buffer `b` (R275). -/
def Mach.issueRead (m : Mach) (h b : Nat) (u : RUse) (port : Nat) (off : Off) : Mach :=
  let tag := rdTag u.te b
  -- a far atomic installs its own line (R164): its read only rewrites a way whose CRC did not match
  let fill := match u with
    | .data t => match (m.te h t).attr with
      | some a => if atWb a then some (if (m.te h t).kind = .atm && (m.te h t).far then 0 else a) else none
      | none => none
    | _ => none
  let m := m.modS h fun s => { s with
    seq := s.seq + 1, rbuf := s.rbuf.set none b (some { use := u, port, off, htag := tag, ord := s.seq, fill }) }
  let m := match u with
    | .data t => m.modTe h t fun e => { e with rd := .flight b }
    | _ => m
  (m.bump h Reg.hscMrd).emit port { op := .mrd, htag := m.htag h tag, key := keyOf off }

/-- Does a list of things waiting for a buffer hold a write of this line? A read of it then stays behind that write (R200,
R224). -/
def writeWaits (l : List Todo) (off : Off) : Bool :=
  l.any fun x => match x with | .write _ _ o _ _ _ _ _ => decide (keyOf o = keyOf off) | _ => false

/-- Count a read that begins to wait for a shared return buffer (R284). -/
def Mach.rbWait (m : Mach) (h : Nat) (u : RUse) : Mach :=
  if ((m.slice h).rbPart u).1 = 0 && ((m.slice h).freeRb u).isNone then m.bump h Reg.hscRbwait else m

/-- Ask for a memory read: issue it, or wait for a return buffer (R275, R284). -/
def Mach.askRead (m : Mach) (h : Nat) (u : RUse) (port : Nat) (off : Off) : Mach :=
  match if writeWaits (m.slice h).todo off then none else (m.slice h).freeRb u with
  | some b => m.issueRead h b u port off
  | none =>
    let m := m.rbWait h u
    let m := match u with | .data t => m.modTe h t fun e => { e with rd := .want } | _ => m
    m.modS h fun s => { s with todo := s.todo ++ [.read u port off] }

-- ===== data buffers =====

/-- A data buffer. -/
def Slice.db (s : Slice) (b : Nat) : DBuf := s.dbuf.get {} b
/-- Write a data buffer. -/
def Slice.setDb (s : Slice) (b : Nat) (d : DBuf) : Slice := { s with dbuf := s.dbuf.set {} b d }
/-- The lowest free data buffer of a part. -/
def Slice.freeDb (s : Slice) (lo n : Nat) : Option Nat :=
  if s.zeroise.any fun z => decide (z.pos < 192) then none else (firstBelow n fun i => s.db (lo + i) = {}).map (lo + ·)
/-- Data buffers of a part in use. -/
def Slice.dbUsed (s : Slice) (lo n : Nat) : Nat := (s.dbuf.keep fun k => decide (lo ≤ k ∧ k < lo + n)).length

/-- The data buffers that a write without one of its own may take, first number and count: Crow's Nest's eight, those of the queue
engine and Tamper, or the snoop part for lines that are lost (Table 10-2). -/
def WUse.part : WUse → Nat × Nat
  | .bkt _ => (176, 8)
  | .demand | .mbs _ | .deferred _ => (128, 48)
  | _ => (184, 8)

/-- A write discarded at a fenced port: counted, and captured for a memory port (Table 11-9). -/
def Mach.lostWrite (m : Mach) (port : Nat) (off : Off) : Mach :=
  let m := m.bumpP port Reg.pLostwr
  if port < 24 then m.capture { src := 34 + port, code := 0x08, cls := .d, akind := 1, addr := m.paOf off } else m

/-- Send a retire note to a port (R190). -/
def Mach.sendNote (m : Mach) (n : Nat × Nat) (lost : Bool) : Mach :=
  m.modP n.1 fun v => { v with notes := v.notes ++ [{ seq := n.2, lost }] }

/-- What issuing any write does besides: the counter, reads in flight that may no longer fill (R248), and
CRM_STAT.stale (R258). `attr` is none for a write outside requester lines. -/
def Mach.noteWrite (m : Mach) (h : Nat) (off : Off) (attr : Option (BitVec 16)) : Mach :=
  let m := m.bump h Reg.hscMwr
  let m := m.modS h fun s => { s with seq := s.seq + 1, rbuf := s.rbuf.map fun e =>
    (e.1, e.2.map fun b => if keyOf b.off = keyOf off then { b with fillOk := false } else b) }
  let locked := match m.crmWay h (keyOf off) with
    | some w => tgLk (m.ctag h (crmSet (keyOf off)) w)
    | none => false
  match attr with
  | some a => if !m.bit Reg.crmCtl 0 && !locked && m.crmClass off a && !m.bit Reg.crmStat 0 then (m.setBits Reg.crmStat 1).trigger 9
    else m
  | none => m

/-- Issue a write from data buffer `b` (R70, R275). -/
def Mach.issueWrite (m : Mach) (h b : Nat) (op : Opc) (port : Nat) (off : Off) (data : Line) (mask : Mask) (use : WUse)
    (attr : Option (BitVec 16) := none) (early : Bool := false) (notes : List (Nat × Nat) := []) (te : Option Nat := none) : Mach :=
  let m := m.noteWrite h off attr
  let tag := wrTag (te <|> use.te) b
  let w : Wr := { op, port, off, mask, use, htag := tag, seq := (m.slice h).seq, early, notes }
  let m := m.modS h fun s => s.setDb b { (s.db b) with te := none, have_ := true, data, mask, wr := some w }
  -- MWP carries no data (Table 11-6)
  m.emit port { op, htag := m.htag h tag, key := keyOf off, mask, data := if op = .mwp then 0 else data, psn := op = .mwp }

/-- Ask for a write from a data buffer of its part, or wait for one (Table 10-2, R282 step 5). -/
def Mach.askWrite (m : Mach) (h : Nat) (op : Opc) (port : Nat) (off : Off) (use : WUse) (data : Line)
    (mask : Mask := BitVec.allOnes 64) (attr : Option (BitVec 16) := none) (te : Option Nat := none) : Mach :=
  match (m.slice h).freeDb use.part.1 use.part.2 with
  | some b => m.issueWrite h b op port off data mask use attr (te := te)
  | none => m.modS h fun s => { s with todo := s.todo ++ [.write op port off use data mask attr te] }

/-- Issue what waited for a buffer, oldest first. -/
def Mach.kick (m : Mach) (h : Nat) : Mach :=
  (m.slice h).todo.foldl (fun m t =>
    match t with
    | .read u port off =>
      match if writeWaits ((m.slice h).todo.takeWhile (· ≠ t)) off then none else (m.slice h).freeRb u with
      | some b => (m.modS h fun s => { s with todo := s.todo.erase t }).issueRead h b u port off
      | none => m
    | .write op port off use data mask attr te => match (m.slice h).freeDb use.part.1 use.part.2 with
      | some b =>
        let m := (m.modS h fun s => { s with todo := s.todo.erase t }).issueWrite h b op port off data mask use attr (te := te)
        -- a read that this write held back waits for a buffer from now on
        match (m.slice h).todo.find? fun x => match x with | .read _ _ o => decide (keyOf o = keyOf off) | _ => false with
        | some (.read u _ o) => if writeWaits (m.slice h).todo o then m else m.rbWait h u
        | _ => m
      | none => m) m

/-- Free a return buffer. -/
def Mach.freeRbuf (m : Mach) (h b : Nat) : Mach := (m.modS h fun s => { s with rbuf := s.rbuf.set none b none }).kick h
/-- Free a data buffer. -/
def Mach.freeDbuf (m : Mach) (h b : Nat) : Mach := (m.modS h fun s => s.setDb b {}).kick h
/-- Free a data buffer unless a write is in flight from it. -/
def Mach.dropDbuf (m : Mach) (h : Nat) (b : Option Nat) : Mach :=
  match b with
  | some b => if ((m.slice h).db b).wr.isSome then m else m.freeDbuf h b
  | none => m

/-- The youngest write in flight for a line, from a data buffer or a write-combining buffer, with its data (R70). -/
def Slice.inflight (s : Slice) (off : Off) : Option (Wr × Line) :=
  let a := s.dbuf.filterMap fun e => match e.2.wr with
    | some w => if keyOf w.off = keyOf off then some (w, e.2.data) else none
    | none => none
  let c := s.wc.filterMap fun e => match e.2 with
    | some b => match b.wr with
      | some w => if keyOf w.off = keyOf off then some (w, b.data) else none
      | none => none
    | none => none
  (a ++ c).foldl (fun best x => match best with
    | some y => if y.1.seq < x.1.seq then some x else some y
    | none => some x) none

/-- Start the read of a tracker entry's line: the write buffer answers it where its MWR is in flight, a fenced target
leaves it without data, and an MRD reads it otherwise (R65, R70, R74). -/
def Mach.startData (m : Mach) (h t : Nat) (off : Off) (port : Nat) (coherent : Bool) : Mach :=
  let fwd := match (m.slice h).inflight off with
    | some (w, d) => if coherent && w.op = .mwr then some d else none
    | none => none
  match fwd with
  | some d => m.modTe h t fun e => { e with rd := .have false d }
  | none => if m.portDown port then m.modTe h t fun e => { e with rd := .down } else m.askRead h (.data t) port off

-- ===== Crema at a write =====

/-- A write at the home acts on the line's Crema copy: an unlocked copy is removed while Crema is enabled, a locked
copy takes rf = 1 (R249). -/
def Mach.cremaWrite (m : Mach) (h : Nat) (k : LineKey) : Mach :=
  let set := crmSet k
  let m := m.checkTags h set
  match m.crmWay h k with
  | some w =>
    let t := m.ctag h set w
    if tgLk t then m.putTag h set w (t ||| 8#48) else if m.bit Reg.crmCtl 0 then m.dropTag h set w else m
  | none => m

/-- Look a line up in Crema for a demand access (R244, R245): a hit clears pf and sets nru; a CRC mismatch is a miss, and the way
is named for the read that rewrites it. -/
def Mach.cremaRead (m : Mach) (h : Nat) (k : LineKey) : Mach × CrmHit :=
  let set := crmSet k
  let m := m.bump64 h Reg.hscCrmlookLo
  let m := m.checkTags h set
  match firstBelow 16 fun w => m.crmSearch h set w && decide (tgKey (m.ctag h set w) = k) with
  | none => (m, {})
  | some w =>
    let raw := ((m.slice h).cdat.get 0 (crIdx w set)).toNat
    let d : Line := BitVec.ofNat 512 raw
    if (lineCrc d).toNat = raw / 2 ^ 512 then
      let t := m.ctag h set w
      let m := if tgPf t then (m.putTag h set w (t &&& ~~~ (16#48))).bump h Reg.hscPfhit else m
      ((m.crmTouch h set w true).bump64 h Reg.hscCrmhitLo, { line := some d, use := !tgLk t })
    else
      let m := ((m.bump h Reg.hscCrmcrc).err h 1).capture
        { src := h, code := 0x12, counted := true, akind := 1, addr := m.paOf (offOf k) }
      (m, { bad := some w })

/-- The read that a CRC mismatch calls for is made, so the way waits for its MRT, marked rf (R245). Where the target port is down no
read can be made: an unlocked copy is dropped. -/
def Mach.cremaBad (m : Mach) (h : Nat) (k : LineKey) (w : Nat) (down : Bool) : Mach :=
  let set := crmSet k
  let t := m.ctag h set w
  if !(tgV t && tgKey t = k) then m
  else if down && !tgLk t then m.dropTag h set w else m.putTag h set w (t ||| 8#48)

/-- The MRT of a demand read installs or refills its line (R245, R247, R248, R249). -/
def Mach.cremaFill (m : Mach) (h : Nat) (off : Off) (a : BitVec 16) (ok : Bool) (d : Line) (pf : Bool) : Mach :=
  let k := keyOf off
  let set := crmSet k
  if !m.crmOn h then m
  else match m.crmWay h k with
    | some w =>
      let t := m.ctag h set w
      if !tgRf t then m
      else if ok then (m.putTag h set w (t &&& ~~~ (8#48))).putLine h set w d
      else if tgLk t then m else m.dropTag h set w
    | none =>
      if ok && m.bit Reg.crmCtl 0 && atAlloc a && m.crmClass off a then
        m.crmInstall h k d (atSec a) pf
      else m

-- ===== write-combining buffers =====

/-- A write-combining buffer. -/
def Slice.wcb (s : Slice) (b : Nat) : Option WcBuf := s.wc.get none b
/-- The lowest free one; none until they have been zeroised (R380). -/
def Slice.freeWc (s : Slice) : Option Nat :=
  if s.zeroise.any fun z => decide (z.pos < 16) then none else firstBelow 16 fun i => (s.wcb i).isNone
/-- Write it. -/
def Slice.setWc (s : Slice) (b : Nat) (v : Option WcBuf) : Slice := { s with wc := s.wc.set none b v }
/-- The open buffer of a line (R197). -/
def Slice.wcOpen (s : Slice) (k : LineKey) : Option Nat :=
  firstBelow 16 fun b => match s.wcb b with | some v => v.key = k && v.wr.isNone | none => false

/-- Close an open buffer: issue its write, or discard it at a fenced target (R197). -/
def Mach.wcClose (m : Mach) (h b : Nat) (timeout : Bool := false) : Mach :=
  match (m.slice h).wcb b with
  | some v =>
    if v.wr.isSome then m
    else
      let m := m.bump h Reg.hscWccls
      let m := if timeout then m.bump h Reg.hscWctmo else m
      let off := offOf v.key
      let port := atPort v.attr
      if m.portDown port then
        let m := (m.modS h fun s => s.setWc b none).lostWrite port off
        v.notes.foldl (fun m n => m.sendNote n true) m
      else
        let full := v.mask = BitVec.allOnes 64
        -- an unreadable buffer is written as poison (R327)
        let op : Opc := if v.bad then .mwp else if full then .mwr else .mwm
        let m := if v.bad then ((m.err h 8).count Reg.rvpPoiscnt).capture { src := h, code := 0x1B, cls := .d, akind := 1, addr := m.paOf off }
          else m
        let m := m.noteWrite h off (some v.attr)
        let tag := wrTag none (192 + b)
        let w : Wr := { op, port, off, mask := v.mask, use := .demand, htag := tag, seq := (m.slice h).seq, early := true, notes := v.notes }
        let m := m.modS h fun s => s.setWc b (some { v with wr := some w })
        m.emit port { op, htag := m.htag h tag, key := v.key, mask := v.mask, data := if v.bad then 0 else v.data, psn := v.bad }
  | none => m

/-- Close the open write-combining buffer of a line, if there is one (R198). -/
def Mach.wcFlush (m : Mach) (h : Nat) (k : LineKey) : Mach :=
  match (m.slice h).wcOpen k with | some b => m.wcClose h b | none => m

/-- Close every open buffer of a slice that satisfies `p`. -/
def Mach.wcCloseAll (m : Mach) (h : Nat) (p : WcBuf → Bool := fun _ => true) : Mach :=
  (List.range 16).foldl (fun m b => match (m.slice h).wcb b with
    | some v => if v.wr.isNone && p v then m.wcClose h b else m
    | none => m) m

end Sys2Proof.Machine
end

