-- ==== Sys2Proof/Machine/Halyard.lean ====
section
/-! DEFINITION. Halyard: keys, turns, wait lists, tracker entries and their pools, and the end of a transaction
(R118 to R130, R274). -/

namespace Sys2Proof.Machine

/-- The key a tracker entry is serialised by: a line, or a QID marked by the top bit (R121). -/
def TE.hkey (e : TE) : BitVec 41 := BitVec.ofBool (!e.kind.isLine) ++ e.key

/-- Is an entry keyed by both lines of its sector: a rebuild, or an MBS that names both (R121, R153; notes/assumptions/65.md)? -/
def TE.both (e : TE) : Bool := e.kind = .rebuild || e.two

/-- The keys an entry holds or wants (R121). -/
def TE.keys (e : TE) : List (BitVec 41) :=
  if e.both then
    [(0 : BitVec 1) ++ lineKey (keySec e.key) false, (0 : BitVec 1) ++ lineKey (keySec e.key) true]
  else [e.hkey]

/-- Does an entry hold key `k` now (R121, R128)? A waiting entry of two keys holds the lines it has reached. -/
def TE.holds (e : TE) (k : BitVec 41) : Bool :=
  if e.both then
    match e.st with
    | .active => e.keys.contains k
    | .wait => (e.got.getLsbD 0 && some k = e.keys[0]?) || (e.got.getLsbD 1 && some k = e.keys[1]?)
    | _ => false
  else (e.st = .active || e.st = .evh) && e.hkey = k

/-- Is a key held (R121)? -/
def Slice.held (s : Slice) (k : BitVec 41) : Bool :=
  (s.busy.any fun e => e.2.holds k) ||
  (if k.getLsbD 40 then s.slot.any fun e => e.2.any fun v => v.vict.isSome && v.qid = k.setWidth 20
   else s.vbuf.any fun v => v.sec = k.extractLsb' 1 39)

/-- Is a key waited on? -/
def Slice.waited (s : Slice) (k : BitVec 41) : Bool :=
  (s.wl.any fun l => l.key = k) || (s.ovf.any fun t => (s.ent t).keys.contains k && !(s.ent t).holds k)

/-- Put entry `t` into a list after the entries accepted before it. A request joins its list once its region is known, and keeps
the place its acceptance gives it (R122, R126). -/
def Slice.insert (s : Slice) (t : Nat) (q : List Nat) : List Nat :=
  let before := fun (u : Nat) => decide ((s.ent u).ord ≤ (s.ent t).ord)
  q.takeWhile before ++ t :: q.dropWhile before

/-- Has entry `t` joined the overflow list for key `k`: it is on that list, and on no wait list of the key (R124)? -/
def Slice.onOvf (s : Slice) (t : Nat) (k : BitVec 41) : Bool :=
  s.ovf.contains t && (s.ent t).keys.contains k && !(s.wl.any fun l => l.key = k && l.q.contains t)

/-- Put entry `t` at the tail of key `k`'s list (R124): the slice, and whether it joined the overflow list. -/
def Slice.join (s : Slice) (t : Nat) (k : BitVec 41) : Slice × Bool :=
  if s.wl.any fun l => l.key = k then
    ({ s with wl := s.wl.map fun l => if l.key = k then { l with q := s.insert t l.q } else l }, false)
  else if (s.ovf.any fun u => u ≠ t && s.onOvf u k && !(s.ent u).holds k) || decide (64 ≤ s.wl.length) then
    ({ s with ovf := if s.ovf.contains t then s.ovf else s.insert t s.ovf }, !s.ovf.contains t)
  else ({ s with wl := s.wl ++ [{ key := k, q := [t] }] }, false)

/-- Is an entry accepted before `t` still waiting for its region with key `k`? -/
def Slice.earlier (s : Slice) (t : Nat) (k : BitVec 41) : Bool :=
  s.busy.any fun e => e.1 ≠ t && e.2.st = .wait && e.2.ph = .region && decide (e.2.ord < (s.ent t).ord) && e.2.keys.contains k

/-- Take entry `t` off key `k`'s list; an empty list returns to the pool (R124). -/
def Slice.leave (s : Slice) (t : Nat) (k : BitVec 41) : Slice :=
  { s with wl := (s.wl.map fun l => if l.key = k then { l with q := l.q.erase t } else l).filter fun l => l.q ≠ [] }

/-- Take entry `t` off every list. -/
def Slice.leaveAll (s : Slice) (t : Nat) : Slice :=
  let s := { s with ovf := s.ovf.erase t }
  (s.ent t).keys.foldl (fun s k => s.leave t k) s

/-- Is entry `t` next on key `k`: the head of its list, or the earliest overflow entry with that key (R125)? -/
def Slice.isNext (s : Slice) (t : Nat) (k : BitVec 41) : Bool :=
  !s.earlier t k && match s.wl.find? fun l => l.key = k with
  | some l => l.q.head? = some t
  | none => (s.ovf.find? fun u => (s.ent u).keys.contains k && !(s.ent u).holds k) = some t

/-- Entries ACTIVE or waiting on a key: one that waits for its region is on no list. -/
def Slice.onKey (s : Slice) (k : BitVec 41) : Nat :=
  (s.busy.filter fun e => (e.2.st = .active || (e.2.st = .wait && e.2.ph ≠ .region)) && e.2.keys.contains k).length

/-- Give entry `t` its key, or put it on the wait list (R122), with the counters of Table 05-5. -/
def Mach.enter (m : Mach) (h t : Nat) (e : TE) : Mach :=
  let m := m.setTe h t { e with st := .wait, got := 0 }
  let s := m.slice h
  let taken := e.keys.filter fun k => s.held k || s.waited k || s.earlier t k
  let m :=
    if taken = [] then m.setTe h t { e with st := .active }
    else
      let got : BitVec 2 := if e.both then
          (if taken.contains e.keys[0]! then 0 else 1) ||| (if taken.contains e.keys[1]! then 0 else 2)
        else 0
      let m := (m.setTe h t { e with st := .wait, got }).bump64 h Reg.hscHywaitLo
      taken.foldl (fun m k =>
        let (s, o) := (m.slice h).join t k
        let m := m.setSlice h s
        if o then m.bump h Reg.hscHyovf else m) m
  let n := (e.keys.map (m.slice h).onKey).foldl max 0
  if m.bit (hscA h Reg.hscCtl) 0 || decide (n ≤ m.fld (hscA h Reg.hscHymax) 0 10) then m
  else m.setReg (hscA h Reg.hscHymax) (BitVec.ofNat 32 n)

-- ===== pools (R272 to R274) =====

def Mach.dedReq (m : Mach) : Nat := m.fld Reg.glbCrslc 0 5
def Mach.dedWr (m : Mach) : Nat := m.fld Reg.glbCrslc 8 4
def Mach.dedMbs (m : Mach) : Nat := m.fld Reg.glbCrslc 16 3
/-- Populated die and I/O ports, and I/O ports with CXL (R273). -/
def Mach.ports1 (m : Mach) : Nat := ((List.range 28).filter fun p => (p < 16 || 24 ≤ p) && m.populated p).length
def Mach.ports2 (m : Mach) : Nat := ((List.range 28).filter fun p => m.populated p && m.isCxl p).length
/-- The size of the shared tracker part and of the shared request-data part (R273). -/
def Mach.sharedTe (m : Mach) : Nat := 504 - m.ports1 * m.dedReq - m.ports2 * m.dedMbs
def Mach.sharedDb (m : Mach) : Nat := 128 - m.ports1 * m.dedWr

/-- Entries taken from a pool, by a port where it is given. -/
def Slice.inPool (s : Slice) (pool : Pool) (port : Option Nat) : Nat :=
  (s.busy.filter fun e => e.2.pool = pool && (match port with | some p => e.2.port = p | none => true)).length
/-- Shared entries neither lent nor in use (Table 10-7). -/
def Mach.sharedFree (m : Mach) (h : Nat) : Nat := m.sharedTe - (m.slice h).inPool .shared none
/-- Request data buffers taken from the shared part, or a port's dedicated part. -/
def Slice.dbShared (s : Slice) : Nat := (s.dbuf.filter fun e => decide (e.1 < 128) && e.2.ded.isNone).length
def Slice.dbDed (s : Slice) (p : Nat) : Nat := (s.dbuf.filter fun e => decide (e.1 < 128) && e.2.ded = some p).length

/-- The entry a request of a port may take, none where it must wait (R274). -/
def Mach.grant (m : Mach) (h p : Nat) (wrk : Bool) : Option Pool :=
  let s := m.slice h
  if wrk then
    -- its data buffer is reserved with it (R275)
    if (s.freeDb 0 128).isNone then none
    else if s.inPool .wr (some p) < m.dedWr && s.dbDed p < m.dedWr then some .wr
    else if 0 < m.sharedFree h && s.dbShared < m.sharedDb then some .shared else none
  else if s.inPool .plain (some p) < m.dedReq - m.dedWr then some .plain
  else if 0 < m.sharedFree h then some .shared else none

/-- The entry an MBS of a port may take (R274). -/
def Mach.grantMbs (m : Mach) (h p : Nat) : Option Pool :=
  if (m.slice h).inPool .mbs (some p) < m.dedMbs then some .mbs
  else if 0 < m.sharedFree h then some .shared else none

/-- A free tracker entry among TE0 to TE503, or among Crow's Nest's eight (R118). -/
def Slice.freeTe (s : Slice) : Option Nat := firstBelow 504 fun t => (s.ent t).st = .free
def Slice.freeCrow (s : Slice) : Option Nat := (firstBelow 8 fun t => (s.ent (504 + t)).st = .free).map (504 + ·)

-- ===== moves (R111, R112) =====

/-- Move a way's entry to an invalid way of an ON bank permitted to its world, else to the victim buffer. None where
the victim buffer is full (R111). -/
def Mach.moveEntry (m : Mach) (h set w : Nat) (sec : Bool) : Option Mach :=
  let e := m.entry h set w
  let free := firstBelow 16 fun v => decide ((m.slice h).bank.getD (v / 4) .off = .on) && m.bankFor (v / 4) sec &&
    !ssValid (m.ss h set) v && !((m.slice h).chosen set).contains v && (m.slice h).zeroised (v / 4)
  match free with
  | some v => some (((m.install h set v e).freeWay h set w).bump h Reg.hscEvmov)
  | none =>
    if (m.slice h).vbuf.length < 16 then
      let v : Victim := { sec := sectorOf (BitVec.ofNat 14 set) (enTag e), word := e, w := some sec, evac := true }
      some (((m.modS h fun s => { s with vbuf := s.vbuf ++ [v] }).freeWay h set w).bump h Reg.hscEvspl)
    else none

/-- Is an entry in way `w` to be moved by the engine that runs: its bank is evacuated, or a sort finds it in a bank of the other
world (R111, R114)? -/
def Mach.moves (m : Mach) (h w : Nat) (sec : Bool) : Bool :=
  match (m.slice h).evac with
  | some e => match e.bank with
    | some b => w / 4 = b
    | none => sec != decide (12 ≤ w)
  | none => false

/-- Make the move owed to a sector once no transaction on it is active (R112). A sector whose entry has been freed, or stands where
it may stay, leaves the table with nothing to move (R142). -/
def Mach.owedMove (m : Mach) (h : Nat) (sec : BitVec 39) : Mach :=
  let s := m.slice h
  match s.mvt.find? fun x => x.1 = sec with
  | none => m
  | some x =>
    if s.busy.any fun e => e.2.st = .active && e.2.kind.isLine && e.2.inSector sec then
      -- a transaction that freed the entry leaves nothing to move
      if (m.findWay h sec).isNone then m.modS h fun s => { s with mvt := s.mvt.erase x } else m
    else
      let set := (setOf sec).toNat
      let m := m.checkSet h set
      match m.findWay h sec with
      | none => m.modS h fun s => { s with mvt := s.mvt.erase x }
      | some w =>
        if !m.moves h w x.2 then m.modS h fun s => { s with mvt := s.mvt.erase x }
        else match m.moveEntry h set w x.2 with
          | some m => m.modS h fun s => { s with mvt := s.mvt.erase x }
          | none => m

/-- Does a move owed to a sector still wait for room in the victim buffer? The next turn on the sector waits for it (R125). -/
def Slice.moveOwed (s : Slice) (sec : BitVec 39) : Bool := s.mvt.any fun x => x.1 = sec

-- ===== ends =====

/-- Discard what an entry's reads bring (R65, R276). -/
def Mach.dropReads (m : Mach) (h t : Nat) : Mach :=
  m.modS h fun s => { s with
    rbuf := s.rbuf.map fun e => (e.1, e.2.map fun b => if b.use = .data t || b.use = .qdesc t then { b with drop := true } else b)
    todo := s.todo.filter fun x => match x with
      | .read (.data u) _ _ => u ≠ t
      | .read (.qdesc u) _ _ => u ≠ t
      | _ => true }

/-- A waiter leaves the walks and the walk queue of its group (R38). -/
def Mach.dropWaiter (m : Mach) (w : Waiter) (h : Nat) : Mach :=
  m.modG (grpOf h) fun v => { v with
    walks := v.walks.map fun e => (e.1, e.2.map fun k => { k with wait := k.wait.filter fun x => x.1 ≠ w })
    queue := v.queue.filter fun x => x.1 ≠ w }

/-- A write-class request ends before its DTW has come: its data buffer stays reserved for it (R62), unless the requester is
fenced. -/
def Mach.endDbuf (m : Mach) (h : Nat) (e : TE) : Mach :=
  let due := match e.kind with | .wrl | .wrp | .wbd | .scd => true | .qop o => o = 2 | _ => false
  match e.dbuf with
  | some b =>
    let d := (m.slice h).db b
    if due && !d.have_ && d.wr.isNone && !e.orphan && !m.agFenced e.agent.toNat then
      m.modS h fun s => s.setDb b { d with te := none, owed := some (e.agent, e.tid) }
    else m.dropDbuf h e.dbuf
  | none => m

/-- The DTW of a request that has ended reaches its buffer, which goes free with it (R62). -/
def Mach.dropOwed (m : Mach) (h : Nat) (agent : BitVec 5) (tid : Tid) : Mach :=
  match (m.slice h).dbuf.find? fun x => x.2.owed = some (agent, tid) with
  | some x => m.freeDbuf h x.1
  | none => m

/-- A transaction ends: its entry goes FREE with the buffers that no write keeps, and a move owed to its sector is made
(R119, R112). The next waiter starts with TURN_START (R125). -/
def Mach.endTe (m : Mach) (h t : Nat) : Mach :=
  let e := m.te h t
  let m := (m.dropReads h t).dropWaiter (.te h t) h
  let m := (m.endDbuf h e).dropDbuf h e.sbuf
  let m := match e.kind with
    | .qop _ => m.modS h fun s => { s with slot := s.slot.map fun (x : Nat × Option QSlot) => (x.1, x.2.map fun (v : QSlot) => if v.vict = some t then { v with vict := none } else v) }
    | _ => m
  let m := m.modS h fun s => (s.leaveAll t).setEnt t {}
  if e.kind.isLine then m.owedMove h (keySec e.key) else m

/-- Send a message that ends a request, with its retire note, and end the entry (R119, R190). `lost` marks a write
discarded at a fence. -/
def Mach.finish (m : Mach) (h t : Nat) (g : Msg) (note : Bool := true) (lost : Bool := false) : Mach :=
  let e := m.te h t
  let g : Msg := if e.pz then { op := .cmx, stat := Cmx.poison.code } else g
  let m := match e.wo with
    | some n => if note then m.sendNote (e.port, n) lost else m
    | none => m
  (m.reply e.port { g with agent := e.agent, tid := e.tid, key := e.key }).endTe h t

/-- End a request with CMX (R74); an RSL that ends so leaves its requester no monitor (R174). -/
def Mach.cmx (m : Mach) (h t : Nat) (c : Cmx) : Mach :=
  let e := m.te h t
  (if e.kind = .rsl then m.clrMon h (monIdx e.agent e.rqid) else m).finish h t { op := .cmx, stat := c.code }

end Sys2Proof.Machine
end

