-- ==== Sys2Proof/Machine/Region.lean ====
section
/-! DEFINITION. The region caches, the walker of each slice group and region-cache invalidates (R30 to R42). -/

namespace Sys2Proof.Machine

/-- The REQ opcode of a kind (Table 03-3), 0 where it is no REQ. -/
def TKind.opc : TKind → BitVec 5
  | .rds => 1 | .rdo => 2 | .rdc => 3 | .upg => 4 | .wrl => 5 | .wrp => 6 | .wbd => 7 | .evh => 8 | .atm => 9
  | .qop _ => 10 | .rsl => 11 | .scd => 12 | .mbs => 7 | _ => 0

/-- Is a kind a message from an agent? -/
def TKind.isReq (k : TKind) : Bool := match k with
  | .mbs | .biv | .rebuild | .sweep | .qcmd _ | .qho | .qnlost | .lock | .unlock | .zero => false
  | _ => true

/-- The requester fields of a capture about a tracker entry's request (Table 12-5). -/
def TE.ev (e : TE) (htag : BitVec 14) (pa : PA) (src : Nat) (code : BitVec 8) : Ev :=
  { src, code, akind := 1, addr := pa, htag, auth := if e.kind.isReq then (if e.sec then 1 else 0) else 2,
    who := if e.kind.isReq then some (e.agent, e.rqid, e.tid) else none, opc := e.kind.opc,
    mcls := if e.kind = .mbs then 4 else 0 }

-- ===== region cache =====

/-- Install a leaf (R38): remove what overlaps it, replace a random entry only when none is free. -/
def Mach.rcInstall (m : Mach) (g : Nat) (off : Off) (log2 : Nat) (leaf : W64) : Mach :=
  if !m.bit Reg.rmpCtl 1 then m
  else
    let base : Off := BitVec.ofNat 46 (off.toNat / 2 ^ log2 * 2 ^ log2)
    let rc := (m.group g).rc.filter fun r => !overlap r.base.toNat r.log2 base.toNat log2
    let n : RcEnt := { base, log2, leaf }
    if rc.length < 256 then m.modG g fun v => { v with rc := rc ++ [n] }
    else
      let i := (Config.rcVictim m.free).toNat % 256
      { m with free := m.free + 1 }.modG g fun v => { v with rc := rc.set i n }

/-- Remove every entry whose region overlaps a range from all five caches, and mark the walks in flight, for RMP_INV or for
Tamper (R42, R43). -/
def Mach.rcInvalidate (m : Mach) (base log2 : Nat) (all tamper : Bool) : Mach :=
  (List.range 5).foldl (fun m g => m.modG g fun v =>
    { v with rc := v.rc.filter fun r => !(all || overlap r.base.toNat r.log2 base log2),
             walks := v.walks.map fun e => (e.1, e.2.map fun w => { w with marked := w.marked || !tamper, tmark := w.tmark || tamper }) }) m

/-- Is a walk that RMP_INV, or a Tamper invalidate, marked still in flight? -/
def Mach.markedWalk (m : Mach) (tamper : Bool := false) : Bool :=
  (List.range 5).any fun g => (m.group g).walks.any fun e => e.2.any fun w => if tamper then w.tmark else w.marked

-- ===== walks =====

/-- What a walk gives those that wait on it: attributes, or a fault (none). -/
abbrev WalkOut := List (Waiter × Option (BitVec 16))

/-- A walk faults (R36): the registers, and the capture with the request of its first waiter and the address it accessed. -/
def Mach.walkFault (m : Mach) (g : Nat) (cause level : Nat) (addr : Nat) (who : Option (Waiter × Off)) : Mach :=
  let m := m.setPair Reg.rmpFaddrLo Reg.rmpFaddrHi (BitVec.ofNat 64 addr)
  let m := m.setReg Reg.rmpFinfo (BitVec.ofNat 32 (2 ^ 31 + g * 256 + level * 16 + cause))
  let m := m.count Reg.rmpFcnt
  let e : Ev := match who with
    | some (.te h t, off) => (m.te h t).ev (m.htag h t) (m.paOf off) 63 0x31
    | some (_, off) => { src := 63, code := 0x31, akind := 1, addr := m.paOf off }
    | none => { src := 63, code := 0x31 }
  m.capture { e with sub := 6 + g }

/-- A leaf's checks (R31, R33, R35): the cause of Table 02-4, if it is malformed. -/
def Mach.leafBad (m : Mach) (level : Nat) (w : W64) : Option Nat :=
  let s := (w.extractLsb' 2 6).toNat
  let a := leafAttr w
  if !(if level = 1 then decide (30 ≤ s ∧ s ≤ m.hlog2) else decide (12 ≤ s ∧ s ≤ 29)) then some 4
  else if atCoh a = 3 || atAtom a = 3 || (!atIo a && !m.populated (16 + atNum a)) ||
    (atIo a && (decide (3 < atNum a) || !m.populated (24 + atNum a) || (atWb a && !m.isCxl (24 + atNum a)))) then some 6
  else none

/-- A walk of slot `i` ends: what its waiters get, and those that look up again (R38). -/
def Mach.walkEnd (m : Mach) (g i : Nat) (covers : Off → Option (Option (BitVec 16))) : Mach × WalkOut × List (Waiter × Off) :=
  match (m.group g).walks.get none i with
  | none => (m, [], [])
  | some w =>
    let m := m.modG g fun v => { v with walks := v.walks.set none i none }
    (m, w.wait.filterMap fun x => (covers x.2).map fun r => (x.1, r), w.wait.filter fun x => (covers x.2).isNone)

/-- Read a table entry for walk slot `i`, or fault at once (R35). A seed's port that is DOWN faults as a fenced one does
(notes/assumptions/85.md). -/
def Mach.walkRead (m : Mach) (g i h : Nat) (level addr : Nat) : Mach × WalkOut × List (Waiter × Off) :=
  let who := match (m.group g).walks.get none i with | some w => w.wait.head? | none => none
  let off := match (m.group g).walks.get none i with | some w => w.off | none => 0
  let bad := fun c => (m.walkFault g c level addr who).walkEnd g i fun o =>
    if level = 1 || o.extractLsb' 12 34 = off.extractLsb' 12 34 then some none else none
  match m.homed addr with
  | none => bad 1
  | some o => match m.seedPort addr with
    | none => bad 2
    | some p =>
      if m.portDown p then bad 8
      else
        let upd := fun (w : Walk) => { w with level, addr := BitVec.ofNat 52 addr, hs := h }
        let m := m.modG g fun v => { v with walks := v.walks.set none i ((v.walks.get none i).map upd) }
        -- a completed write that is still combining reaches memory ahead of the read
        let m := m.wcFlush (m.hsOf (lsOf o).toNat) (keyOf o)
        (m.askRead h (.walk g i) p o, [], [])

/-- A cached entry with a parity error is dropped at the access that finds it (Table 12-2). -/
def Mach.rcDrop (m : Mach) (g : Nat) (off : Off) : Mach :=
  let mine := fun (r : RcEnt) => r.bad && inRange r.base.toNat r.log2 off.toNat
  if (m.group g).rc.any mine then
    (m.modG g fun v => { v with rc := v.rc.filter fun r => !mine r }).capture { src := 63, sub := 6 + g, code := 0x32, counted := true }
  else m

/-- Start a walk for a miss, or wait on one in flight for the same level-1 slot, or for a walker slot (R35, R38). -/
def Mach.startWalk (m : Mach) (h : Nat) (w : Waiter) (off : Off) : Mach × WalkOut :=
  let g := grpOf h
  let m := m.rcDrop g off
  let v := m.group g
  if 2 ^ m.hlog2 ≤ off.toNat then (m.walkFault g 1 1 0 (some (w, off)), [(w, none)])
  else match v.walks.find? fun e => e.2.any fun k => k.off.extractLsb' 30 16 = off.extractLsb' 30 16 with
  | some (i, some k) => (m.modG g fun v => { v with walks := v.walks.set none i (some { k with wait := k.wait ++ [(w, off)] }) }, [])
  | _ =>
    match firstBelow 16 fun i => (v.walks.get none i).isNone with
    | some i =>
      if !m.bit Reg.rmpCtl 0 then (m.modG g fun v => { v with queue := v.queue ++ [(w, off, h)] }, [])
      else
        let n : Walk := { off, level := 1, addr := 0, marked := false, hs := h, wait := [(w, off)] }
        let m := m.modG g fun v => { v with walks := v.walks.set none i (some n) }
        let base := (m.pair Reg.rmpBaseLo Reg.rmpBaseHi).toNat
        let (m, out, _) := m.walkRead g i h 1 (base + (off.extractLsb' 30 16).toNat * 16)
        (m, out)
    | none => (m.modG g fun v => { v with queue := v.queue ++ [(w, off, h)] }, [])

/-- The slice a waiter belongs to. -/
def Waiter.hs : Waiter → Nat
  | .te h _ => h | .head h _ _ => h | .pout h _ _ => h | .bell h _ => h | .evac h => h | .vict h _ => h

/-- Does a waiter await a walk already? -/
def Mach.walking (m : Mach) (w : Waiter) : Bool :=
  let g := m.group (grpOf w.hs)
  (g.walks.any fun e => e.2.any fun k => k.wait.any fun x => x.1 = w) || (g.queue.any fun x => x.1 = w)

/-- Look up for a waiter: hit, or start a walk (R38). -/
def Mach.rcLook (m : Mach) (h : Nat) (w : Waiter) (off : Off) : Mach × WalkOut :=
  match m.rcFind h off with
  | some a => (m, [(w, some a)])
  | none => m.startWalk h w off

/-- After a walk: those it did not serve look up again, then the misses that waited for a slot. -/
def Mach.walkAfter (m : Mach) (g : Nat) (again : List (Waiter × Off)) : Mach × WalkOut :=
  let q := (m.group g).queue
  let m := m.modG g fun v => { v with queue := [] }
  (again.map (fun x => (x.1, x.2, x.1.hs)) ++ q).foldl (fun (p : Mach × WalkOut) x =>
    let (m, out) := p.1.rcLook x.2.2 x.1 x.2.1
    (m, p.2 ++ out)) (m, [])

/-- A table read returns (R35, R38): the next level, a fault, or the leaf installed and its waiters served. -/
def Mach.walkReturn (m : Mach) (g i : Nat) (bad : Bool) (d : Line) : Mach × WalkOut :=
  match (m.group g).walks.get none i with
  | none => (m, [])
  | some w =>
    let who := w.wait.head?
    let q := (w.addr.toNat / 16) % 4 * 2
    let lo := lineWord d q
    let hi := lineWord d (q + 1)
    let fault := fun c => (m.walkFault g c w.level w.addr.toNat who).walkEnd g i fun o =>
      if w.level = 1 || o.extractLsb' 12 34 = w.off.extractLsb' 12 34 then some none else none
    let (m, out, again) :=
      if bad then fault 7
      else if !lo.getLsbD 0 then fault 3
      else if !lo.getLsbD 1 then
        if w.level = 1 then
          m.walkRead g i w.hs 2 ((hi.extractLsb' 0 40).toNat * 4096 + (w.off.extractLsb' 12 18).toNat * 16)
        else fault 5
      else match m.leafBad w.level lo with
        | some c => fault c
        | none =>
          let s := (lo.extractLsb' 2 6).toNat
          let base := w.off.toNat / 2 ^ s * 2 ^ s
          let m := if w.marked || w.tmark then m else m.rcInstall g w.off s lo
          m.walkEnd g i fun o => if inRange base s o.toNat then some (some (leafAttr lo)) else none
    if ((m.group g).walks.get none i).isSome then (m, out)
    else
      let m := if m.invBusy && !m.markedWalk then { m with invBusy := false } else m
      let (m, more) := m.walkAfter g again
      (m, out ++ more)

/-- The fence of a seed's port ends every walk whose read is outstanding on it with PORTDOWN (R37). -/
def Mach.walkDown (m : Mach) (p : Nat) : Mach × WalkOut :=
  (List.range 5).foldl (fun (a : Mach × WalkOut) g =>
    (List.range 16).foldl (fun (a : Mach × WalkOut) i =>
      match (a.1.group g).walks.get none i with
      | some w =>
        if a.1.seedPort w.addr.toNat = some p then
          let m := a.1.walkFault g 8 w.level w.addr.toNat w.wait.head?
          let (m, out, again) := m.walkEnd g i fun o =>
            if w.level = 1 || o.extractLsb' 12 34 = w.off.extractLsb' 12 34 then some none else none
          let m := m.modS w.hs fun s => { s with
            rbuf := s.rbuf.filter fun e => !(e.2.any fun b => b.use = .walk g i)
            todo := s.todo.filter fun t => match t with | .read (.walk g' i') _ _ => !(g' = g && i' = i) | _ => true }
          let m := if m.invBusy && !m.markedWalk then { m with invBusy := false } else m
          let (m, more) := m.walkAfter g again
          (m, a.2 ++ out ++ more)
        else a
      | none => a) a) (m, [])

end Sys2Proof.Machine
end

