-- ==== Sys2Proof/Machine/Coherence.lean ====
section
/-! DEFINITION. The home's decisions for one line: lookup, way choice, snoops, answers, resolution and the update of
the snoop-filter entry (R62 to R78, R80, R84 to R105, R130 to R132). -/

namespace Sys2Proof.Machine

-- ===== entry updates =====

/-- The lowest bank that auto_off turned off, while the ON banks are too full and no bank is waking (R110). -/
def Mach.wakeNext (m : Mach) (h : Nat) : Option Nat :=
  let s := m.slice h
  let on := (List.range 4).filter fun b => s.bank.getD b .off = .on
  if s.auto = 0 || (List.range 4).any (fun b => s.bank.getD b .off = .waking) ||
      decide ((on.map s.bankCount).sum * 16 ≤ m.fld (hsA h Reg.hsSfctl) 8 4 * (on.length * 65536)) then none
  else firstBelow 4 fun b => s.auto.getLsbD b && s.bank.getD b .off = .off

/-- Wake that bank. The comparison is made after every command (`Mach.follow`). -/
def Mach.autoWake (m : Mach) (h : Nat) : Mach :=
  match m.wakeNext h with
  | some b => (m.modS h fun s => { s with bank := s.bank.setIfInBounds b .waking }).domTo (sliceDom h (1 + b)) .waking
  | none => m

/-- Clear the presence bits of the agents that kept nothing of a line, but those R68 keeps: an agent that may hold the
sector's other line, and the owner this line still names. -/
def trim (e : W64) (line1 : Bool) (gone : BitVec 24) : W64 :=
  let keep := (List.range 24).foldl (fun a n =>
    let ost := enSt e (!line1)
    let oth := ost = hsI || (ost = hsX && (enOwn e (!line1)).toNat ≠ n)
    let own := (enSt e line1 = hsX || enSt e line1 = hsOS) && (enOwn e line1).toNat = n
    if oth && !own then a else a ||| agBit n) (0 : BitVec 24)
  enSetPres e (enPres e &&& (~~~ gone ||| keep))

/-- The presence bits that an update clears whatever the sector's other line holds: those of fenced agents (R131, R132). -/
def Mach.cut (m : Mach) (e : W64) (gone : BitVec 24) : W64 := enSetPres e (enPres e &&& ~~~ (gone &&& m.fagent))

/-- R84: a line in S with no presence bit goes to I. -/
def normal (e : W64) : W64 :=
  let f := fun (e : W64) (l : Bool) => if enSt e l = hsS && enPres e = 0 then enSetLine e l hsI 0 else e
  f (f e false) true

/-- Write a changed precise entry; free it when both lines are I, or hold it for its copy removal (R84, R99). -/
def Mach.storeEntry (m : Mach) (h set w : Nat) (e : W64) : Mach :=
  if enImp e then m.putEntry h set w e
  else
    let e := normal e
    if enSt e false = hsI && enSt e true = hsI then
      if enSpf e then m.putEntry h set w (enSetPres e 0) else m.freeWay h set w
    else m.putEntry h set w e

/-- The line of a tracker entry's key within its sector. -/
def TE.ln (e : TE) : Bool := e.key.getLsbD 0

/-- Put the outcome of a transaction on one line into its sector's entry: state, owner, bits added, agents gone (R68,
R84, R88). Without an entry, a grant installs one (R89). -/
def Mach.putState (m : Mach) (h t : Nat) (line1 : Bool) (st : BitVec 2) (own : BitVec 5) (add gone : BitVec 24) : Mach :=
  let e := m.te h t
  let sec := keySec e.key
  let set := (setOf sec).toNat
  if e.noUpd then m
  else match m.findWay h sec with
    | some w =>
      let en := m.entry h set w
      if enImp en then m.putEntry h set w (enSetLine en line1 st own)
      else
        let en := m.cut (trim (enSetLine en line1 st own) line1 (gone &&& ~~~ add)) (gone &&& ~~~ add)
        m.storeEntry h set w (enSetPres en (enPres en ||| add))
    | none =>
      if st = hsI ∨ add = 0 then m
      else
        let en := enSetLine (mkEntry (tagOf sec) add 0 0 0 0 false) line1 st own
        match e.way with
        | some w =>
          if !ssValid (m.ss h set) w && (m.slice h).bank.getD (w / 4) .off = .on then m.install h set w en
          else match m.takeWay h sec (match e.attr with | some a => atSec a | none => false) with
            | .ok (m, w) => m.install h set w en
            | .error _ => m.setSimp h set
        | none => match m.takeWay h sec (match e.attr with | some a => atSec a | none => false) with
          | .ok (m, w) => m.install h set w en
          | .error _ => m.setSimp h set

/-- The recorded state, owner and presence of a line now; I where the sector has no entry (R81). -/
def Mach.lineState (m : Mach) (h : Nat) (k : LineKey) : BitVec 2 × BitVec 5 × BitVec 24 :=
  match m.findWay h (keySec k) with
  | some w =>
    let e := m.entry h (setOf (keySec k)).toNat w
    (enSt e (k.getLsbD 0), enOwn e (k.getLsbD 0), enPres e)
  | none => (hsI, 0, 0)

-- ===== writes of a transaction =====

/-- The target port and attributes of an entry's line. -/
def TE.port_ (e : TE) : Nat := match e.attr with | some a => atPort a | none => 16
def TE.at_ (e : TE) : BitVec 16 := match e.attr with | some a => a | none => 0

/-- The line that a return buffer holds is read: where it fails its CRC-32C the read is made again (R327). -/
def Mach.rbCrc (m : Mach) (h t : Nat) : Mach :=
  let e := m.te h t
  if !e.rbad then m
  else match e.rd with
    | .have _ _ => (m.modTe h t fun e => { e with rbad := false, rd := .none }).startData h t (offOf e.key) e.port_ (atWb e.at_)
    | _ => m.modTe h t fun e => { e with rbad := false }

/-- Issue a write of an entry's line from buffer `b`, which leaves the entry, or from a snoop data buffer (R70); at a fenced target
it is discarded. -/
def Mach.writeLine (m : Mach) (h t : Nat) (b : Option Nat) (op : Opc) (data : Line) (mask : Mask) (use : WUse)
    (early : Bool := false) (notes : List (Nat × Nat) := []) : Mach :=
  let e := m.te h t
  let off := offOf e.key
  let m := m.cremaWrite h e.key
  -- a line whose region walk faulted has no target (notes/assumptions/13.md)
  if e.attr.isNone then m.dropDbuf h b
  else if m.portDown e.port_ then (m.lostWrite e.port_ off).dropDbuf h b
  else match b with
    | some b =>
      let m := m.modTe h t fun e => { e with dbuf := if e.dbuf = some b then none else e.dbuf,
                                             sbuf := if e.sbuf = some b then none else e.sbuf }
      m.issueWrite h b op e.port_ off data mask use (some e.at_) early notes (some t)
    | none => m.askWrite h op e.port_ off use data mask (some e.at_) (some t)

/-- The line of a fenced owner is lost (R131): it is written as poison and counted; every monitor on it is cleared
(Table 06-3). -/
def Mach.loseLine (m : Mach) (h t : Nat) (use : WUse := .demand) : Mach :=
  let e := m.te h t
  let m := ((m.bump h Reg.hscLostown).err h 7).count Reg.rvpLostcnt
  let m := m.capture { (e.ev (m.htag h t) (m.paOf (offOf e.key)) h 0x1A) with cls := .d }
  let m := m.writeLine h t e.sbuf .mwp 0 (BitVec.allOnes 64) use
  m.clrMons h e.key

/-- The operand data a dirty snoop answer brought, with its poison mark. -/
def Mach.dirty (m : Mach) (h t : Nat) : Option (Bool × Line) :=
  let e := m.te h t
  if e.snp.dtw && (match e.snp.from_ with | some (_, _, d) => d | none => false) then
    e.sbuf.map fun b => (((m.slice h).db b).psn, ((m.slice h).db b).data)
  else none

/-- The requester's own write data, once its DTW has arrived. -/
def Mach.wdata (m : Mach) (h t : Nat) : Option (Bool × Line) :=
  match (m.te h t).dbuf with
  | some b => let d := (m.slice h).db b
              if d.have_ then some (d.psn, d.data) else none
  | none => none

/-- The buffers of an entry are checked as they are read: unreadable data is written as poison, and the request ends with CMX
POISON (R327). -/
def Mach.badBuf (m : Mach) (h t : Nat) : Mach :=
  let e := m.te h t
  [e.dbuf, e.sbuf].foldl (fun m b => match b with
    | none => m
    | some b =>
      if !((m.slice h).db b).bad then m
      else
        let m := (m.modS h fun s => s.setDb b { (s.db b) with bad := false, psn := true }).modTe h t fun e => { e with pz := true }
        ((m.err h 8).count Reg.rvpPoiscnt).capture
          { src := h, code := 0x1B, cls := .d, akind := 1, addr := m.paOf (offOf e.key), htag := m.htag h t }) m

/-- Is the requester of an entry fenced? -/
def Mach.orphan (m : Mach) (e : TE) : Bool := e.orphan || (e.kind.isReq && m.agFenced e.agent.toNat)

-- ===== snoops =====

/-- FLT_SNPTO in range: 10 to 10,000 µs (R129). -/
def Mach.snpTmr (m : Mach) : BitVec 16 := BitVec.ofNat 16 (min 10000 (max 10 (m.fld Reg.fltSnpto 0 14)))

/-- Send one snoop to each agent of a list. -/
def Mach.snoop (m : Mach) (h t : Nat) (op : Opc) (key : LineKey) (dst : List Nat) (tgt : BitVec 5) (toHome : Bool)
    (ttid : Tid) : Mach :=
  dst.foldl (fun m a => (m.bump h Reg.hscSnp).emit (agPort a)
    { op, agent := BitVec.ofNat 5 a, htag := m.htag h t, key, tgt, toHome, ttid }) m

/-- What a turn sends for a line (R63, R64, Table 03-17). -/
structure Plan where
  /-- The forward's opcode, whether it goes to the home, and the recorded owner; none of an owner for a broadcast. -/
  fwd    : Option (Opc × Bool × Option Nat) := none
  sni    : BitVec 24 := 0
  /-- Home data is needed. -/
  read   : Bool := false
  nodata : Bool := false
  deriving DecidableEq, Repr

/-- The plan of Table 03-17 for a precise line. -/
def planOf (k : TKind) (far : Bool) (q : Nat) (st : BitVec 2) (o : Nat) (pres : BitVec 24) : Plan :=
  let others := pres &&& ~~~ agBit q
  let rdo : Plan :=
    if st = hsI then { read := true }
    else if st = hsS then { sni := others, read := true }
    else if st = hsX then if o = q then { read := true } else { fwd := some (.fwo, false, some o), read := true }
    else if o = q then { sni := others, nodata := true }
    else { fwd := some (.fwo, false, some o), sni := others &&& ~~~ agBit o }
  let toHome : Plan :=
    if st = hsI then {}
    else if st = hsS then { sni := pres }
    else if st = hsX then { fwd := some (.fwo, true, some o) }
    else { fwd := some (.fwo, true, some o), sni := pres &&& ~~~ agBit o }
  match k with
  | .rds =>
    if st = hsX then if o = q then { read := true } else { fwd := some (.fws, false, some o), read := true }
    else if st = hsOS then { fwd := some (.fws, false, some o) } else { read := true }
  | .rdo => rdo
  | .upg =>
    if st = hsS && pres.getLsbD q then { sni := others, nodata := true }
    else if st = hsX && decide (o = q) then { nodata := true }
    else rdo
  | .rdc | .rsl =>
    if st = hsX then if o = q then { read := true } else { fwd := some (.fwc, false, some o), read := true }
    else if st = hsOS then { fwd := some (.fwc, false, some o) } else { read := true }
  | .atm => if far then { toHome with read := decide (st ≠ hsOS) } else rdo
  | .wrl | .wrp | .scd | .mbs | .zero => toHome
  | .wbd => {}
  | _ => {}

/-- The plan for an imprecise sector (R64). -/
def planImp (k : TKind) (far : Bool) : Plan :=
  match k with
  | .rds => { fwd := some (.fws, false, none), read := true }
  | .rdo | .upg => { fwd := some (.fwo, false, none), read := true }
  | .rdc | .rsl => { fwd := some (.fwc, false, none), read := true }
  | .atm => { fwd := some (.fwo, far, none), read := true }
  | .wrl | .wrp | .scd | .mbs | .zero => { fwd := some (.fwo, true, none) }
  | _ => {}

/-- May the plan bring data to the home, so that a snoop data buffer is reserved first (R275)? -/
def Plan.needsBuf (p : Plan) : Bool :=
  decide (p.sni ≠ 0) || (match p.fwd with | some (_, b, _) => b | none => false)

/-- Send a plan's snoops for one line, with what R63 counts as answered: a fenced or unpopulated agent answers SRI, and
a fenced owner's line is lost (R131). A SNP with to_home = 1 carries the requester's agent and tid as tgt and ttid, which Table 03-2
leaves open (notes/assumptions/86.md). -/
def Mach.sendPlan (m : Mach) (h t : Nat) (line1 : Bool) (p : Plan) : Mach :=
  let e := m.te h t
  let live := m.liveAgents
  let q := if e.kind.isReq then agBit e.agent.toNat else 0
  let key := lineKey (keySec e.key) line1
  let (dst, op, home, owner, bcast) := match p.fwd with
    | some (op, b, some o) => ([o], op, b, some o, false)
    | some (op, b, none) => (agents (live &&& ~~~ q), op, b, none, true)
    | none => ([], Opc.sni, false, none, false)
  let dst' := dst.filter fun a => live.getLsbD a
  let lost := owner.isSome && dst' = []
  let sni := p.sni &&& live
  let pend := dst'.foldl (fun a n => a ||| agBit n) sni
  let snp : Snp := { fwd := if p.fwd.isSome then some op else none, toHome := home,
                     owner := owner.map (BitVec.ofNat 5), bcast, sni, gone := (p.sni &&& ~~~ live) ||| (if lost then (owner.map agBit).getD 0 else 0) }
  let m := m.modTe h t fun e => { e with
    ph := .collect, pend, snp, tocnt := 0, nodata := p.nodata, tmr := m.snpTmr
    lost := e.lost || lost, lostBy := if lost then (owner.map (BitVec.ofNat 5)).getD 0 else e.lostBy }
  let m := m.snoop h t op key dst' e.agent home e.tid
  m.snoop h t .sni key (agents sni) 0 false 0

-- ===== serving a turn =====

/-- Does a turn look Crema up whatever its snoop-filter lookup finds (R65)? -/
def TE.looksUp (e : TE) : Bool :=
  match e.kind with | .rds | .rdo | .rdc | .rsl => true | .atm => !e.far | _ => false

/-- The Crema lookup at the start of a turn (R123). For an UPG and a far ATM it is made if the line's state asks for it (R65, R163);
what Crema holds then is noted. -/
def Mach.cremaStart (m : Mach) (h t : Nat) : Mach :=
  let e := m.te h t
  if e.looksUp then
    let (m, hit) := m.cremaRead h e.key
    m.modTe h t fun e => { e with crm := hit }
  else if e.kind = .upg || e.kind = .atm then
    let hit := (m.cremaRead h e.key).2
    m.modTe h t fun e => { e with crm := hit }
  else m

/-- Count the lookup of an UPG served as RDO, or of a far ATM, with what it found at the turn's start (R65, R163). -/
def Mach.cremaLate (m : Mach) (h t : Nat) : Mach :=
  let e := m.te h t
  let (m', hit) := m.cremaRead h e.key
  if hit = e.crm then m'
  else
    let m := m.bump64 h Reg.hscCrmlookLo
    if e.crm.line.isSome then m.bump64 h Reg.hscCrmhitLo else m

/-- What a planned read needs: nothing where Crema or the write buffer answers it or its port is down, else a return buffer, which
may be lacking (R65, R70, R74, R275). -/
def Mach.readWaits (m : Mach) (h t : Nat) : Bool :=
  let e := m.te h t
  let off := offOf e.key
  e.rd = .none && e.crm.line.isNone && !m.portDown e.port_ &&
  !((m.slice h).inflight off).any (fun x => x.1.op = .mwr) &&
  (writeWaits (m.slice h).todo off || ((m.slice h).freeRb (.data t)).isNone)

/-- Start what the plan reads: a Crema hit of the turn's start answers it, else memory (R65, R163). -/
def Mach.homeData (m : Mach) (h t : Nat) : Mach :=
  let e := m.te h t
  if e.rd ≠ .none then m
  else match e.crm.line with
    | some d => m.modTe h t fun e => { e with rd := .have false d }
    | none =>
      let m := match e.crm.bad with | some w => m.cremaBad h e.key w (m.portDown e.port_) | none => m
      m.startData h t (offOf e.key) e.port_ true

/-- Serve a turn whose lookup has returned (R62 step 5). It waits, and sends nothing, where a reservation cannot be made (R275). -/
def Mach.serve (m : Mach) (h t : Nat) : Mach :=
  let e := m.te h t
  let first := e.ph ≠ .reserve
  let m := if first && e.imp && e.kind.isReq then m.bump h Reg.hscImpbc else m
  let p := if e.imp then planImp e.kind e.far else planOf e.kind e.far e.agent.toNat e.lst e.own.toNat e.pres
  let m := if first && p.read && !e.looksUp then m.cremaLate h t else m
  let needs := p.needsBuf && e.sbuf.isNone
  let buf := if needs then (m.slice h).freeDb 128 48 else some 0
  if buf.isNone || (p.read && m.readWaits h t) then
    let m := if first && buf.isNone then m.bump h Reg.hscDbwait else m
    let m := if first && p.read && m.readWaits h t then m.rbWait h (.data t) else m
    m.modTe h t fun e => { e with ph := .reserve }
  else
    let m := match needs, buf with
      | true, some b => (m.modTe h t fun e => { e with sbuf := some b }).modS h fun s => s.setDb b { te := some t }
      | _, _ => m
    let m := if p.read then m.homeData h t else m.modTe h t fun e => { e with crm := {} }
    m.sendPlan h t e.ln p

/-- A WBD whose turn finds the entry imprecise asks its sender (R64). -/
def Mach.wbdImp (m : Mach) (h t : Nat) : Mach :=
  let e := m.te h t
  let m := m.bump h Reg.hscImpbc
  let live := m.liveAgents.getLsbD e.agent.toNat
  let m := m.modTe h t fun e => { e with
    ph := .collect, pend := if live then agBit e.agent.toNat else 0
    snp := { fwd := some .fwc, toHome := true, bcast := true, gone := if live then 0 else agBit e.agent.toNat } }
  if live then m.snoop h t .fwc e.key [e.agent.toNat] 0 true 0 else m

-- ===== answers (R67, Table 03-6) =====

/-- The RSPs an agent sends. -/
inductive Ans where
  | sri | srs | srf | srfo
  deriving DecidableEq, Repr

/-- The value of an RSP opcode (Table 03-3). -/
def Ans.code : Ans → BitVec 5 | .sri => 1 | .srs => 2 | .srf => 3 | .srfo => 4

/-- Is an answer listed for the snoop the agent was sent (R67)? -/
def Snp.lists (s : Snp) (k : TKind) (os : Bool) (a : Nat) (x : Ans) (kst : BitVec 2) : Bool :=
  if s.sni.getLsbD a && !(s.owner = some (BitVec.ofNat 5 a)) then x = .sri
  else
    let toOs := os && !s.bcast
    match s.fwd with
    | some .fws => (x = .srf && (kst = 2 || kst = 1)) || (!toOs && (x = .sri || x = .srs))
    | some .fwo => (x = .srfo && kst = 0) || (x = .srf && kst = 0) || (!toOs && x = .sri)
    | some .fwc => x = .srf || (!toOs && (x = .sri || x = .srs))
    | some .biv => x = .sri || (x = .srfo && kst = 0)
    | _ => k = .rebuild

/-- Take a listed answer into the entry (R67, R275). -/
def TE.take (e : TE) (a : Nat) (x : Ans) (kst : BitVec 2) : TE :=
  let s := e.snp
  let s := match x with
    | .sri => { s with gone := s.gone ||| agBit a }
    | .srs => { s with srs := s.srs ||| agBit a }
    | .srf => { s with from_ := some (BitVec.ofNat 5 a, kst, false), gone := if kst = 0 then s.gone ||| agBit a else s.gone }
    | .srfo => { s with from_ := some (BitVec.ofNat 5 a, kst, true), gone := if kst = 0 then s.gone ||| agBit a else s.gone }
  { e with pend := e.pend &&& ~~~ agBit a, snp := s }

-- ===== the end of a turn =====

/-- The state a line takes, its owner and the presence bits added, and how a read ends. -/
structure Res where
  st  : BitVec 2
  own : BitVec 5 := 0
  add : BitVec 24 := 0
  op  : Opc
  deriving DecidableEq, Repr

/-- Resolution of a read by its answers (Table 03-6, Table 03-17), the requester left out where it is fenced (R130). -/
def resolve (e : TE) (orphan : Bool) : Res :=
  let q := e.agent
  let qb := agBit q.toNat
  let s := e.snp
  match e.kind with
  | .rds =>
    match s.from_ with
    | some (o, kst, _) =>
      if kst = 2 then { st := hsOS, own := o, add := (if orphan then 0 else qb) ||| agBit o.toNat, op := .cmp }
      else { st := hsS, add := (if orphan then 0 else qb) ||| agBit o.toNat, op := .cmp }
    | none =>
      let shared := decide (s.srs ≠ 0) || (e.lst = hsS && !e.imp)
      if orphan then { st := if shared then hsS else hsI, op := .dts }
      else if shared then { st := hsS, add := qb, op := .dts }
      else { st := hsX, own := q, add := qb, op := .dte }
  | .rdc | .rsl =>
    match s.from_ with
    | some _ => { st := e.lst, own := e.own, op := .cmp }
    | none =>
      if s.fwd.isSome then { st := if s.srs ≠ 0 then hsS else hsI, op := .dtc }
      else { st := e.lst, own := e.own, op := .dtc }
  | _ =>
    if orphan then { st := hsI, op := .cme }
    else if e.nodata || s.from_.isSome then { st := hsX, own := q, add := qb, op := .cme }
    else { st := hsX, own := q, add := qb, op := .dte }

/-- End a read-type transaction once its answers and data are in (R66 to R69, R131, R132). HSC_RSL counts an RSL whatever its ending
is (R183; notes/assumptions/92.md). -/
def Mach.endRead (m : Mach) (h t : Nat) : Mach :=
  let e := m.te h t
  let orphan := m.orphan e
  let r := resolve e orphan
  let home := r.op.cls = 3
  let ownLost := orphan && (e.lst = hsX || e.lst = hsOS) && !e.imp && e.own = e.agent && e.hit
  let fwdLost := orphan && (match e.snp.from_ with | some (_, _, b) => b | none => false)
  -- an RSL's ending: monitor set or cleared (R174)
  let mon := fun (m : Mach) (ok : Bool) => if e.kind = .rsl then
      let i := monIdx e.agent e.rqid
      let shadow := match e.snp.from_ with | some (o, kst, _) => o ≠ e.agent && kst = 3 | none => false
      let m := m.bump h Reg.hscRsl
      if ok && !orphan then m.putMon h i (mkMon e.key shadow) else m.clrMon h i
    else m
  if e.lost || ownLost || fwdLost then
    let m := m.loseLine h t
    let gone := e.snp.gone ||| (if e.lost then agBit e.lostBy.toNat else 0) ||| (if orphan then agBit e.agent.toNat else 0)
    (mon (m.putState h t e.ln hsI 0 0 gone) false).cmx h t .poison
  else
    let fail := fun (c : Cmx) => (mon (m.putState h t e.ln e.lst e.own 0 e.snp.gone) false).cmx h t c
    let upd := fun (m : Mach) =>
      let m := m.putState h t e.ln r.st r.own r.add (e.snp.gone ||| (if orphan then agBit e.agent.toNat else 0))
      if r.op = .dte || r.op = .cme then if orphan then m else m.clrMons h e.key else m
    if home && !orphan then
      match e.rd with
      | .have true _ => fail .poison
      | .have false d => (mon (upd m) true).finish h t { op := r.op, cmp := true, data := d }
      | _ => fail .tgtdown
    else (mon (upd m) true).finish h t { op := r.op }

/-- The operation of a far atomic (Table 06-1): the new value from the old one and the operands, `n` bytes wide. -/
def aluOf (code : BitVec 8) (n old a b : Nat) : Nat :=
  let w := 2 ^ (8 * n)
  let sgn := fun (x : Nat) => if 2 * x < w then (x : Int) else (x : Int) - (w : Int)
  match code.toNat with
  | 1 => (old + a) % w
  | 2 => old &&& a
  | 3 => old ||| a
  | 4 => old ^^^ a
  | 5 => a
  | 6 => if old = b then a else old
  | 7 => if sgn a < sgn old then a else old
  | 8 => if sgn old < sgn a then a else old
  | 9 => min old a
  | _ => max old a

/-- The new line and the old value of a far atomic (R158). -/
def TE.alu (e : TE) (d : Line) : Line × Nat :=
  let n := 2 ^ e.sz.toNat
  let old := lineBytes d e.lo.toNat n
  let new := aluOf e.aop n old (e.opa.toNat % 2 ^ (8 * n)) (e.opb.toNat % 2 ^ (8 * n))
  (mergeLine (byteMask e.lo.toNat n) (BitVec.ofNat 512 (new <<< (8 * e.lo.toNat))) d, old)

/-- CMA with a result word (Table 03-2). -/
def cmaMsg (v : Nat) : Msg := { op := .cma, data := BitVec.ofNat 512 v }

/-- End a far atomic in a coherent write-back region (R163 to R165). One that ends with CMX clears no monitor (R176;
notes/assumptions/91.md). -/
def Mach.endFar (m : Mach) (h t : Nat) : Mach :=
  let e := m.te h t
  let gone := e.snp.gone ||| (if e.lost then agBit e.lostBy.toNat else 0)
  let wr := some (monIdx e.agent e.rqid)
  if e.lost then ((m.loseLine h t).putState h t e.ln hsI 0 0 gone).cmx h t .poison
  else
    let src := match m.dirty h t with
      | some (b, d) => some (true, b, d)
      | none => match e.rd with | .have b d => some (false, b, d) | _ => none
    match src with
    | none => (m.putState h t e.ln hsI 0 0 gone).cmx h t .tgtdown
    | some (_, true, _) => (m.putState h t e.ln hsI 0 0 gone).cmx h t .poison
    | some (fromDirty, false, d) =>
      if m.portDown e.port_ then
        let m := if fromDirty then m.lostWrite e.port_ (offOf e.key) else m
        (m.putState h t e.ln hsI 0 0 gone).cmx h t .tgtdown
      else
        let (new, old) := e.alu d
        let m := if new ≠ d || fromDirty then
            match e.sbuf with
            | some b => (m.modTe h t fun e => { e with sbuf := none }).issueWrite h b .mwr e.port_ (offOf e.key) new (BitVec.allOnes 64) .demand (some e.at_) (te := some t)
            | none => m
          else m
        let set := crmSet e.key
        let m := match m.crmWay h e.key with
          | some w => if m.bit Reg.crmCtl 0 || e.crm.use || tgLk (m.ctag h set w) then
              (m.putTag h set w (m.ctag h set w &&& ~~~ (8#48))).putLine h set w new else m
          | none =>
            if m.bit Reg.crmCtl 0 && atAlloc e.at_ && m.crmClass (offOf e.key) e.at_ && !e.hm then m.crmInstall h e.key new (atSec e.at_) false
            else m
        let m := (m.putState h t e.ln hsI 0 0 gone).clrMons h e.key wr
        m.finish h t (cmaMsg old)

/-- End a write in a coherent write-back region (R70, R71, R76, R130, R131). -/
def Mach.endWrite (m : Mach) (h t : Nat) : Mach :=
  let e := m.te h t
  let gone := e.snp.gone ||| (if e.lost then agBit e.lostBy.toNat else 0)
  let ok : Msg := if e.kind = .scd then cmaMsg 1 else { op := .cmp }
  let wr := some (monIdx e.agent e.rqid)
  -- an SCD counts once its bytes are written (R183)
  let won := fun (m : Mach) => if e.kind = .scd then m.bump h Reg.hscScdok else m
  let upd := fun (m : Mach) => (m.putState h t e.ln hsI 0 0 gone).clrMons h e.key wr
  let full := BitVec.allOnes 64
  match m.wdata h t with
  | none =>
    -- the requester was fenced before its DTW: its bytes are not written (R130)
    let m := match m.dirty h t with
      | some (p, d) => m.writeLine h t e.sbuf (if p then .mwp else .mwr) d full .demand
      | none => if e.lost then m.loseLine h t else m
    (upd m).finish h t ok
  | some (psn, d) =>
    if m.portDown e.port_ && !e.lost then
      let m := (upd (m.cremaWrite h e.key)).lostWrite e.port_ (offOf e.key)
      m.cmx h t .tgtdown
    else match e.kind with
      | .wrl =>
        let m := if e.lost then m.loseLine h t else m
        (upd (m.writeLine h t e.dbuf (if psn then .mwp else .mwr) d full .demand)).finish h t ok
      | _ =>
        if e.lost then (upd (m.loseLine h t)).cmx h t .poison
        else match m.dirty h t with
          | some (dp, old) =>
            let bad := psn || (dp && e.mask ≠ full)
            (upd (won (m.writeLine h t e.sbuf (if bad then .mwp else .mwr) (mergeLine e.mask d old) full .demand))).finish h t ok
          | none => (upd (won (m.writeLine h t e.dbuf (if psn then .mwp else .mwm) d e.mask .demand))).finish h t ok

/-- End a WBD at its turn with the state it leaves, or as stale (R64, R71, R130). -/
def Mach.endWbd (m : Mach) (h t : Nat) : Mach :=
  let e := m.te h t
  let q := e.agent
  let (valid, st) :=
    if e.imp then match e.snp.from_ with
      | some (_, kst, _) => if kst = 3 then (true, hsI) else if kst = 2 then (true, hsS) else (false, hsI)
      | none => (false, hsI)
    else if e.lst = hsX && e.own = q then (true, hsI)
    else if e.lst = hsOS && e.own = q then (true, hsS)
    else (false, hsI)
  if !valid then m.finish h t { op := .cmp }
  else match m.wdata h t with
    | none =>
      -- no DTW before the fence: the owner is lost (R130)
      ((m.loseLine h t).putState h t e.ln hsI 0 0 (agBit q.toNat)).finish h t { op := .cmp }
    | some (psn, d) =>
      let upd := fun (m : Mach) => (m.putState h t e.ln st 0 0 (agBit q.toNat)).clrMons h e.key
      if m.portDown e.port_ then
        (upd ((m.cremaWrite h e.key).lostWrite e.port_ (offOf e.key))).cmx h t .tgtdown
      else (upd (m.writeLine h t e.dbuf (if psn then .mwp else .mwr) d (BitVec.allOnes 64) .demand)).finish h t { op := .cmp }

/-- Is everything a served turn waits for in (R66)? -/
def Mach.ready (m : Mach) (h t : Nat) : Bool :=
  let e := m.te h t
  let s := e.snp
  let homeDirty := s.toHome && (match s.from_ with | some (_, _, b) => b | none => false)
  let own := m.orphan e || (m.wdata h t).isSome
  let rdIn := match e.rd with | .have _ _ => true | .down => true | _ => false
  e.st = .active && e.ph = .collect && e.pend = 0 &&
  match e.kind with
  | .rds | .rdo | .upg | .rdc | .rsl =>
    e.lost || m.orphan e || decide ((resolve e false).op.cls ≠ 3) || rdIn
  | .atm =>
    if e.far then e.lost || (if homeDirty then s.dtw else rdIn)
    else e.lost || m.orphan e || decide ((resolve e false).op.cls ≠ 3) || rdIn
  | .wrl | .wrp | .scd => (!homeDirty || s.dtw) && own
  | .wbd => own
  | .mbs | .biv | .zero => !homeDirty || s.dtw
  | .rebuild | .sweep => true
  | _ => false

end Sys2Proof.Machine
end

