-- ==== Sys2Proof/Machine/Atomic.lean ====
section
/-! DEFINITION. Placement of atomics, the contention predictor and the far monitor (R156 to R180). -/

namespace Sys2Proof.Machine

/-- Is an atomic operation code listed with a size (Table 06-1)? -/
def atmListed (aop : BitVec 8) (sz : BitVec 3) : Bool :=
  decide (1 ≤ aop.toNat ∧ aop.toNat ≤ 10) && (sz = 2 || sz = 3 || (sz = 4 && aop = 6))

/-- Placement of an ATM at its turn (Table 06-2): far, or none for CMX ATTRFAULT. -/
def Mach.placeAtm (m : Mach) (h : Nat) (e : TE) : Option Bool :=
  let a := e.at_
  let hmode := m.bit Reg.glbAtmctl 16
  let afar := m.bit Reg.glbAtmfar e.agent.toNat
  if !atWb a then some true
  else if atAtom a = 2 then some true
  else if atAtom a = 1 then if hmode then some true else if afar then none else some false
  else if hmode || afar then some true
  else some (m.bit Reg.glbAtmctl 0 &&
    decide (m.fld Reg.glbAtmctl 8 3 ≤ ((m.slice h).pred.get 0 (predIdx e.key)).toNat))

/-- Train the predictor at the return of a lookup (R169), and write the far history (R168). -/
def Mach.train (m : Mach) (h t : Nat) : Mach :=
  let e := m.te h t
  if atAtom e.at_ ≠ 0 || !atWb e.at_ then m
  else
    let s := m.slice h
    let i := predIdx e.key
    let c := (s.pred.get 0 i).toNat
    let contended := s.waited e.hkey ||
      ((e.lst = hsX || e.lst = hsOS) && e.own ≠ e.agent) ||
      (e.lst = hsS && decide (e.pres &&& ~~~ agBit e.agent.toNat ≠ 0)) ||
      (s.hist.any fun x => x.1 = e.key && x.2 ≠ e.agent)
    let c' := if contended then min (c + 1) 7 else c - 1
    let m := if e.imp then m else m.modS h fun s => { s with pred := s.pred.set 0 i (BitVec.ofNat 3 c') }
    if e.far then m.modS h fun s =>
      let r := s.hist.filter fun x => x.1 ≠ e.key
      { s with hist := (if r.length < 64 then r else r.drop 1) ++ [(e.key, e.agent)] }
    else m

/-- The monitor check at the start of an SCD's turn (R175, R178): does it hold, does it fail by shadow. The monitor is
cleared. -/
def Mach.monCheck (m : Mach) (h : Nat) (e : TE) : Mach × Bool × Bool :=
  let i := monIdx e.agent e.rqid
  let raw := ((m.slice h).mon.get 0 i).toNat
  let w : BitVec 48 := BitVec.ofNat 48 raw
  let bad := badBytes 6 raw ≠ []
  let m := m.clrMon h i
  if bad then
    (((m.bump h Reg.hscMonpar).err h 3).capture { src := h, code := 0x14, counted := true, akind := 3, addr := BitVec.ofNat 52 i }, false, false)
  else
    let mine := w.getLsbD 0 && w.extractLsb' 2 40 = e.key
    (m, mine && !w.getLsbD 1, mine && w.getLsbD 1)

/-- RSL and SCD are accepted in a region (R172). -/
def Mach.rslOk (m : Mach) (a : BitVec 16) : Bool := !atWb a || atAtom a = 2 || m.bit Reg.glbAtmctl 16

end Sys2Proof.Machine
end

