-- ==== Sys2Proof/Machine/CrowsNest.lean ====
section
/-! DEFINITION. Crow's Nest: lookups, refills, evictions, copy removals, recounts, back-invalidation, rebuilds, the set
sweep, moves and way-banks (R81 to R114, R442 to R444). -/

namespace Sys2Proof.Machine

/-- Write a set's spill count. -/
def Mach.setSpc (m : Mach) (h set n : Nat) : Mach :=
  let m := m.ensureSet h set
  m.putSs h set (ssSetSpc (m.ss h set) n)

/-- Does a set await or undergo a recount, its count reading 4,096 meanwhile (R442)? -/
def Slice.recounting (s : Slice) (set : Nat) : Bool := s.rcq.contains set || s.rcn.any fun x => x.1 = set

/-- Bucket `j` of a set gains `up` occupied slots or loses `down`: the set's spill count follows, or stays 4,096 until its recount
ends, and the counts that a recount or a scrub has gathered follow where they have passed the bucket (R95, R264, R442). -/
def Mach.addSpc (m : Mach) (h set j up down : Nat) : Mach :=
  let m := m.ensureSet h set
  let m := if (m.slice h).recounting set then m else m.setSpc h set (ssSpc (m.ss h set) + up - down)
  let scr := fun (x : Nat × Nat × List Nat × Nat) =>
    if x.1 = h && x.2.1 = set && x.2.2.1.contains j then (x.1, x.2.1, x.2.2.1, x.2.2.2 + up - down) else x
  let m := { m with tmp := m.tmp.map fun (o : TmpOp) => { o with scr := o.scr.map scr } }
  m.modS h fun s => { s with rcn := s.rcn.map fun x => if x.1 = set && decide (j < x.2.1) then (x.1, x.2.1, x.2.2 + up - down) else x }

/-- The bucket of a sector among the buckets of its set (R93). -/
def Mach.bktNo (m : Mach) (sec : BitVec 39) : Nat := thOf (m.fld Reg.glbSpsize 0 6 - 25) (tagOf sec)

/-- Slot `i` of a bucket line (R94). -/
def slotOf (d : Line) (i : Nat) : W64 := lineWord d i
/-- The occupied slot of a tag. -/
def slotFind (d : Line) (tag : BitVec 25) : Option Nat := firstBelow 8 fun i => (slotOf d i).getLsbD 0 && enTag (slotOf d i) = tag
/-- Occupied slots of a bucket. -/
def slotCount (d : Line) : Nat := ((List.range 8).filter fun i => (slotOf d i).getLsbD 0).length

/-- The bucket table (R100). -/
def Slice.bktBusy (s : Slice) (a : PA) : Bool := s.bkts.any fun b => b.addr = a
def Slice.bktFull (s : Slice) : Bool := decide (32 ≤ s.bkts.length)
def Mach.bktAdd (m : Mach) (h : Nat) (a : PA) (u : BktUse) : Mach := m.modS h fun s => { s with bkts := s.bkts ++ [{ addr := a, use := u }] }
def Mach.bktSet (m : Mach) (h : Nat) (a : PA) (u : BktUse) : Mach :=
  m.modS h fun s => { s with bkts := s.bkts.map fun b => if b.addr = a then { b with use := u } else b }
def Mach.bktDel (m : Mach) (h : Nat) (a : PA) : Mach := m.modS h fun s => { s with bkts := s.bkts.filter fun b => b.addr ≠ a }
/-- Read a bucket from the spill directory's port (R34). -/
def Mach.bktRead (m : Mach) (h : Nat) (a : PA) : Mach := m.askRead h (.bkt a) m.spillPort (m.offPa a.toNat)
/-- Write a bucket, one full-line MWR (R97). -/
def Mach.bktWrite (m : Mach) (h : Nat) (a : PA) (d : Line) : Mach := m.askWrite h .mwr m.spillPort (m.offPa a.toNat) (.bkt a) d
/-- The bucket address of a sector homed on HSn. -/
def Mach.bktOf (m : Mach) (h : Nat) (sec : BitVec 39) : PA := m.bucketPa (m.slice h).ls sec

-- ===== back-invalidation, MBS and rebuilds: both lines of a sector (R444) =====

/-- Send what a two-line entry sends for its current line (R77, R78, R103); the snoop-response timeout starts for it (R129). -/
def Mach.lineSend (m : Mach) (h t : Nat) (line1 : Bool) : Mach :=
  let e := m.te h t
  let sec := keySec e.key
  let m := m.modTe h t fun e =>
    { e with line1, snp := {}, tocnt := 0, tmr := m.snpTmr,
             sbuf := if e.sbuf.isNone then e.dbuf else e.sbuf, dbuf := if e.sbuf.isNone then none else e.dbuf,
             lines := e.lines &&& ~~~ (if line1 then 2#2 else 1#2) }
  match e.kind with
  | .rebuild =>
    let live := m.liveAgents
    let m := m.modTe h t fun e => { e with ph := .collect, pend := live, snp := { fwd := some .fwc, toHome := true, bcast := true } }
    m.snoop h t .fwc (lineKey sec line1) (agents live) 0 true 0
  | .biv =>
    match (m.slice h).victim sec with
    | none => m
    | some v =>
      let live := m.liveAgents
      let pres := if enImp v.word then live else enPres v.word
      let own := if (enSt v.word line1 = hsX || enSt v.word line1 = hsOS) && !enImp v.word then some (enOwn v.word line1) else none
      let lost := match own with | some o => !live.getLsbD o.toNat | none => false
      let dst := pres &&& live
      let m := m.modTe h t fun e => { e with ph := .collect, pend := dst, lost, snp := { fwd := some .biv, toHome := true, bcast := true } }
      m.snoop h t .biv (lineKey sec line1) (agents dst) 0 false 0
  | _ =>
    let (st, o, pres) := m.lineState h (lineKey sec line1)
    let p := if e.imp then planImp .mbs false else planOf .mbs false 24 st o.toNat pres
    let m := m.modTe h t fun e => { e with lst := st, own := o, pres }
    m.sendPlan h t line1 p

/-- Poison or write the line a two-line entry has finished with (R77, R78, R131). -/
def Mach.lineWrite (m : Mach) (h t : Nat) (use : WUse) : Mach :=
  let e := m.te h t
  let key := e.key
  let m := m.modTe h t fun e => { e with key := lineKey (keySec e.key) e.line1 }
  let m := match m.dirty h t with
    | some (p, d) => m.writeLine h t e.sbuf (if p then .mwp else .mwr) d (BitVec.allOnes 64) use
    | none => if e.lost then m.loseLine h t use else m
  m.modTe h t fun e => { e with key, lost := false }

/-- Writes still in flight for an MBS (R78). -/
def Slice.mbsWrites (s : Slice) (t : Nat) : Nat :=
  (s.dbuf.filter fun e => match e.2.wr with | some w => w.use = .mbs t | none => false).length +
  (s.todo.filter fun x => match x with | .write _ _ _ u _ _ _ _ => u = .mbs t | _ => false).length

/-- End an MBS: MBR goes to its port (R78). -/
def Mach.mbsEnd (m : Mach) (h t : Nat) : Mach :=
  let e := m.te h t
  if (m.slice h).mbsWrites t = 0 then (m.modP e.port fun v => { v with mbrq := v.mbrq ++ [e.aux] }).endTe h t
  else m.modTe h t fun e => { e with ph := .mwc }

/-- An eviction resolved by back-invalidation ends (R97). -/
def Mach.bivEnd (m : Mach) (h t : Nat) : Mach :=
  let sec := keySec (m.te h t).key
  let m := (m.bktDel h (m.bktOf h sec)).bump h Reg.hscBiv
  let m := m.modS h fun s => { s with vbuf := s.vbuf.filter fun v => v.sec ≠ sec }
  m.endTe h t

/-- Table 04-4: a line's state, owner and holders from a rebuild's answers; none where they conflict. -/
def rebuildLine (s : Snp) : Option (BitVec 2 × BitVec 5 × BitVec 24) :=
  if s.dtw then none  -- two agents claimed the line
  else match s.from_ with
    | none => if s.srs = 0 then some (hsI, 0, 0) else some (hsS, 0, s.srs)
    | some (o, kst, _) =>
      if kst = 3 && s.srs = 0 then some (hsX, o, agBit o.toNat)
      else if kst = 2 then some (hsOS, o, agBit o.toNat ||| s.srs)
      else none

/-- A rebuild's answers are all in: write the entry, whose parity is checked, unless an error took it away (R103, R104, R107, R443).
It waits where its sector needs a way. -/
def Mach.rebuildEnd (m : Mach) (h t : Nat) : Mach :=
  let sec := keySec (m.te h t).key
  let set := (setOf sec).toNat
  let m := (m.ensureSet h set).checkSet h set
  let e := m.te h t
  let done := fun (m : Mach) =>
    let m := m.bump h Reg.hscSfreb
    let m := m.modS h fun s => { s with swp := s.swp.map fun w => { w with queued := w.queued.erase sec }, susq := s.susq.filter fun x => x.1 ≠ sec }
    m.endTe h t
  match (match e.res0 with | some s => rebuildLine s | none => none), (match e.res1 with | some s => rebuildLine s | none => none) with
  | some (s0, o0, p0), some (s1, o1, p1) =>
    let spf := match m.findWay h sec with | some w => enSpf (m.entry h set w) | none => true
    let en := mkEntry (tagOf sec) (p0 ||| p1) s1 (if s1 = hsX || s1 = hsOS then o1 else 0) s0 (if s0 = hsX || s0 = hsOS then o0 else 0) spf
    let empty := s0 = hsI && s1 = hsI
    if e.noUpd then done m
    else match m.findWay h sec with
    | some w =>
      if empty then done (if spf then m.putEntry h set w en true else m.freeWay h set w) else done (m.putEntry h set w en true)
    | none =>
      if empty && (ssSpc (m.ss h set) = 0 || m.spillDown) then done m
      else match m.takeWay h sec (atSec e.at_) with
        | .ok (m, w) => done (m.install h set w en)
        | .error _ => m.modTe h t fun e => { e with ph := .wayWait, hit := true, way := none }
  | _, _ =>
    let m := m.capture { src := h, code := 0x11, cls := .x, akind := 1, addr := m.paOf (secOff sec), htag := m.htag h t }
    m.endTe h t

/-- A suspect line for which no agent answered with an E, M or O copy is lost: its S holders get SNI first (R325). A line that a
lost progress word made suspect is handled so as well (R149; notes/assumptions/87.md). -/
def Mach.suspectSend (m : Mach) (h t : Nat) (line1 : Bool) : Mach :=
  let e := m.te h t
  let dst := (match (if line1 then e.res1 else e.res0) with | some s => s.srs | none => 0) &&& m.liveAgents
  let m := m.modTe h t fun e => { e with
    ph := .collect, line1, lost := true, pend := dst, tocnt := 0, tmr := m.snpTmr, snp := { fwd := none, sni := dst }
    lines := e.lines &&& ~~~ (if line1 then 2#2 else 1#2) }
  m.snoop h t .sni (lineKey (keySec e.key) line1) (agents dst) 0 false 0

/-- Go on with the lost lines of a suspect rebuild, then write the entry. The SNI wait for a snoop data buffer (R275). -/
def Mach.suspectNext (m : Mach) (h t : Nat) : Mach :=
  let e := m.te h t
  if e.lines = 0 then m.rebuildEnd h t
  else
    let l1 := !e.lines.getLsbD 0
    if e.sbuf.isSome then m.suspectSend h t l1
    else match (m.slice h).freeDb 128 48 with
      | some b => ((m.modTe h t fun e => { e with sbuf := some b }).modS h fun s => s.setDb b { te := some t }).suspectSend h t l1
      | none => (if e.ph ≠ .reserve then m.bump h Reg.hscDbwait else m).modTe h t fun e => { e with ph := .reserve }

/-- One line of a two-line entry is finished: record or write it, then go on to the other line or end. -/
def Mach.lineDone (m : Mach) (h t : Nat) : Mach :=
  let e := m.te h t
  match e.kind with
  | .rebuild =>
    if e.lost then
      -- a suspect line that was lost counts as I once it is poisoned
      let m := (m.modTe h t fun e => { e with snp := {} }).lineWrite h t .demand
      (m.modTe h t fun e => if e.line1 then { e with res1 := some {} } else { e with res0 := some {} }).suspectNext h t
    else if !e.line1 then (m.modTe h t fun e => { e with res0 := some e.snp }).lineSend h t true
    else
      let un := fun (b : BitVec 2) (s : Option Snp) => e.suspect &&& b ≠ 0 && s.all fun s => s.from_.isNone
      let lines : BitVec 2 := (if un 1 e.res0 then 1 else 0) ||| (if un 2 (some e.snp) then 2 else 0)
      (m.modTe h t fun e => { e with res1 := some e.snp, lines }).suspectNext h t
  | .biv =>
    let m := m.lineWrite h t .demand
    if (m.te h t).lines.getLsbD 1 then m.lineSend h t true else m.bivEnd h t
  | _ =>
    let m := m.lineWrite h t (.mbs t)
    let m := (m.putState h t e.line1 hsI 0 0 (e.snp.gone ||| (if e.lost then agBit e.lostBy.toNat else 0))).clrMons h (lineKey (keySec e.key) e.line1)
    if (m.te h t).lines.getLsbD 1 then m.lineSend h t true else m.mbsEnd h t

/-- Write a line that the owner sweep found lost as poison; without a region it has no target (R131, R324). -/
def Mach.sweepWrite (m : Mach) (h : Nat) (key : LineKey) (attr : Option (BitVec 16)) : Mach :=
  let off := offOf key
  match attr with
  | some x => if m.portDown (atPort x) then m.lostWrite (atPort x) off
              else m.askWrite h .mwp (atPort x) off .demand 0 (BitVec.allOnes 64) attr
  | none => m

/-- The holders of a line that the owner sweep found lost have answered: their bits are trimmed, and the line is poisoned. -/
def Mach.sweepEnd (m : Mach) (h t : Nat) : Mach :=
  let e := m.te h t
  let set := (setOf (keySec e.key)).toNat
  let m := match m.findWay h (keySec e.key) with
    | some w => if e.noUpd then m else m.storeEntry h set w (trim (m.entry h set w) e.ln e.snp.gone)
    | none => m
  (m.writeLine h t e.sbuf .mwp 0 (BitVec.allOnes 64) .demand).endTe h t

/-- A line of a ZERO is over without a write in flight. -/
def Mach.zeroOver (m : Mach) : Mach := { m with tmp := m.tmp.map fun (o : TmpOp) => { o with busy := o.busy - 1 } }

/-- Can a ZERO line be written now: its port takes no write, or a data buffer is free? -/
def Mach.zeroCan (m : Mach) (h t p : Nat) : Bool := m.portDown p || ((m.slice h).freeDb (WUse.zero t).part.1 (WUse.zero t).part.2).isSome

/-- A ZERO line whose holders have answered is written once it has a data buffer (R263, R275); it counts as done at its MWC. -/
def Mach.endZero (m : Mach) (h t : Nat) : Mach :=
  let e := m.te h t
  if !m.zeroCan h t e.port_ then m.modTe h t fun e => { e with ph := .wbuf }
  else
  let gone := e.snp.gone ||| (if e.lost then agBit e.lostBy.toNat else 0)
  let m := if e.lost then m.loseLine h t else m.cremaWrite h e.key
  let m := (m.putState h t e.ln hsI 0 0 gone).clrMons h e.key
  if m.portDown e.port_ then
    (m.lostWrite e.port_ (offOf e.key)).zeroOver.endTe h t
  else (m.askWrite h .mwr e.port_ (offOf e.key) (.zero t) 0 (BitVec.allOnes 64) (some e.at_)).endTe h t

/-- End a turn, or a line of it, whose answers and data are in (R66). Two-line entries may finish both lines. -/
def Mach.tryEnd (m : Mach) (h t : Nat) : Mach :=
  (List.range 4).foldl (fun m _ =>
    if !m.ready h t then m
    else if (m.te h t).rbad then m.rbCrc h t
    else
      let m := m.badBuf h t
      let e := m.te h t
      match e.kind with
      | .rds | .rdo | .upg | .rdc | .rsl => m.endRead h t
      | .atm => if e.far then m.endFar h t else m.endRead h t
      | .wrl | .wrp | .scd => m.endWrite h t
      | .wbd => m.endWbd h t
      | .mbs | .biv | .rebuild => m.lineDone h t
      | .zero => m.endZero h t
      | .sweep => m.sweepEnd h t
      | _ => m) m

/-- A Crow's Nest entry sends its first snoops, once it knows its region. -/
def Mach.crowGo (m : Mach) (h t : Nat) : Mach :=
  let e := m.te h t
  if e.kind = .rebuild then (m.lineSend h t false).tryEnd h t
  else if e.lines = 0 then m.bivEnd h t
  else (m.lineSend h t (!e.lines.getLsbD 0)).tryEnd h t

/-- A Crow's Nest entry whose turn has come looks its region up, for the writes it may make; a fault leaves it none. -/
def Mach.crowStart (m : Mach) (h t : Nat) : Mach :=
  let e := m.te h t
  let off := secOff (keySec e.key)
  match m.rcFind h off with
  | some a => (m.modTe h t fun e => { e with attr := some a }).crowGo h t
  | none =>
    let (m, out) := (m.modTe h t fun e => { e with ph := .region }).startWalk h (.te h t) off
    if out.any (fun x => x.1 = .te h t) then m.crowGo h t else m

-- ===== lookups (R86) =====

/-- Kinds that can grant a presence bit (R89). -/
def TE.grants (e : TE) : Bool :=
  match e.kind with | .rds => true | .rdo => true | .upg => true | .atm => !e.far | _ => false

/-- What a lookup found reaches the turn: training (R169), then the turn goes on. -/
def Mach.found (m : Mach) (h t : Nat) (way : Option Nat) (hit imp : Bool) : Mach :=
  let e := m.te h t
  let sec := keySec e.key
  let en := match way with | some w => if hit then m.entry h (setOf sec).toNat w else 0 | none => 0
  let m := m.modTe h t fun e => { e with
    hit, imp, way, lst := enSt en e.ln, own := enOwn en e.ln, pres := enPres en, refill := none, ph := .turn }
  -- a request served on an imprecise entry has a rebuild queued (R102)
  let m := if hit && imp && e.kind ≠ .rebuild then m.queueRebuild h sec else m
  let m := if e.kind = .atm then m.train h t else m
  match e.kind with
  | .wbd => if imp then (m.wbdImp h t).tryEnd h t
            else (m.modTe h t fun e => { e with ph := .collect }).tryEnd h t
  | .mbs =>
    let m := if imp then m.bump h Reg.hscImpbc else m
    (m.lineSend h t (!e.lines.getLsbD 0)).tryEnd h t
  | _ => (m.serve h t).tryEnd h t

/-- Choose a way for a sector that missed (R89), or wait (R91, R92). -/
def Mach.missWay (m : Mach) (h t : Nat) : Mach :=
  let e := m.te h t
  if !e.grants then m.found h t none false false
  else match m.takeWay h (keySec e.key) (atSec e.at_) with
    | .ok (m, w) => m.found h t (some w) false false
    | .error _ => m.modTe h t fun e => { e with ph := .wayWait }

/-- A miss in an imprecise set (R105). -/
def Mach.missImp (m : Mach) (h t : Nat) : Mach :=
  let e := m.te h t
  let sec := keySec e.key
  if !e.grants then m.found h t none false true
  else match m.takeWay h sec (atSec e.at_) with
    | .ok (m, w) =>
      let m := m.install h (setOf sec).toNat w (mkEntry (tagOf sec) 0xFFFFFF 0 0 0 0 true)
      m.found h t (some w) true true
    | .error _ => m.modTe h t fun e => { e with ph := .wayWait }

/-- Install a refill's slot word (R98), or wait for a way. The entry served on is the word itself. -/
def Mach.refillWay (m : Mach) (h t : Nat) (word : W64) : Mach :=
  let e := m.te h t
  let sec := keySec e.key
  match m.takeWay h sec (atSec e.at_) with
  | .ok (m, w) =>
    let m := ((m.install h (setOf sec).toNat w word).bump h Reg.hscSphit).bktDel h (m.bktOf h sec)
    (m.bump64 h Reg.hscSfhitLo).found h t (some w) true (enImp word)
  | .error _ => m.modTe h t fun e => { e with ph := .wayWait, refill := some word }

/-- Look up the sector of a turn (R86). -/
def Mach.lookup (m : Mach) (h t : Nat) : Mach :=
  let e := m.te h t
  let sec := keySec e.key
  let set := (setOf sec).toNat
  let first := e.ph ≠ .lookup && e.ph ≠ .wayWait && e.ph ≠ .bucket
  let m := if first then (m.bump64 h Reg.hscSflookLo).cremaStart h t else m
  let m := (m.ensureSet h set).checkSet h set
  match m.findWay h sec with
  | some w =>
    let m := m.putSs h set (ssBit (m.ss h set) (16 + w) true)
    (m.bump64 h Reg.hscSfhitLo).found h t (some w) true (enImp (m.entry h set w))
  | none =>
    if ((m.slice h).victim sec).isSome then m.modTe h t fun e => { e with ph := .lookup }
    else if ssSimp (m.ss h set) then m.missImp h t
    else if ssSpc (m.ss h set) = 0 then m.missWay h t
    -- no bucket operation while the directory's port is down (R101)
    else if m.spillDown then m.missImp h t
    else
      let a := m.bktOf h sec
      if (m.slice h).bktBusy a || (m.slice h).bktFull then m.modTe h t fun e => { e with ph := .lookup }
      else
        let m := ((m.modTe h t fun e => { e with ph := .bucket }).bktAdd h a (.lookup t)).bump h Reg.hscSprd
        m.bktRead h a

-- ===== evictions (R97), copy removals (R99), recounts (R442) =====

/-- Put a victim's word into slot `i` of a bucket and write it. -/
def Mach.spillTo (m : Mach) (h : Nat) (v : Victim) (d : Line) (i : Nat) : Mach :=
  let a := m.bktOf h v.sec
  ((m.bktSet h a (.evictWr v.sec)).bump h Reg.hscSpwr).bktWrite h a (setLineWord d i (enSetSpf v.word true))

/-- Resolve a victim by back-invalidation (R77, R97), once a reserved entry and its buffers are free. -/
def Mach.bivStart (m : Mach) (h : Nat) (v : Victim) : Mach :=
  let lines := (List.range 2).filter fun l => enImp v.word || enSt v.word (l = 1) ≠ hsI
  let s := m.slice h
  let own := firstBelow 8 fun i => (s.ent (504 + i)).kind = .biv && (s.ent (504 + i)).st ≠ .free && (s.ent (504 + i)).inSector v.sec
  match (own.map (504 + ·)) <|> s.freeCrow, s.freeDb 128 48 with
  | some t, some b =>
    let b2 := if lines.length < 2 then none else firstBelow 48 fun i => decide (s.db (128 + i) = ({} : DBuf)) && decide (128 + i ≠ b)
    if lines.length = 2 && b2.isNone then
      if (m.te h t).ph = .reserve then m
      else (m.setTe h t { st := .active, kind := .biv, pool := .crow, ph := .reserve, key := lineKey v.sec false }).bump h Reg.hscDbwait
    else
      let b2 := b2.map (128 + ·)
      let e : TE := { st := .active, kind := .biv, pool := .crow, key := lineKey v.sec false, sbuf := some b, dbuf := b2,
                      lines := lines.foldl (fun a l => a ||| (if l = 0 then 1#2 else 2#2)) 0 }
      let m := m.setTe h t e
      let m := m.modS h fun s => s.setDb b { te := some t }
      let m := match b2 with | some b => m.modS h fun s => s.setDb b { te := some t } | none => m
      m.crowStart h t
  | none, _ => m
  | some t, none => if (m.te h t).ph = .reserve then m
    else
      -- it waits for a snoop data buffer (R275, R284)
      (m.setTe h t { st := .active, kind := .biv, pool := .crow, ph := .reserve, key := lineKey v.sec false }).bump h Reg.hscDbwait

/-- A victim finds its bucket (R97): same sector's slot, a free permitted slot, or back-invalidation. -/
def Mach.spillIn (m : Mach) (h : Nat) (v : Victim) (d : Line) : Mach :=
  let set := (setOf v.sec).toNat
  match slotFind d (tagOf v.sec) with
  | some i => m.spillTo h v d i
  | none => match firstBelow 8 fun i => m.slotFor i (v.w.getD false) && !(slotOf d i).getLsbD 0 with
    | some i => (m.addSpc h set (m.bktNo v.sec) 1 0).spillTo h v d i
    | none => (m.bktSet h (m.bktOf h v.sec) (.evictBiv v.sec)).bivStart h v

/-- Begin, or go on with, the eviction of a victim (R97, R101). -/
def Mach.evict (m : Mach) (h : Nat) (sec : BitVec 39) : Mach :=
  match (m.slice h).victim sec with
  | none => m
  | some v =>
    let m := m.ensureSet h (setOf sec).toNat
    let s := m.slice h
    let a := m.bktOf h sec
    let mine := s.bkts.find? fun b => b.addr = a
    let biv := s.busy.any fun e => e.2.kind = .biv && e.2.inSector sec && e.2.ph ≠ .qheld && e.2.ph ≠ .reserve
    if biv then m
    else if m.spillDown then m.bivStart h v
    else match mine with
      | some b => if b.use = .evictBiv sec then m.bivStart h v else m
      | none =>
        let held := s.busy.any fun e => e.2.kind = .biv && e.2.inSector sec && e.2.ph = .qheld
        if s.bktFull || (v.evac && !held && s.freeCrow.isNone) || v.w.isNone then m
        else
          -- an evacuation's spill works in a reserved entry (R111)
          let m := if v.evac && !held then match s.freeCrow with
              | some t => m.setTe h t { st := .active, kind := .biv, pool := .crow, ph := .qheld, key := lineKey sec false }
              | none => m
            else m
          let set := (setOf sec).toNat
          if ssSpc (m.ss h set) = 0 then
            let i := if m.parted && v.w.getD false then 6 else 0
            ((m.bktAdd h a (.evictWr sec)).addSpc h set (m.bktNo sec) 1 0).spillTo h v 0 i
          else (m.bktAdd h a (.evictRd sec)).bktRead h a

/-- An eviction by bucket write ends: the victim leaves the buffer (R97). -/
def Mach.evictEnd (m : Mach) (h : Nat) (sec : BitVec 39) : Mach :=
  let m := m.modS h fun s => { s with vbuf := s.vbuf.filter fun v => v.sec ≠ sec }
  match (m.slice h).busy.find? fun e => e.2.kind = .biv && e.2.inSector sec && e.2.ph = .qheld with
  | some (t, _) => m.endTe h t
  | none => m

/-- The way of a sector whose copy has been removed is freed, unless a transaction has used the entry again (R99). -/
def Mach.copyEnd (m : Mach) (h : Nat) (sec : BitVec 39) : Mach :=
  let set := (setOf sec).toNat
  match m.findWay h sec with
  | some w =>
    let e := enSetSpf (m.entry h set w) false
    if enSt e false = hsI && enSt e true = hsI && !enImp e then m.freeWay h set w else m.putEntry h set w e
  | none => m

/-- Remove the stale spill copy of an entry whose lines are both I (R99, R101). -/
def Mach.copyRemove (m : Mach) (h : Nat) (sec : BitVec 39) : Mach :=
  let set := (setOf sec).toNat
  let m := m.ensureSet h set
  match m.findWay h sec with
  | none => m
  | some w =>
    let e := m.entry h set w
    if !(enSpf e && !enImp e && enSt e false = hsI && enSt e true = hsI) then m
    else if m.spillDown then m.copyEnd h sec
    else
      let a := m.bktOf h sec
      if (m.slice h).bktBusy a || (m.slice h).bktFull then m else (m.bktAdd h a (.copyRd sec true)).bktRead h a

/-- The address of bucket `j` of a set in HSn's share (R93). -/
def Mach.setBucket (m : Mach) (h set j : Nat) : PA :=
  let z := m.fld Reg.glbSpsize 0 6
  BitVec.ofNat 52 ((m.pair Reg.glbSpbaseLo Reg.glbSpbaseHi).toNat + (m.slice h).ls * 2 ^ (z - 5) + (set * 2 ^ (z - 25) + j) * 64)

/-- The set a bucket belongs to, from its address. -/
def Mach.setOfBkt (m : Mach) (h : Nat) (a : PA) : Nat :=
  let z := m.fld Reg.glbSpsize 0 6
  ((a.toNat - ((m.pair Reg.glbSpbaseLo Reg.glbSpbaseHi).toNat + (m.slice h).ls * 2 ^ (z - 5))) / 64) / 2 ^ (z - 25)

/-- Read the next bucket of the recount that runs, or end it (R442). -/
def Mach.recountNext (m : Mach) (h : Nat) : Mach :=
  match (m.slice h).rcn with
  | none => m
  | some (set, j, n) =>
    if m.spillDown then m.modS h fun s => { s with rcn := none }
    else if j < 2 ^ (m.fld Reg.glbSpsize 0 6 - 25) then
      let a := m.setBucket h set j
      if (m.slice h).bktBusy a || (m.slice h).bktFull then m else (m.bktAdd h a (.recount set)).bktRead h a
    else
      let m := m.modS h fun s => { s with rcn := none }
      if (m.slice h).recounting set then m else m.setSpc h set n

/-- Start the recount of the lowest set that awaits one, or go on with one that waits for the bucket table (R442). -/
def Mach.recount (m : Mach) (h : Nat) : Mach :=
  if m.spillDown then m.modS h fun s => { s with rcn := none, rcq := [] }
  else match (m.slice h).rcn with
    | some _ => if (m.slice h).bkts.any fun b => (match b.use with | .recount _ => true | _ => false) then m else m.recountNext h
    | none => match (m.slice h).rcq with
      | [] => m
      | set :: r => (m.modS h fun s => { s with rcq := r, rcn := some (set, 0, 0) }).recountNext h

/-- A scrubbed bucket is finished (Table 09-3): it is counted, and a set that the range covers gets its exact count with its last
bucket, unless a recount is to give it (R264, R442). -/
def Mach.scrubCount (m : Mach) (h : Nat) (a : PA) (kept : Nat) : Mach :=
  match m.tmp with
  | none => m
  | some t =>
    let set := m.setOfBkt h a
    let per := 2 ^ (m.fld Reg.glbSpsize 0 6 - 25)
    let t := { t with busy := t.busy - 1 }
    let m := (m.setPair Reg.tmpPosLo Reg.tmpPosHi (a.setWidth 64)).progress Reg.tmpPct (min 9999 ((t.sent - t.busy) * 64 * 10000 / 2 ^ t.log2))
    if per * 64 ≤ 2 ^ t.log2 then
      let old := match t.scr.find? fun x => x.1 = h && x.2.1 = set with | some x => x.2.2 | none => ([], 0)
      let rest := t.scr.filter fun x => !(x.1 = h && x.2.1 = set)
      if old.1.length + 1 = per then
        let m := { m with tmp := some { t with scr := rest } }
        if (m.slice h).recounting set then m else m.setSpc h set (old.2 + kept)
      else { m with tmp := some { t with scr := (h, set, (a.toNat / 64 % per) :: old.1, old.2 + kept) :: rest } }
    else { m with tmp := some t }

/-- Scrub a bucket that has been read (R264): clear misplaced and stale slots, write it back if it changed. -/
def Mach.scrubIn (m : Mach) (h : Nat) (a : PA) (d : Line) : Mach :=
  let set := m.setOfBkt h a
  let m := (m.ensureSet h set).checkSet h set
  let (m, d', n) := (List.range 8).foldl (fun (x : Mach × Line × Nat) i =>
    let (m, d', n) := x
    let w := slotOf d i
    if !w.getLsbD 0 then x
    else
      let sec := sectorOf (BitVec.ofNat 14 set) (enTag w)
      let clear := setLineWord d' i (w &&& ~~~ (1#64))
      if m.bktOf h sec ≠ a || (lsOf (secOff sec)).toNat ≠ (m.slice h).ls then (m, clear, n + 1)
      else match m.findWay h sec with
        | some k => (m.putEntry h set k (enSetSpf (m.entry h set k) false), clear, n + 1)
        | none => if ((m.slice h).victim sec).isSome then (m, clear, n + 1) else x) (m, d, 0)
  let m := m.count Reg.tmpSpclr n
  if n = 0 then (m.bktDel h a).scrubCount h a (slotCount d)
  else
    let m := m.addSpc h set (a.toNat / 64 % 2 ^ (m.fld Reg.glbSpsize 0 6 - 25)) 0 n
    (m.bktSet h a (.scrubWr (slotCount d'))).bktWrite h a d'

-- ===== the owner sweep of one entry (R324) =====

/-- Does a precise entry's line `l1` name a fenced agent as owner? -/
def ownsLine (e : W64) (l1 : Bool) (a : Nat) : Bool :=
  (enSt e l1 = hsX || enSt e l1 = hsOS) && (enOwn e l1).toNat = a

/-- Resolve what a fenced agent leaves on one line of a precise entry (R324): an owned line is lost, the other agents
present get SNI from a Crow's Nest entry with a snoop data buffer (R275), and the agent's presence bit is cleared. `attr` is the
region, none where its walk faulted. False where no entry or no buffer is free. -/
def Mach.sweepLine (m : Mach) (h set w a : Nat) (l1 : Bool) (attr : Option (BitVec 16)) : Mach × Bool :=
  let e := m.entry h set w
  let key := lineKey (sectorOf (BitVec.ofNat 14 set) (enTag e)) l1
  let dst := enPres e &&& m.liveAgents
  if !ownsLine e l1 a then (m.storeEntry h set w (trim e l1 (agBit a)), true)
  else match (m.slice h).freeCrow, (m.slice h).freeDb 128 48 with
    | none, _ | _, none => (m, false)
    | some t, some b =>
      let m := (((m.bump h Reg.hscLostown).err h 7).count Reg.rvpLostcnt).modS h fun s =>
        { s with osw := s.osw.map fun o => { o with lostN := o.lostN + 1 } }
      let m := (m.cremaWrite h key).clrMons h key
      let m := if dst = 0 then m.sweepWrite h key attr
        else
          let e : TE := { st := .active, kind := .sweep, pool := .crow, ph := .collect, key, attr, pend := dst, sbuf := some b, snp := { sni := dst } }
          ((m.setTe h t e).modS h fun s => s.setDb b { te := some t }).snoop h t .sni key (agents dst) 0 false 0
      (m.storeEntry h set w (trim (enSetLine e l1 hsI 0) l1 (agBit a)), true)

-- ===== bucket returns =====

/-- A bucket read returned poison or an uncorrectable error (Table 04-5): every slot is freed, the set is imprecise. -/
def Mach.bktBad (m : Mach) (h : Nat) (a : PA) (set : Nat) : Mach :=
  let m := m.putSs h set (ssBit (ssSetSpc (m.ss h set) 4096) 45 true)
  let m := m.modS h fun s => { s with rcq := insertSorted set s.rcq }
  ((m.sfError h 3 set).bktSet h a .errWr).bktWrite h a 0

/-- A bucket read returns (R86, R97, R99, R264, R324, R442). -/
def Mach.bktReturn (m : Mach) (h : Nat) (a : PA) (bad : Bool) (d : Line) : Mach :=
  match (m.slice h).bkts.find? fun b => b.addr = a with
  | none => m
  | some b =>
    let set := m.setOfBkt h a
    match b.use with
    | .lookup t =>
      if bad then (m.bktBad h a set).lookup h t
      else match slotFind d (tagOf (keySec (m.te h t).key)) with
        | some i => m.refillWay h t (slotOf d i)
        | none => (m.bktDel h a).missWay h t
    | .evictRd sec =>
      if bad then m.bktBad h a set
      else match (m.slice h).victim sec with
        | some v => m.spillIn h v d
        | none => m.bktDel h a
    | .copyRd sec _ =>
      if bad then (m.bktBad h a set).copyEnd h sec
      else match slotFind d (tagOf sec) with
        | some i =>
          let m := (m.addSpc h set (m.bktNo sec) 0 1).bktSet h a (.copyWr sec true)
          m.bktWrite h a (setLineWord d i (slotOf d i &&& ~~~ (1#64)))
        | none => (m.bktDel h a).copyEnd h sec
    | .recount s =>
      let m := if bad then m.bktBad h a set else m.bktDel h a
      let m := m.modS h fun sl => { sl with
        rcq := if bad then sl.rcq.erase s else sl.rcq
        rcn := sl.rcn.map fun x => (x.1, x.2.1 + 1, x.2.2 + (if bad then 0 else slotCount d)) }
      m.recountNext h
    | .scrubRd => if bad then (m.bktBad h a set).bktSet h a (.scrubWr 0) else m.scrubIn h a d
    | .sweepRd s =>
      if bad then m.bktBad h a set
      else match (m.slice h).osw with
        | none => m.bktDel h a
        | some o =>
          -- a slot that names the fenced agent is refilled, and the sweep then meets it in its way
          (List.range 8).foldl (fun m i =>
            let w := slotOf d i
            let sec := sectorOf (BitVec.ofNat 14 s) (enTag w)
            let names := (enPres w).getLsbD o.agent || ownsLine w false o.agent || ownsLine w true o.agent
            if !(w.getLsbD 0 && names) || (m.findWay h sec).isSome || ((m.slice h).victim sec).isSome then m
            else match m.takeWay h sec (m.parted && decide (6 ≤ i)) with
              | .ok (m, k) => (m.install h s k w).bump h Reg.hscSphit
              -- without a way the bucket is read again
              | .error _ =>
                let j := (a.toNat / 64) % 2 ^ (m.fld Reg.glbSpsize 0 6 - 25)
                m.modS h fun sl => { sl with osw := sl.osw.map fun (o : OSweep) => { o with bkt := min o.bkt j } }) (m.bktDel h a)
    | _ => m

/-- A bucket write completes (R97, R99). -/
def Mach.bktWritten (m : Mach) (h : Nat) (a : PA) : Mach :=
  match (m.slice h).bkts.find? fun b => b.addr = a with
  | none => m
  | some b =>
    let m := m.bktDel h a
    match b.use with
    | .evictWr sec => m.evictEnd h sec
    | .copyWr sec _ => m.copyEnd h sec
    | .scrubWr n => m.scrubCount h a n
    | _ => m

/-- The spill directory's port is fenced (R101). -/
def Mach.spillFence (m : Mach) (h : Nat) : Mach :=
  let s := m.slice h
  -- sets still to be copied into a spare count as the others do
  let down := fun (e : Nat × BitVec 54) =>
    let w : BitVec 48 := e.2.setWidth 48
    if ssSpc w = 0 then e else (e.1, BitVec.ofNat 54 (rewrite 6 e.2.toNat (ssBit (ssSetSpc w 0) 45 true).toNat))
  let m := m.modS h fun s => { s with
    bkts := [], rcq := [], rcn := none
    copy := s.copy.map fun c => { c with ss := c.ss.map down }
    todo := s.todo.filter fun x => match x with | .read (.bkt _) _ _ => false | .write _ _ _ (.bkt _) _ _ _ _ => false | _ => true
    rbuf := s.rbuf.filter fun e => !(e.2.any fun b => match b.use with | .bkt _ => true | _ => false)
    dbuf := s.dbuf.filter fun e => !(match e.2.wr with | some w => (match w.use with | .bkt _ => true | _ => false) | none => false) }
  let m := s.ss.foldl (fun m e =>
    let w := m.ss h e.1
    if ssSpc w = 0 then m else m.putSs h e.1 (ssBit (ssSetSpc w 0) 45 true)) m
  s.bkts.foldl (fun m b => match b.use with
    | .lookup t => m.missImp h t
    | .evictRd sec | .evictWr sec | .evictBiv sec => m.evict h sec
    | .copyRd sec _ | .copyWr sec _ => m.copyEnd h sec
    | _ => m) m

-- ===== rebuilds and the set sweep =====

/-- Start the oldest queued rebuild (R103): its entry joins both lines' lists, and sends when it is first on both. -/
def Mach.rebuildStart (m : Mach) (h : Nat) : Mach :=
  match (m.slice h).rbq, (m.slice h).freeCrow with
  | (sec, sus) :: r, some t =>
    let m := m.modS h fun s => { s with rbq := r }
    let e : TE := { kind := .rebuild, pool := .crow, key := lineKey sec false, suspect := sus, ord := (m.slice h).seq }
    let m := (m.modS h fun s => { s with seq := s.seq + 1 }).enter h t e
    if (m.te h t).st = .active then m.crowStart h t else m
  | _, _ => m

/-- The sets of a slice with simp = 1, in ascending order. -/
def Slice.simpSets (s : Slice) : List Nat := (s.ss.filter fun e => ssSimp (e.2.setWidth 48)).map (·.1)

/-- One tag of the set sweep (R106). -/
def Mach.sweepTag (m : Mach) (h : Nat) : Mach :=
  let s := m.slice h
  let start := fun (m : Mach) => match (m.slice h).simpSets with
    | [] => m.modS h fun s => { s with swp := none }
    | l => (m.modS h fun s => { s with swp := some { sets := l, done := 0, tag := 0, queued := [] } }).setReg (hsA h Reg.hsSfswPct) 0
  match s.swp with
  | none => start m
  | some w =>
    let tags := 2 ^ (m.hlog2 - 21)
    match w.sets with
    | [] => start m
    | set :: rest =>
      if tags ≤ w.tag then
        if w.queued ≠ [] then m
        else
          let m := m.putSs h set (ssBit (m.ss h set) 45 false)
          let total := w.done + w.sets.length
          let m := m.progress (hsA h Reg.hsSfswPct) (if rest = [] then 10000 else min 9999 ((w.done + 1) * 10000 / total))
          let m := m.modS h fun s => { s with swp := some { w with sets := rest, done := w.done + 1, tag := 0 }, susp := s.susp.erase set }
          if rest = [] then start m else m
      else
        let m := m.checkSet h set
        let sec := sectorOf (BitVec.ofNat 14 set) (BitVec.ofNat 25 w.tag)
        let m := (m.setReg (hsA h Reg.hsSfswPosLo) (BitVec.ofNat 32 w.tag)).setReg (hsA h Reg.hsSfswPosHi) (BitVec.ofNat 32 set)
        let total := (w.done + w.sets.length) * tags
        let go := fun (m : Mach) (q : List (BitVec 39)) =>
          let m := m.progress (hsA h Reg.hsSfswPct) (min 9999 ((w.done * tags + w.tag + 1) * 10000 / max 1 total))
          m.modS h fun s => { s with swp := some { w with tag := w.tag + 1, queued := q } }
        let skip := (lsOf (secOff sec)).toNat ≠ s.ls || (m.findWay h sec).isSome || ((m.slice h).victim sec).isSome
        if skip then go m w.queued
        else if 32 ≤ (m.slice h).rbq.length then m
        else go (m.queueRebuild h sec) (w.queued ++ [sec])

-- ===== banks and evacuation =====

/-- The next valid way in the scope of the engine from its position (R111): way and set. -/
def Slice.nextWay (s : Slice) (ways : List Nat) (set way : Nat) : Option (Nat × Nat) :=
  s.ss.findSome? fun e =>
    if e.1 < set then none
    else (ways.find? fun w => (set < e.1 || way ≤ w) && ssValid (e.2.setWidth 48) w).map fun w => (e.1, w)

/-- The evacuation engine starts: on bank `b`, or as a sort (R111, R114). -/
def Mach.evacGo (m : Mach) (h : Nat) (b : Option Nat) : Mach :=
  let m := m.modS h fun s =>
    { s with
      bank := match b with | some k => s.bank.setIfInBounds k .evac | none => s.bank
      sort := s.sort && b.isSome
      evac := some { bank := b, set := 0, way := 0 } }
  (m.setReg (hsA h Reg.hsSfevPos) 0).setReg (hsA h Reg.hsSfevPct) 0

/-- The engine's work ends (R111 to R114): an evacuated bank goes OFF, an aborted one returns to ON. A sort that awaits the engine
then starts. -/
def Mach.evacEnd (m : Mach) (h : Nat) (e : Evac) : Mach :=
  let m := m.modS h fun s => { s with evac := none }
  let m := match e.bank with
    | some b =>
      if e.aborted then m.modS h fun s => { s with bank := s.bank.setIfInBounds b .on }
      else
        -- a bank under self-test stays powered (R384)
        let m := m.modS h fun s => s.bankOff b
        let m := if m.mbist.any fun (t : Mbist) => t.hs = h && !t.crm && t.bank = b then m else m.domTo (sliceDom h (1 + b)) .off
        m.setReg (hsA h Reg.hsSfevPct) 10000
    | none => if e.aborted then m else m.setReg (hsA h Reg.hsSfevPct) 10000
  if (m.slice h).sort then m.evacGo h none else m

/-- One step of the evacuation engine (R111, R112, R114): an owed move, or the next valid way. Where the partition is in force, and
for a sort, `world` is what the region of the entry's sector gives. -/
def Mach.evacStep (m : Mach) (h : Nat) (world : BitVec 39 → Option Bool) : Mach × Option (BitVec 39) :=
  let s := m.slice h
  match s.evac with
  | none => (m, none)
  | some e =>
    match s.mvt.find? fun x => !(s.sectorBusy x.1) with
    | some x => (m.owedMove h x.1, none)
    | none =>
      let ways := match e.bank with | some b => (List.range 4).map (4 * b + ·) | none => List.range 16
      match (if e.aborted then none else s.nextWay ways e.set e.way) with
      | none =>
        let m := if e.aborted then m else m.setReg (hsA h Reg.hsSfevPos) 16383
        if s.mvt = [] then (m.evacEnd h e, none) else (m, none)
      | some (set, w) =>
        let m := m.checkSet h set
        let m := m.setReg (hsA h Reg.hsSfevPos) (BitVec.ofNat 32 set)
        let m := m.setReg (hsA h Reg.hsSfevPct) (BitVec.ofNat 32 (set * 10000 / 16384))
        let next := fun (m : Mach) => m.modS h fun s => { s with evac := s.evac.map fun e => { e with set, way := w + 1, world := none } }
        if !ssValid (m.ss h set) w then (next m, none)
        else
          let sec := sectorOf (BitVec.ofNat 14 set) (enTag (m.entry h set w))
          match if m.parted || e.bank.isNone then e.world <|> world sec else some false with
          | none => (m, some sec)
          | some b =>
            if !m.moves h w b then (next m, none)
            else if (m.slice h).sectorBusy sec then
              if (m.slice h).mvt.length < 32 then (next (m.modS h fun s => { s with mvt := s.mvt ++ [(sec, b)] }), none) else (m, none)
            else match m.moveEntry h set w b with
              | some m => (next m, none)
              | none => (m, none)

/-- Is `b` the last ON bank permitted to either world (R110, R113)? -/
def Mach.lastBank (m : Mach) (h b : Nat) : Bool :=
  [false, true].any fun w => m.bankFor b w &&
    !((List.range 4).any fun k => k ≠ b && m.bankFor k w && (m.slice h).bank.getD k .off = .on)

/-- BANK_AUTO_OFF (R110): an ON bank with no valid entry and no chosen way goes OFF. -/
def Mach.bankAutoOff (m : Mach) (h b : Nat) : Mach :=
  let s := m.slice h
  let held := s.busy.any fun e => !e.2.hit && e.2.kind.isLine && (e.2.way.any fun w => w / 4 = b)
  if s.bank.getD b .off = .on && m.bit (hsA h Reg.hsSfctl) 0 && s.bankCount b = 0 && !held && !m.lastBank h b then
    (m.modS h fun s => { (s.bankOff b) with auto := s.auto ||| (1#4 <<< b) }).domTo (sliceDom h (1 + b)) .off
  else m

end Sys2Proof.Machine
end

