-- ==== Sys2Proof/Machine/Queue.lean ====
section
/-! DEFINITION. Carafe queue objects: operations, descriptors, residency, windows, page-in and page-out, doorbells, commands,
breaks and hand-over (R207 to R237). -/

namespace Sys2Proof.Machine

-- ===== QIDs, slots, descriptors =====

/-- Is a QID in the S range (R236)? -/
def Mach.qidSec (m : Mach) (q : BitVec 20) : Bool := decide (m.fld Reg.qobWcfg 16 11 ≤ q.toNat / 1024)
/-- Is a QID being handed over (R237)? -/
def Mach.qidMoving (m : Mach) (q : BitVec 20) : Bool :=
  match m.qho with | some o => decide (o.first ≤ q.toNat ∧ q.toNat < o.last) | none => false
/-- The physical slice of a QID (R29). -/
def Mach.qidHs (m : Mach) (q : BitVec 20) : Nat := m.hsOf (q.toNat % 32)
/-- The key of a QID (R121). -/
def qidKey (q : BitVec 20) : BitVec 41 := (1 : BitVec 1) ++ q.setWidth 40
/-- The QID of an entry. -/
def TE.qid (e : TE) : BitVec 20 := e.key.setWidth 20
/-- The residency slot of a queue. -/
def Slice.qslot (s : Slice) (q : BitVec 20) : Option (Nat × QSlot) :=
  s.slot.findSome? fun e => match e.2 with | some v => if v.qid = q then some (e.1, v) else none | none => none
/-- Write a slot. -/
def Slice.setSlot (s : Slice) (i : Nat) (v : Option QSlot) : Slice := { s with slot := s.slot.set none i v }
/-- Write an occupied slot's entry: an armed injection leaves the parity of one of its bytes wrong (R220, R430). -/
def Mach.putSlot (m : Mach) (h i : Nat) (v : QSlot) : Mach :=
  let (m, f) := m.inject h 7
  m.modS h fun s => s.setSlot i (some { v with bad := v.bad.or f })
/-- The CRC stored with a window line, which is Crema data (R231, R430). -/
def Mach.winCrc (m : Mach) (h : Nat) (d : Line) : Mach × BitVec 32 :=
  let (m, f) := m.inject h 4
  (m, BitVec.ofNat 32 (flipBit (lineCrc d).toNat f))
/-- Is slot `i` permitted to a world (R236)? -/
def Mach.slotPermit (m : Mach) (i : Nat) (sec : Bool) : Bool :=
  let n := 1024 - m.fld Reg.qobWcfg 0 11
  if sec then decide (n ≤ i) else decide (i < n)

/-- The offset of line `n` of a ring (R208). -/
def Mach.ringOff (m : Mach) (ring : PA) (cap : Nat) (n : W64) : Off :=
  m.offPa (ring.toNat + (n.toNat % (2 ^ cap / 8)) * 64)
/-- The line of a position. -/
def lineNo (p : W64) : W64 := p >>> 3

/-- Word 0 of a descriptor (Table 08-4). -/
def descW0 (st : BitVec 2) (sec notify nlost : Bool) (cap : BitVec 5) (cause : BitVec 4) (q : BitVec 20) : W64 :=
  (0 : BitVec 12) ++ q ++ (0 : BitVec 12) ++ cause ++ (0 : BitVec 3) ++ cap ++ (0 : BitVec 3) ++ BitVec.ofBool nlost ++
    BitVec.ofBool notify ++ BitVec.ofBool sec ++ st
/-- A slot's descriptor in a state. -/
def QSlot.desc (v : QSlot) (st : BitVec 2) (cause : BitVec 4 := 0) (zero : Option (Fin 5) := none) : Line :=
  let p := fun (i : Fin 5) (x : W64) => if zero = some i then 0 else x
  lineOf [descW0 st v.sec v.notify v.nlost v.cap cause v.qid, v.ring.setWidth 64, p 0 v.tail, p 1 v.read, p 2 v.rel, p 3 v.mark,
    v.dba.setWidth 64, v.dbv]

/-- The order of R207: release ≤ mark ≤ read ≤ tail ≤ release + C, modulo 2^64. -/
def ptrsOk (cap : Nat) (tail read rel mark : W64) : Bool :=
  let d := fun x : W64 => (x - rel).toNat
  decide (d mark ≤ d read ∧ d read ≤ d tail ∧ d tail ≤ 2 ^ cap)

/-- Does a ring satisfy R208? -/
def Mach.ringOk (m : Mach) (ring : W64) (cap : Nat) : Bool :=
  decide (6 ≤ cap ∧ cap ≤ 28) && aligned ring.toNat (cap + 3) && decide (ring.toNat < 2 ^ 52) && (m.homed ring.toNat).isSome &&
    (m.homed (ring.toNat + 2 ^ (cap + 3) - 1)).isSome

/-- Is a READY descriptor malformed (R218)? -/
def Mach.descMal (m : Mach) (q : BitVec 20) (d : Line) : Bool :=
  let w := lineWord d
  let w0 := w 0
  let cap := (w0.extractLsb' 8 5).toNat
  decide (w0 &&& 0xFFF00000FFF0E0E0#64 ≠ 0) || decide (w0.extractLsb' 32 20 ≠ q) || (w0.getLsbD 2 != m.qidSec q) ||
  !m.ringOk (w 1) cap || decide ((w 6).toNat ≥ 2 ^ 52) || !aligned (w 6).toNat 3 || (m.homed (w 6).toNat).isNone ||
  !ptrsOk cap (w 2) (w 3) (w 4) (w 5)

-- ===== ending an operation =====

/-- A CMQ (Table 08-2). -/
def cmqMsg (status count : Nat) (nlost : Bool) (pos word level : W64) : Msg :=
  let w0 : W64 := BitVec.ofNat 64 (status + count * 256 + (if nlost then 4096 else 0))
  { op := .cmq, data := lineOf [w0, pos, word, level] }

/-- The nlost of a queue as its slot holds it, 0 where it is not resident. -/
def Mach.qNlost (m : Mach) (h : Nat) (q : BitVec 20) : Bool := ((m.slice h).qslot q).any fun x => x.2.nlost

/-- End a QOP with CMQ (R213), and count it. -/
def Mach.cmq (m : Mach) (h t : Nat) (status count : Nat) (nlost : Bool) (pos word level : W64) : Mach :=
  let e := m.te h t
  let sent := !m.orphan e && !e.pz
  let m := if sent then m.bump64 h Reg.hscQopLo else m
  let m := if sent && status = 2 then m.bump h Reg.hscQfull else if sent && status = 1 then m.bump h Reg.hscQempty else m
  m.finish h t (cmqMsg status count nlost pos word level)

/-- A queue command ends with a result (R228). -/
def Mach.qcmdEnd (m : Mach) (h t : Nat) (result : Nat) : Mach :=
  ({ m with qcmd := none }.setFld Reg.qobStat 0 4 result).endTe h t

/-- Write a descriptor line (R217). -/
def Mach.descWrite (m : Mach) (h : Nat) (q : BitVec 20) (d : Line) : Mach :=
  if m.descDown then m else m.askWrite h .mwr m.descPort (m.offPa (m.descPa q)) .desc d

/-- The class and code of a break (Table 08-6). -/
def breakCls (cause : Nat) : Cls := if cause = 4 || cause = 6 || cause = 7 || cause = 8 then .c else .d

/-- Slot `i` empties. A ring read still outstanding for it brings nothing into the windows of a later queue, and no walk waits for it
any longer (R221, R223). -/
def Mach.dropSlot (m : Mach) (h i : Nat) : Mach :=
  let mine := fun (u : RUse) => match u with | .qhead j _ => decide (j = i) | .qtail j _ => decide (j = i) | _ => false
  let keep := fun (w : Waiter) => match w with
    | .head h' j _ => !(decide (h' = h) && decide (j = i))
    | .pout h' j _ => !(decide (h' = h) && decide (j = i))
    | _ => true
  (m.modS h fun s => { (s.setSlot i none) with
    rbuf := s.rbuf.map fun e => (e.1, e.2.map fun b => if mine b.use then { b with drop := true } else b)
    todo := s.todo.filter fun x => match x with | .read u _ _ => !mine u | _ => true }).modG (grpOf h) fun v => { v with
    walks := v.walks.map fun e => (e.1, e.2.map fun k => { k with wait := k.wait.filter fun x => keep x.1 })
    queue := v.queue.filter fun x => keep x.1 }

/-- Break a queue (R230): its slot is cleared, its descriptor written BROKEN, the active QOP ends. -/
def Mach.qBreak (m : Mach) (h : Nat) (q : BitVec 20) (cause : Nat) (desc : Line) (bad : Option Nat := none) : Mach :=
  let (m, nlost) := match (m.slice h).qslot q with
    | some (i, v) => ((m.dropSlot h i).descWrite h q (v.desc 3 (BitVec.ofNat 4 cause) (bad.map Config.slotPointer)), v.nlost)
    | none => (m.descWrite h q desc, (lineWord desc 0).getLsbD 4)
  let m := ((m.bump h Reg.hscQbrk).err h 5).capture
    { src := h, code := 0x16, cls := breakCls cause, akind := 2, addr := q.setWidth 52 }
  match (m.slice h).busy.find? fun e => decide (e.2.st = TeSt.active) && e.2.hkey = qidKey q with
  | some (t, e) => match e.kind with
    | .qop _ => m.cmq h t 3 0 nlost 0 0 0
    | _ => m
  | none => m

/-- A BROKEN descriptor made from one that was read (R230). -/
def brokenDesc (d : Line) (cause : Nat) : Line :=
  let w0 := (lineWord d 0 &&& ~~~ (0xF0003#64)) ||| 3 ||| BitVec.ofNat 64 (cause * 65536)
  setLineWord d 0 w0

-- ===== ring regions (R222) =====

/-- The outcome of a ring lookup. -/
inductive Ring where
  | ok (port : Nat)
  | bad (cause : Nat)
  | walk
  deriving DecidableEq, Repr

/-- Judge a ring leaf (R222, R225). -/
def Mach.ringLeaf (m : Mach) (sec : Bool) : Option (BitVec 16) → Ring
  | none => .bad 6
  | some a =>
    if !(atQob a && atWb a && !atIo a && atSec a == sec) then .bad 6
    else if m.portDown (atPort a) then .bad 7 else .ok (atPort a)

/-- Look a ring line up for an entry. -/
def Mach.ringOf (m : Mach) (h t : Nat) (off : Off) (sec : Bool) : Ring :=
  match (m.te h t).reg.find? fun x => x.1.extractLsb' 12 34 = off.extractLsb' 12 34 with
  | some x => m.ringLeaf sec x.2
  | none => match m.rcFind h off with
    | some a => m.ringLeaf sec (some a)
    | none => .walk

/-- Wait on a walk for a ring line. -/
def Mach.ringWalk (m : Mach) (h t : Nat) (off : Off) : Mach × WalkOut :=
  (m.modTe h t fun e => { e with woff := some off }).startWalk h (.te h t) off

-- ===== windows (R221, R231) =====

/-- Is a head load of slot `i` under way? -/
def Mach.headBusy (m : Mach) (h i : Nat) : Bool :=
  ((m.slice h).rbuf.any fun e => e.2.any fun b => (match b.use with | .qhead j _ => decide (j = i) | _ => false) && !b.drop) ||
  ((m.slice h).todo.any fun x => match x with | .read (.qhead j _) _ _ => decide (j = i) | _ => false) ||
  (let mine := fun (w : Waiter) => match w with | .head h' j _ => decide (h' = h) && decide (j = i) | _ => false
   ((m.group (grpOf h)).walks.any fun e => e.2.any fun w => w.wait.any fun x => mine x.1) || ((m.group (grpOf h)).queue.any fun x => mine x.1))

/-- The word of a window at a position. -/
def winWord (w : Line) (p : W64) : W64 := lineWord w (p.toNat % 8)

/-- A ring line is read into a slot's head window, which holds no line until it returns (R221, R239). -/
def Mach.headRead (m : Mach) (h i : Nat) (ln : W64) (port : Nat) (off : Off) : Mach :=
  let m := m.modS h fun s => { s with slot := s.slot.map fun (x : Nat × Option QSlot) => if x.1 = i then (i, x.2.map fun (v : QSlot) => { v with hline := none }) else x }
  (m.bump h Reg.hscQrefill).askRead h (.qhead i ln) port off

/-- load_head (R221): the aliased case, or the MRD of the line at read. `known` is the leaf where a walk gave it. -/
def Mach.loadHead (m : Mach) (h i : Nat) (known : Option (Option (BitVec 16)) := none) : Mach × WalkOut :=
  match (m.slice h).slot.get none i with
  | none => (m, [])
  | some v =>
    let ln := lineNo v.read
    if ln = lineNo v.tail then (m.modS h fun s => s.setSlot i (some { v with hline := none }), [])
    else if v.hline = some ln then (m, [])
    else
      let off := m.ringOff v.ring v.cap.toNat ln
      let go := fun (a : Option (BitVec 16)) => match m.ringLeaf v.sec a with
        | .ok p => m.headRead h i ln p off
        | .bad c => m.qBreak h v.qid c 0
        | .walk => m
      match known with
      | some a => (go a, [])
      | none => match m.rcFind h off with
        | some a => (go (some a), [])
        | none => if m.walking (.head h i ln) then (m, []) else m.startWalk h (.head h i ln) off

/-- The MWM of a partly filled tail window (R223, R235). -/
def Mach.tailWrite (m : Mach) (h : Nat) (v : QSlot) (port : Nat) : Mach :=
  let n := v.tail.toNat % 8
  if n = 0 then m
  else m.askWrite h .mwm port (m.ringOff v.ring v.cap.toNat (lineNo v.tail)) .qwin v.twin (byteMask 0 (8 * n))

/-- Clear a slot: ways 14 and 15 serve unlocked lines again (R223). -/
def Mach.clearSlot (m : Mach) (h i : Nat) : Mach := ((m.inject h 7).1.dropSlot h i).bump h Reg.hscQpgout

/-- Page a slot out with write-back (R223), its tail line's leaf known where it is needed. -/
def Mach.pageOut (m : Mach) (h i : Nat) (v : QSlot) (port : Nat) : Mach :=
  if v.bad.isSome then m.qBreak h v.qid 2 0 v.bad
  else if crc32c 64 v.twin.toNat ≠ v.tcrc && v.tail.toNat % 8 ≠ 0 then m.qBreak h v.qid 1 0
  else ((m.tailWrite h v port).descWrite h v.qid (v.desc 1)).clearSlot h i

/-- Page out a slot marked for it once nothing holds or waits on its QID (R232, R233). In a drain, a queue whose ring port is fenced
stays as it is, RESIDENT in DRAM (R233). -/
def Mach.pageOutTry (m : Mach) (h i : Nat) (known : Option (Option (BitVec 16)) := none) : Mach × WalkOut :=
  match (m.slice h).slot.get none i with
  | none => (m, [])
  | some v =>
    let k := qidKey v.qid
    if !v.out || (m.slice h).held k || (m.slice h).waited k || m.descDown then (m, [])
    else if v.tail.toNat % 8 = 0 then (m.pageOut h i v 16, [])
    else
      let off := m.ringOff v.ring v.cap.toNat (lineNo v.tail)
      let go := fun (a : Option (BitVec 16)) => match m.ringLeaf v.sec a with
        | .ok p => m.pageOut h i v p
        | .bad c => if c = 7 && m.drain.isSome then m else m.qBreak h v.qid c 0
        | .walk => m
      let w : Waiter := .pout h i (lineNo v.tail)
      match known with
      | some a => (go a, [])
      | none => match m.rcFind h off with
        | some a => (go (some a), [])
        | none => if m.walking w then (m, []) else m.startWalk h w off

/-- Mark every resident queue of a slice to be paged out, and page out those that can be. -/
def Mach.pageOutAll (m : Mach) (h : Nat) : Mach × WalkOut :=
  let m := m.modS h fun s => { s with slot := s.slot.map fun e => (e.1, e.2.map fun v => { v with out := true }) }
  (m.slice h).slot.foldl (fun (x : Mach × WalkOut) e =>
    let (m, o) := x.1.pageOutTry h e.1
    (m, x.2 ++ o)) (m, [])

-- ===== doorbells (R226, R227) =====

/-- A doorbell is lost (R227). -/
def Mach.bellLost (m : Mach) (h : Nat) (q : BitVec 20) : Mach :=
  let m := (((m.bump h Reg.hscQdblost).count Reg.qobNlost).setBits Reg.qobNstat 1).trigger 8
  match (m.slice h).qslot q with
  | some (i, v) => m.putSlot h i { v with nlost := true }
  | none => if m.descDown then m else m.modS h fun s => { s with nlq := s.nlq ++ [q] }

/-- The first doorbell not issued yet takes a buffer. -/
def bellBuf (k : Nat) : List Bell → List Bell
  | [] => []
  | b :: r => if b.wb.isNone then { b with wb := some k } :: r else b :: bellBuf k r

/-- Issue doorbells in order (R226). `known` is the leaf that a walk gave for an address. -/
def Mach.bellGo (m : Mach) (h : Nat) (known : Option (Off × Option (BitVec 16)) := none) : Mach × WalkOut :=
  (List.range 32).foldl (fun (x : Mach × WalkOut × Option (Off × Option (BitVec 16)) × Bool) _ =>
    let (m, out, known, stop) := x
    if stop then x
    else match (m.slice h).dbq.find? fun b => b.wb.isNone with
      | none => (m, out, none, true)
      | some b =>
        let off := m.offPa b.dba.toNat
        let lose := fun (m : Mach) => (m.modS h fun s => { s with dbq := s.dbq.erase b }).bellLost h b.qid
        let look := match known.filter fun k => k.1 = off with | some k => some k.2 | none => (m.rcFind h off).map some
        match look with
        | none =>
          let (m, o) := if m.walking (.bell h off) then (m, []) else m.startWalk h (.bell h off) off
          (m, out ++ o, none, true)
        | some none => (lose m, out, none, false)
        | some (some a) =>
          if !((atDev a || atNc a) && atSec a == b.sec) || m.portDown (atPort a) then (lose m, out, none, false)
          else match (m.slice h).freeDb 184 8 with
            | none => (m, out, none, true)
            | some k =>
              let lo := b.dba.toNat % 64
              let m := (m.modS h fun s => { s with dbq := bellBuf k s.dbq }).bump h Reg.hscQdbell
              let data : Line := BitVec.ofNat 512 (b.dbv.toNat <<< (8 * lo))
              (m.issueWrite h k .mwm (atPort a) off data (byteMask lo 8) (.doorbell b.qid), out, none, false))
    (m, [], known, false) |> fun x => (x.1, x.2.1)

-- ===== operations (R212) =====

/-- Append words to a tail window: the slot, and the completed line if one was completed (R212, R221). -/
def QSlot.append (v : QSlot) (ws : List W64) : QSlot × Option (W64 × Line) :=
  ws.foldl (fun (x : QSlot × Option (W64 × Line)) w =>
    let (v, c) := x
    let twin := setLineWord v.twin (v.tail.toNat % 8) w
    let tail := v.tail + 1
    if tail.toNat % 8 = 0 then
      let n := lineNo v.tail
      let v := if lineNo v.read = n then { v with hwin := twin, hcrc := lineCrc twin, hline := some n } else v
      ({ v with tail, twin := 0, tcrc := lineCrc 0 }, some (n, twin))
    else ({ v with tail, twin, tcrc := lineCrc twin }, c)) (v, none)

/-- The words a QENQ or QENQ8 appends: none while its DTW is awaited. A DTW with psn = 1 gives its words as another does (R209;
notes/assumptions/93.md). -/
def Mach.qWords (m : Mach) (h t : Nat) : Option (List W64) :=
  let e := m.te h t
  if e.kind = .qop 1 then some [e.word]
  else (m.wdata h t).map fun x => (List.range e.qn.toNat).map (lineWord x.2)

/-- After a queue entry ends: a page-out that waited for it, and doorbells. -/
def Mach.qAfter (m : Mach) (h i : Nat) (x : WalkOut) : Mach × WalkOut :=
  let (m, o) := m.pageOutTry h i
  let (m, o2) := m.bellGo h
  (m, x ++ o ++ o2)

/-- Run a QOP on its resident queue (R212, R216). A QDEQ whose load_head breaks the queue has ended OK with its word (R212, R213,
R230; notes/assumptions/94.md). -/
def Mach.qRun (m : Mach) (h t i : Nat) (v : QSlot) : Mach × WalkOut :=
  let e := m.te h t
  let lev := fun (v : QSlot) => v.tail - v.read
  let op := match e.kind with | .qop o => o.toNat | _ => 0
  let ok := fun (m : Mach) (v : QSlot) (n : Nat) (pos word : W64) =>
    (if op = 4 then m else m.putSlot h i v).cmq h t 0 n v.nlost pos word (lev v)
  let tailBad := crc32c 64 v.twin.toNat ≠ v.tcrc
  match v.bad with
  | some b => (m.qBreak h v.qid 2 0 (some b), [])
  | none =>
  if op = 1 || op = 2 then
    let m := if (m.wdata h t).isSome then m.badBuf h t else m
    if (m.te h t).pz then (m.cmx h t .poison, [])
    else match m.qWords h t with
    | none => if m.orphan e then (m.finish h t (cmqMsg 0 0 false 0 0 0), []) else (m.modTe h t fun e => { e with ph := .qdtw }, [])
    | some ws =>
      if 2 ^ v.cap.toNat < (v.tail - v.rel).toNat + ws.length then
        m.cmq h t 2 0 v.nlost 0 0 (lev v) |>.qAfter h i []
      else
        let (v', c) := v.append ws
        let off := m.ringOff v.ring v.cap.toNat (lineNo v.tail)
        let ring := if c.isSome then m.ringOf h t off v.sec else .ok 16
        if tailBad && v.tail.toNat % 8 ≠ 0 then (m.qBreak h v.qid 1 0, [])
        else match ring with
          | .walk => (m.modTe h t fun e => { e with ph := .qdesc }).ringWalk h t off
          | .bad cause => (m.qBreak h v.qid cause 0, [])
          | .ok port =>
            let empty := v.read = v.tail
            let (m, f) := m.inject h 4
            -- a line completed is read out of the window, which finds an error just injected (R231, R430)
            if f.isSome && c.isSome then (m.qBreak h v.qid 1 0, [])
            else
            let v' := { v' with tcrc := BitVec.ofNat 32 (flipBit v'.tcrc.toNat f) }
            let m := match c with
              | some (_, d) => m.askWrite h .mwr port off .qwin d
              | none => m
            let bell := empty && v.notify
            let full := 32 ≤ (m.slice h).dbq.length
            let m := if bell && !full then m.modS h fun s =>
                { s with dbq := s.dbq ++ [{ qid := v.qid, sec := v.sec, dba := v.dba, dbv := v.dbv }] } else m
            let m := ok m v' ws.length v.tail 0
            let m := if bell && full then m.bellLost h v.qid else m
            m.qAfter h i []
  else
    -- the position whose line the operation needs in a window
    let pos := if op = 6 then v.mark else v.read
    let needs := (op = 3 || op = 4 || op = 6) && !(op ≠ 6 && v.read = v.tail)
    let alias_ := lineNo pos = lineNo v.tail
    let headOk := v.hline = some (lineNo pos)
    let busy := m.headBusy h i
    -- only a word read out of a window has its CRC checked (R231)
    let reads := op = 3 || op = 4
    if (op = 3 || op = 4) && v.read = v.tail then m.cmq h t 1 0 v.nlost 0 0 0 |>.qAfter h i []
    else if needs && !alias_ && (busy || !headOk) then
      -- an earlier head read is awaited, then the head window is reloaded from the ring (R216)
      if busy then (m.modTe h t fun e => { e with ph := .qhead }, [])
      else
        let off := m.ringOff v.ring v.cap.toNat (lineNo pos)
        match m.ringOf h t off v.sec with
        | .walk => (m.modTe h t fun e => { e with ph := .qdesc }).ringWalk h t off
        | .bad cause => (m.qBreak h v.qid cause 0, [])
        | .ok port => ((m.modTe h t fun e => { e with ph := .qhead }).headRead h i (lineNo pos) port off, [])
    else if reads && alias_ && tailBad then (m.qBreak h v.qid 1 0, [])
    else if reads && !alias_ && crc32c 64 v.hwin.toNat ≠ v.hcrc then
      -- a head-window mismatch is corrected from the ring (R231)
      let m := ((m.bump h Reg.hscQwcrc).err h 4).capture { src := h, code := 0x15, counted := true, akind := 2, addr := v.qid.setWidth 52 }
      let m := m.modS h fun s => s.setSlot i (some { v with hline := none })
      let off := m.ringOff v.ring v.cap.toNat (lineNo pos)
      match m.ringOf h t off v.sec with
      | .walk => (m.modTe h t fun e => { e with ph := .qdesc }).ringWalk h t off
      | .bad cause => (m.qBreak h v.qid cause 0, [])
      | .ok port => ((m.modTe h t fun e => { e with ph := .qhead }).headRead h i (lineNo pos) port off, [])
    else match op with
      | 5 => (ok m { v with mark := v.read } 0 v.read 0).qAfter h i []
      | 6 => (ok m { v with read := v.mark, hline := if alias_ then none else v.hline } 0 v.mark 0).qAfter h i []
      | 7 =>
        let mark := if (v.mark - v.rel).toNat < (v.read - v.rel).toNat then v.read else v.mark
        (ok m { v with rel := v.read, mark } 0 v.read 0).qAfter h i []
      | _ =>
        let w := winWord (if alias_ then v.twin else v.hwin) v.read
        if op = 4 then (ok m v 1 v.read w).qAfter h i []
        else
          let v' := { v with read := v.read + 1 }
          let m := ok m v' 1 v.read w
          if v'.read.toNat % 8 = 0 then
            let (m, o) := m.loadHead h i
            m.qAfter h i o
          else m.qAfter h i []

-- ===== page-in (R223, R224) =====

/-- Is the tail window of slot `i` still to come from the ring? -/
def Mach.tailBusy (m : Mach) (h i : Nat) : Bool :=
  ((m.slice h).rbuf.any fun e => e.2.any fun b => (match b.use with | .qtail j _ => decide (j = i) | _ => false) && !b.drop) ||
  ((m.slice h).todo.any fun x => match x with | .read (.qtail j _) _ _ => decide (j = i) | _ => false) ||
  (match (m.slice h).slot.get none i with
   | some v => (m.slice h).busy.any fun e => decide (e.2.st = .active) && e.2.hkey = qidKey v.qid && decide (e.2.ph = .qslot)
   | none => false)

/-- A page-in's reads have all returned. -/
def Mach.pageInDone (m : Mach) (h i : Nat) : Bool := !m.headBusy h i && !m.tailBusy h i

/-- Does a Tamper INVCRM with il hold the page-in of a queue (R262)? -/
def Mach.tmpHolds (m : Mach) (q : BitVec 20) (ring : W64) (cap : Nat) : Bool :=
  match m.tmp with
  | some t => t.op = 1 && t.il && (t.all || overlap t.base.toNat t.log2 (m.offPa ring.toNat).toNat (cap + 3) ||
      inRange t.base.toNat t.log2 (m.offPa (m.descPa q)).toNat)
  | none => false

/-- The ring reads of a page-in and its descriptor write (R223). Each read looks its line up when it is issued, and a bad leaf breaks
the queue that is now resident (R222, R225). -/
def Mach.pageReads (m : Mach) (h t i : Nat) : Mach × WalkOut :=
  match (m.slice h).slot.get none i with
  | none => (m, [])
  | some v =>
    let cap := v.cap.toNat
    let toff := m.ringOff v.ring cap (lineNo v.tail)
    let hoff := m.ringOff v.ring cap (lineNo v.read)
    let needT := v.tail.toNat % 8 ≠ 0
    let needH := lineNo v.read ≠ lineNo v.tail
    let wait := m.modTe h t fun e => { e with ph := .qslot }
    match (if needT then m.ringOf h t toff v.sec else .ok 16), (if needH then m.ringOf h t hoff v.sec else .ok 16) with
    | .bad c, _ => (m.qBreak h v.qid c 0, [])
    | .walk, _ => wait.ringWalk h t toff
    | _, .bad c => (m.qBreak h v.qid c 0, [])
    | _, .walk => wait.ringWalk h t hoff
    | .ok tp, .ok hp =>
      let m := m.modTe h t fun e => { e with ph := .qpage, aux := i }
      let m := if needT then m.askRead h (.qtail i t) tp toff else m
      let m := if needH then m.headRead h i (lineNo v.read) hp hoff else m
      let m := m.descWrite h v.qid (v.desc 2)
      if needT || needH then (m, []) else m.qRun h t i v

/-- Fill slot `i` from a READY descriptor (R223). A queue that pages in while its engine is disabled, its array drains or a reset
drains pages out again (R232, R233). -/
def Mach.pageFill (m : Mach) (h t i : Nat) (d : Line) : Mach × WalkOut :=
  let w := lineWord d
  let e := m.te h t
  let v : QSlot :=
    { qid := e.qid, sec := (w 0).getLsbD 2, cap := (w 0).extractLsb' 8 5, notify := (w 0).getLsbD 3, nlost := (w 0).getLsbD 4
      ring := (w 1).setWidth 52, tail := w 2, read := w 3, rel := w 4, mark := w 5, dba := (w 6).setWidth 52, dbv := w 7
      last := e.tseq, twin := 0, tcrc := lineCrc 0, hline := none, hwin := 0, hcrc := lineCrc 0
      out := !m.bit Reg.qobCtl 0 || !m.crmOn h || m.drain.isSome }
  let m := (m.putSlot h i v).modS h fun s => { s with
    ctag := (s.ctag.del (crIdx 14 i)).del (crIdx 15 i), cdat := (s.cdat.del (crIdx 14 i)).del (crIdx 15 i) }
  (m.bump h Reg.hscQpgin).pageReads h t i

/-- The slot a page-in takes: the lowest empty one permitted, else the eligible queue whose last operation started
earliest (R223, R224, R144). -/
def Mach.pickSlot (m : Mach) (h : Nat) (sec : Bool) : Option (Nat × Option QSlot) :=
  let s := m.slice h
  match firstBelow 1024 fun i => m.slotPermit i sec && (s.slot.get none i).isNone && !(sec && s.zeroise.any fun z => decide (z.pos < z.slots)) with
  | some i => some (i, none)
  | none =>
    let el := s.slot.filterMap fun e => match e.2 with
      | some v => if m.slotPermit e.1 sec && !s.held (qidKey v.qid) && !s.waited (qidKey v.qid) then some (e.1, v) else none
      | none => none
    (el.foldl (fun (b : Option (Nat × QSlot)) x => match b with
      | some y => if x.2.last < y.2.last then some x else some y
      | none => some x) none).map fun x => (x.1, some x.2)

/-- Make a queue resident from its descriptor (R223): a slot, from a victim whose page-out holds its QID key while its ring's region is
walked (R224), then the fill. Nothing starts while the descriptor port is fenced (R225). -/
def Mach.pageIn (m : Mach) (h t : Nat) (d : Line) : Mach × WalkOut :=
  let q := (m.te h t).qid
  let w := lineWord d
  let cap := ((w 0).extractLsb' 8 5).toNat
  let wait := fun (m : Mach) (p : Phase) => m.modTe h t fun e => { e with ph := p, rd := .have false d }
  if m.descDown then (m.cmx h t .tgtdown, [])
  else if m.tmpHolds q (w 1) cap then (wait m .qheld, [])
  else
    let mine := (m.slice h).slot.find? fun x => x.2.any fun v => v.vict = some t
    match mine <|> m.pickSlot h ((w 0).getLsbD 2) with
    | none => (wait m .qslot, [])
    | some (i, none) => m.pageFill h t i d
    | some (i, some v) =>
      if v.tail.toNat % 8 = 0 then (m.pageOut h i v 16).pageFill h t i d
      else
        let voff := m.ringOff v.ring v.cap.toNat (lineNo v.tail)
        match m.ringOf h t voff v.sec with
        | .walk => ((wait m .qslot).modS h fun s => s.setSlot i (some { v with vict := some t })).ringWalk h t voff
        | .bad c => (m.qBreak h v.qid c 0).pageFill h t i d
        | .ok p => (m.pageOut h i v p).pageFill h t i d

/-- Serve a QOP at its turn, or go on with it (R212, R223). -/
def Mach.qGo (m : Mach) (h t : Nat) : Mach × WalkOut :=
  let e := m.te h t
  -- the order of turn starts (R224)
  let m := if e.ph = .turn then (m.modTe h t fun e => { e with tseq := (m.slice h).seq }).modS h fun s => { s with seq := s.seq + 1 } else m
  -- while the Crema array is OFF every QOP of the slice completes DISABLED (R366)
  if !m.crmOn h then (m.cmq h t 5 0 (m.qNlost h e.qid) 0 0 0, [])
  else match (m.slice h).qslot e.qid with
  | some (i, v) =>
    if e.ph = .qpage && !m.pageInDone h i then (m, [])
    else if e.ph = .qslot then m.pageReads h t i
    else
      let v := if e.ph = .turn then { v with last := (m.te h t).tseq } else v
      (m.modS h fun s => s.setSlot i (some v)).qRun h t i v
  | none =>
    match e.ph, e.rd with
    | .qslot, .have _ d => m.pageIn h t d
    | .qheld, .have _ d => m.pageIn h t d
    | .qdesc, _ => (m, [])
    | _, _ =>
      if m.descDown then (m.cmx h t .tgtdown, [])
      else ((m.modTe h t fun e => { e with ph := .qdesc }).askRead h (.qdesc t) m.descPort (m.offPa (m.descPa e.qid)), [])

-- ===== commands (R228, R229) and hand-over (R237) =====

/-- Copy a queue's state into the QOB_INFO registers (Table 08-5). -/
def Mach.qInfo (m : Mach) (resident : Bool) (d : Line) : Mach :=
  let w := lineWord d
  let w0 := w 0
  let info : W32 := ((0 : BitVec 12) ++ w0.extractLsb' 16 4 ++ (0 : BitVec 3) ++ w0.extractLsb' 8 5 ++ (0 : BitVec 2) ++ BitVec.ofBool resident ++
    BitVec.ofBool (w0.getLsbD 4) ++ BitVec.ofBool (w0.getLsbD 3) ++ BitVec.ofBool (w0.getLsbD 2) ++ w0.extractLsb' 0 2 : BitVec 32)
  (((m.setReg Reg.qobInfo0 info).setPair Reg.qobInfoTailLo Reg.qobInfoTailHi (w 2)).setPair Reg.qobInfoReadLo Reg.qobInfoReadHi (w 3)
    |>.setPair Reg.qobInfoRelLo Reg.qobInfoRelHi (w 4)).setPair Reg.qobInfoMarkLo Reg.qobInfoMarkHi (w 5)

/-- A RESET descriptor (Table 08-5). -/
def resetDesc (d : Line) : Line :=
  let w0 := (lineWord d 0 &&& ~~~ (0xF0013#64)) ||| 1
  lineOf [w0, lineWord d 1, 0, 0, 0, 0, lineWord d 6, lineWord d 7]

/-- A queue command at its turn (R225, R229). -/
def Mach.qcmdGo (m : Mach) (h t : Nat) : Mach × WalkOut :=
  let e := m.te h t
  let op := match e.kind with | .qcmd o => o.toNat | _ => 0
  let down := m.descDown
  let readDesc := fun (m : Mach) => ((m.modTe h t fun e => { e with ph := .qdesc }).askRead h (.ddesc t) m.descPort (m.offPa (m.descPa e.qid)), [])
  match (m.slice h).qslot e.qid with
  | some (i, v) =>
    -- a slot whose parity fails breaks its queue, and the command goes on with the descriptor (R230)
    if v.bad.isSome then
      let m := m.qBreak h v.qid 2 0 v.bad
      if op = 5 then (m.qcmdEnd h t 0, []) else if down then (m.qcmdEnd h t 4, []) else readDesc m
    else match op with
    | 1 => (m.qcmdEnd h t 1, [])
    | 4 => ((m.qInfo true (v.desc 2)).qcmdEnd h t 0, [])
    | 2 => if down then (m.qcmdEnd h t 1, []) else (((m.clearSlot h i).descWrite h e.qid 0).qcmdEnd h t 0, [])
    | 3 => if down then (m.qcmdEnd h t 1, []) else (((m.clearSlot h i).descWrite h e.qid (resetDesc (v.desc 1))).qcmdEnd h t 0, [])
    | _ =>
      if down then (m.qcmdEnd h t 1, [])
      else if v.tail.toNat % 8 = 0 then ((m.pageOut h i v 16).qcmdEnd h t 0, [])
      else
        let off := m.ringOff v.ring v.cap.toNat (lineNo v.tail)
        match m.ringOf h t off v.sec with
        | .walk => (m.modTe h t fun e => { e with ph := .qdesc }).ringWalk h t off
        | .bad c => ((m.qBreak h v.qid c 0).qcmdEnd h t 0, [])
        | .ok p => ((m.pageOut h i v p).qcmdEnd h t 0, [])
  | none =>
    if op = 5 then (m.qcmdEnd h t 0, [])
    else if e.ph = .qdesc then (m, [])
    else if down then (m.qcmdEnd h t 4, [])
    else readDesc m

/-- A queue command's descriptor read returns (R229). -/
def Mach.qcmdDesc (m : Mach) (h t : Nat) (bad : Bool) (d : Line) : Mach :=
  let e := m.te h t
  let op := match e.kind with | .qcmd o => o.toNat | _ => 0
  let st := (lineWord d 0).extractLsb' 0 2
  if bad then m.qcmdEnd h t 4
  else match op with
    | 1 =>
      if st ≠ 0 then m.qcmdEnd h t 1
      else match m.qcmd with
        | some c => if m.descMal e.qid c.arg then m.qcmdEnd h t 3 else (m.descWrite h e.qid c.arg).qcmdEnd h t 0
        | none => m.endTe h t
    | 2 => if st = 0 then m.qcmdEnd h t 1 else (m.descWrite h e.qid 0).qcmdEnd h t 0
    | 3 => if st = 0 then m.qcmdEnd h t 1 else (m.descWrite h e.qid (resetDesc d)).qcmdEnd h t 0
    | _ => (m.qInfo false d).qcmdEnd h t 0

/-- The next QID of a hand-over, or its end (R237). -/
def Mach.qhoNext (m : Mach) : Mach :=
  match m.qho with
  | none => m
  | some o =>
    let n := o.last - o.first
    let m := m.setReg Reg.qobHoPct (BitVec.ofNat 32 ((o.cur + 1 - o.first) * 10000 / max 1 n))
    if o.cur + 1 < o.last then { m with qho := some { o with cur := o.cur + 1, going := false } }
    else ({ m with qho := none }.setFld Reg.qobWcfg 16 11 o.newFirst).setBits Reg.secIrq 2

/-- A handed-over QID's descriptor is zeroed and its entry ends (R237). -/
def Mach.qhoZero (m : Mach) (h t : Nat) : Mach := ((m.descWrite h (m.te h t).qid 0).endTe h t).qhoNext

/-- An internal request joins the engine's queue of four (R260). CP and the queue engine have one each at most, so it has room. -/
def Mach.tmpAsk (m : Mach) (o : TmpOp) : Mach := if m.tmpq.length < 4 then { m with tmpq := m.tmpq ++ [o] } else m

/-- The descriptor read of a hand-over returns: its ring is zero-filled by Tamper first. One that cannot be read is counted in
QOB_HOSKIP and zeroed (R237; notes/assumptions/95.md). -/
def Mach.qhoDesc (m : Mach) (h t : Nat) (bad : Bool) (d : Line) : Mach :=
  let w := lineWord d
  let cap := ((w 0).extractLsb' 8 5).toNat
  if bad then (m.count Reg.qobHoskip).qhoZero h t
  else if (w 0).extractLsb' 0 2 = 0 then m.qhoZero h t
  else if m.ringOk (w 1) cap then
    let op : TmpOp := { op := 4, base := m.offPa (w 1).toNat, log2 := cap + 3, il := false, all := false, owner := .device, why := .ring h t }
    (m.modTe h t fun e => { e with ph := .qfill }).tmpAsk op
  else (m.count Reg.qobHoskip).qhoZero h t

/-- A hand-over's entry at its turn (R237). -/
def Mach.qhoGo (m : Mach) (h t : Nat) : Mach :=
  let e := m.te h t
  let m := match (m.slice h).qslot e.qid with | some (i, _) => m.clearSlot h i | none => m
  (m.modTe h t fun e => { e with ph := .qdesc }).askRead h (.ddesc t) m.descPort (m.offPa (m.descPa e.qid))

/-- The nlost of a descriptor is set by a read-modify-write (R227). -/
def Mach.nlostDesc (m : Mach) (h t : Nat) (bad : Bool) (d : Line) : Mach :=
  let st := (lineWord d 0).extractLsb' 0 2
  let m := if !bad && (st = 1 || st = 3) then m.descWrite h (m.te h t).qid (setLineWord d 0 (lineWord d 0 ||| 16)) else m
  m.endTe h t

/-- A descriptor read of a QOP returns (R223). -/
def Mach.qDesc (m : Mach) (h t : Nat) (bad : Bool) (d : Line) : Mach × WalkOut :=
  let e := m.te h t
  let q := e.qid
  let st := (lineWord d 0).extractLsb' 0 2
  if bad then (m.qBreak h q 3 (lineOf [descW0 3 (m.qidSec q) false false 0 3 q]), [])
  else if st = 0 then (m.cmq h t 4 0 false 0 0 0, [])
  else if st = 3 then (m.cmq h t 3 0 ((lineWord d 0).getLsbD 4) 0 0 0, [])
  else if st = 2 then (m.qBreak h q 8 (brokenDesc d 8), [])
  else if m.descMal q d then (m.qBreak h q 4 (brokenDesc d 4), [])
  else (m.modTe h t fun e => { e with ph := .qslot, rd := .have false d }).pageIn h t d

/-- A ring read returns into a window (R221, R223, R230). -/
def Mach.qWindow (m : Mach) (h i : Nat) (head : Option W64) (bad : Bool) (d : Line) : Mach × WalkOut :=
  match (m.slice h).slot.get none i with
  | none => (m, [])
  | some v =>
    if bad then (m.qBreak h v.qid 5 0, [])
    else
      let (m, crc) := m.winCrc h d
      let m := match head with
        | some ln => m.putSlot h i { v with hwin := d, hcrc := crc, hline := some ln }
        | none => m.modS h fun s => s.setSlot i (some { v with twin := d, tcrc := crc })
      let v := ((m.slice h).slot.get none i).getD v
      match (m.slice h).busy.find? fun e => e.2.st = .active && e.2.hkey = qidKey v.qid && (e.2.ph = .qhead || e.2.ph = .qpage) with
      | some (t, e) => if e.ph = .qpage && !m.pageInDone h i then (m, []) else m.qRun h t i v
      | none => (m, [])

/-- The queue entries of each kind at their turn. -/
def Mach.qTurn (m : Mach) (h t : Nat) : Mach × WalkOut :=
  let e := m.te h t
  match e.kind with
  | .qop _ => m.qGo h t
  | .qcmd _ => m.qcmdGo h t
  | .qho => if m.descDown then (m, []) else (m.qhoGo h t, [])
  | .qnlost =>
    match (m.slice h).qslot e.qid with
    | some (i, v) => ((m.putSlot h i { v with nlost := true }).endTe h t, [])
    | none =>
      if m.descDown then (m.endTe h t, [])
      else ((m.modTe h t fun e => { e with ph := .qdesc }).askRead h (.ddesc t) m.descPort (m.offPa (m.descPa e.qid)), [])
  | _ => (m, [])

/-- The descriptor read of a command, hand-over or nlost entry returns. -/
def Mach.dDesc (m : Mach) (h t : Nat) (bad : Bool) (d : Line) : Mach :=
  match (m.te h t).kind with
  | .qcmd _ => m.qcmdDesc h t bad d
  | .qho => m.qhoDesc h t bad d
  | .qnlost => m.nlostDesc h t bad d
  | _ => m

end Sys2Proof.Machine
end

