-- ==== Sys2Proof/Machine/Crema.lean ====
section
/-! DEFINITION. Crema's locks, stride prefetch, disabling and ways (R250 to R259), and the Tamper engine (R260 to R265). -/

namespace Sys2Proof.Machine

-- ===== stride prefetch (R254 to R256) =====

/-- CRM_PFCFG.depth, from 1 to 8. -/
def Mach.pfDepth (m : Mach) : Nat := min 8 (max 1 (m.fld Reg.crmPfcfg 0 4))

/-- A line joins the prefetch queue, or is dropped where the queue is full or the line lies outside homed space (R255). -/
def Mach.pfJoin (m : Mach) (h : Nat) (off : Int) (sec : Bool) : Mach :=
  if off < 0 || (2 ^ m.hlog2 : Int) ≤ off || 16 ≤ (m.slice h).pfq.length then m.bump h Reg.hscPfdrop
  else m.modS h fun s => { s with pfq := s.pfq ++ [{ off, sec }] }

/-- Both lines of the sector of page `p` that this slice homes (R254). -/
def Mach.pfPage (m : Mach) (h : Nat) (p : Int) (sec : Bool) : Mach :=
  if p < 0 || (2 ^ 34 : Int) ≤ p then (m.bump h Reg.hscPfdrop).bump h Reg.hscPfdrop
  else
    let o := pageSector (BitVec.ofNat 34 p.toNat) (BitVec.ofNat 5 (m.slice h).ls)
    (m.pfJoin h o.toNat sec).pfJoin h (o.toNat + 64) sec

/-- Train the stream tracker of a demand read at its turn (R254). Trackers are listed least recently trained first. -/
def Mach.pfTrain (m : Mach) (h t : Nat) : Mach :=
  let e := m.te h t
  let page : Int := (offOf e.key).toNat / 4096
  let s := m.slice h
  let old := s.strm.find? fun x => x.agent = e.agent && x.rqid = e.rqid
  let rest := s.strm.filter fun x => !(x.agent = e.agent && x.rqid = e.rqid)
  match old with
  | none =>
    let n : Strm := { agent := e.agent, rqid := e.rqid, sec := e.sec, last := page, dp := 0, conf := 0, front := page }
    m.modS h fun s => { s with strm := (if rest.length < 64 then rest else rest.drop 1) ++ [n] }
  | some x =>
    if page = x.last then m.modS h fun s => { s with strm := rest ++ [x] }
    else
      let d := page - x.last
      let x := { x with last := page }
      let x := if d = x.dp then { x with conf := min (x.conf + 1) 3 }
        else { x with dp := if d.natAbs ≤ 16 then d else 0, conf := 0, front := page }
      let go := 1 ≤ x.conf && x.dp ≠ 0 && m.bit Reg.crmCtl 2 && m.bit Reg.crmCtl 0
      let (m, x) := if !go then (m, x) else (List.range m.pfDepth).foldl (fun (a : Mach × Strm) (k : Nat) =>
        let (m, x) := a
        let p := page + ((k : Int) + 1) * x.dp
        let beyond := if 0 < x.dp then x.front < p else p < x.front
        if beyond then (m.pfPage h p x.sec, { x with front := p }) else a) (m, x)
      m.modS h fun s => { s with strm := rest ++ [x] }

/-- Issue the first queued prefetch whose conditions hold; those that R255 drops leave the queue on the way. -/
def Mach.pfIssue (m : Mach) (h : Nat) : Mach :=
  (m.slice h).pfq.foldl (fun (x : Mach × Bool) p =>
    let (m, done) := x
    if done then x
    else
      let off : Off := BitVec.ofInt 46 p.off
      let k := keyOf off
      let drop := (m.modS h fun s => { s with pfq := s.pfq.erase p }).bump h Reg.hscPfdrop
      match m.rcFind h off with
      | none => (drop, false)
      | some a =>
        if !(atPf a && atAlloc a && m.crmClass off a) || (atSec a != p.sec) || (m.crmWay h k).isSome ||
          !(m.bit Reg.crmCtl 0 && m.bit Reg.crmCtl 2) then (drop, false)
        else
          let s := m.slice h
          let hk : BitVec 41 := (0 : BitVec 1) ++ k
          let port := atPort a
          let v := m.port port
          if s.held hk || s.waited hk || s.rbFree ≤ 8 || v.egr ≠ [] || v.peer.getD 6 0 = 0 || m.portDown port then x
          else
            let m := (m.modS h fun s => { s with pfq := s.pfq.erase p }).bump h Reg.hscPfiss
            (m.askRead h (.prefetch a) port off, true)) (m, false) |>.1

/-- PREFETCH_EXPIRY: the oldest queued prefetch is dropped (R255). -/
def Mach.pfExpire (m : Mach) (h : Nat) : Mach :=
  match (m.slice h).pfq with
  | [] => m
  | _ :: r => (m.modS h fun s => { s with pfq := r }).bump h Reg.hscPfdrop

/-- Clearing pf_en clears trackers and drops every queued prefetch (R256). -/
def Mach.pfOff (m : Mach) : Mach :=
  (m.clrBits Reg.crmCtl 4) |> fun m => (List.range 34).foldl (fun m h =>
    let n := (m.slice h).pfq.length
    let m := if n = 0 then m else m.bump h Reg.hscPfdrop n
    if (m.slice h).strm = [] && n = 0 then m else m.modS h fun s => { s with strm := [], pfq := [] }) m

-- ===== way disable, hand-over wipes =====

/-- The locked lines of a slice. -/
def Slice.locks (s : Slice) : Nat := (s.ctag.filter fun e => tgV (e.2.setWidth 48) && tgLk (e.2.setWidth 48)).length

/-- A lost lock (R253). -/
def Mach.lockLost (m : Mach) (h : Nat) : Mach := (m.setBits Reg.crmStat 8).bump h Reg.hscLklost

/-- Remove the lines of some ways of every set of a slice. -/
def Mach.dropWays (m : Mach) (h : Nat) (p : Nat → Bool) : Mach :=
  let s := m.slice h
  let lost := (s.ctag.filter fun e => p (e.1 / 1024) && tgV (e.2.setWidth 48) && tgLk (e.2.setWidth 48)).length
  let m := (List.range lost).foldl (fun m _ => m.lockLost h) m
  m.modS h fun s => { s with ctag := s.ctag.keep fun k => !p (k / 1024), cdat := s.cdat.keep fun k => !p (k / 1024) }

/-- The ways 8 to 13 of the S world for `n` S ways (R251). -/
def sWays (n : Nat) : List Nat := (List.range 6).filterMap fun i => if i < n then some (13 - i) else none
/-- Is way `w` lockable by a world (R251)? -/
def Mach.lockable (m : Mach) (w : Nat) (sec : Bool) : Bool :=
  decide (8 ≤ w ∧ w < 14) && ((sWays (m.fld Reg.crmLkcfg 0 3)).contains w == sec)

/-- A hand-over wipe starts in every active slice (R251). -/
def Mach.wipeStart (m : Mach) (n : Nat) : Mach :=
  let old := sWays (m.fld Reg.crmLkcfg 0 3)
  let new := sWays n
  let ways := (List.range 16).foldl (fun (a : BitVec 16) w => if old.contains w != new.contains w then a ||| (1#16 <<< w) else a) 0
  let m := m.setFld Reg.crmLkcfg 0 3 n
  m.active.foldl (fun m h => m.modS h fun s => { s with wipe := some (0, ways) }) m

/-- Is a lock-way wipe running in any slice? -/
def Mach.wiping (m : Mach) : Bool := m.slices.any fun e => e.2.wipe.isSome

/-- One set of a wipe (R251). -/
def Mach.wipeSet (m : Mach) (h : Nat) : Mach :=
  match (m.slice h).wipe with
  | none => m
  | some (set, ways) =>
    let m := (List.range 16).foldl (fun m w =>
      if !ways.getLsbD w then m
      else
        let m := if tgV (m.ctag h set w) && tgLk (m.ctag h set w) then m.lockLost h else m
        m.dropTag h set w) m
    let m := m.modS h fun s => { s with wipe := if set + 1 < 1024 then some (set + 1, ways) else none }
    if m.wiping then m else m.setBits Reg.secIrq 4

-- ===== locks (R252) =====

/-- A lock or unlock line ends (R252). -/
def Mach.lkEnd (m : Mach) (h t : Nat) : Mach :=
  let m := m.endTe h t
  match m.lk with
  | none => m
  | some k =>
    let k := { k with busy := k.busy - 1 }
    if k.busy = 0 && 2 ^ k.log2 ≤ k.sent * 64 then { m with lk := none }.setReg Reg.crmLkPct 10000 else { m with lk := some k }

/-- lock_line at its turn, the line's region known (R252). -/
def Mach.lockGo (m : Mach) (h t : Nat) : Mach :=
  let e := m.te h t
  let set := crmSet e.key
  let off := offOf e.key
  match e.attr with
  | none => (m.count Reg.crmLkskip).lkEnd h t
  | some a =>
    if !m.crmClass off a || (atSec a != e.sec) then (m.count Reg.crmLkskip).lkEnd h t
    else
      let m := m.checkTags h set
      let cur := m.crmWay h e.key
      let tag := fun w => m.ctag h set w
      match cur.filter fun w => tgLk (tag w) with
      | some _ => m.lkEnd h t
      | none => match cur.filter fun w => m.lockable w e.sec with
        | some w => (m.putTag h set w ((tag w ||| 64#48) &&& ~~~ (32#48) ||| (if e.sec then 32#48 else 0))).lkEnd h t
        | none => match firstBelow 16 fun w => m.lockable w e.sec && (m.slice h).wayClean w && !(tgV (tag w) && tgLk (tag w)) && m.crmOn h && !m.crBad h w with
          | none => (m.count Reg.crmLkfail).lkEnd h t
          | some k =>
            let m := match cur with | some w => m.dropTag h set w | none => m
            let m := (m.dropTag h set k).putTag h set k (mkTag e.key true true e.sec false true)
            if m.portDown (atPort a) then m.lkEnd h t
            else (m.askRead h (.fill set k) (atPort a) off).lkEnd h t

/-- unlock_line at its turn (R252). -/
def Mach.unlockGo (m : Mach) (h t : Nat) : Mach :=
  let e := m.te h t
  let set := crmSet e.key
  let m := m.checkTags h set
  match m.crmWay h e.key with
  | some w =>
    let g := m.ctag h set w
    let m := if tgLk g && (tgW g == e.sec) then m.putTag h set w (g &&& ~~~ (64#48)) else m
    m.lkEnd h t
  | none => m.lkEnd h t

/-- A locked line's fill or refill returns (R248, R249). -/
def Mach.lockFill (m : Mach) (h set w : Nat) (off : Off) (ok psn : Bool) (d : Line) : Mach :=
  let t := m.ctag h set w
  if ok && !psn && tgV t && tgRf t && tgKey t = keyOf off then (m.putTag h set w (t &&& ~~~ (8#48))).putLine h set w d else m

/-- At the MWC of a write to a line with rf = 1 the slice reads it again (R249). -/
def Mach.refill (m : Mach) (h port : Nat) (off : Off) : Mach :=
  let set := crmSet (keyOf off)
  match m.crmWay h (keyOf off) with
  | some w => if tgRf (m.ctag h set w) && !m.portDown port then m.askRead h (.fill set w) port off else m
  | none => m

/-- A shared tracker entry that is not lent, for queue commands, lock lines and ZERO lines (R229, R274). -/
def Mach.freeOwn (m : Mach) (h : Nat) : Option Nat := if 0 < m.sharedFree h then (m.slice h).freeTe else none

-- ===== Tamper (R260 to R265) =====

/-- The bytes an operation covers, as an offset base and a size; all of homed space, or of the spill directory. -/
def Mach.tmpRange (m : Mach) (o : TmpOp) : Nat × Nat :=
  if o.all then
    if o.op = 5 then ((m.offPa (m.pair Reg.glbSpbaseLo Reg.glbSpbaseHi).toNat).toNat, m.fld Reg.glbSpsize 0 6) else (0, m.hlog2)
  else (o.base.toNat, o.log2)

/-- An operation starts: its counts return to zero, and open write-combining buffers of its range close (R197, R265). -/
def Mach.tmpBegin (m : Mach) (o : TmpOp) : Mach :=
  let (b, s) := m.tmpRange o
  let o := { o with base := BitVec.ofNat 46 b, log2 := s, enOff := o.op = 1 && !m.bit Reg.crmCtl 0 }
  let m := { m with tmp := some o }
  let m := ((((m.setReg Reg.tmpLockskip 0).setReg Reg.tmpWskip 0).setReg Reg.tmpOskip 0).setReg Reg.tmpSpclr 0).setReg Reg.tmpPct 0
  let m := (m.setPair Reg.tmpPosLo Reg.tmpPosHi 0).setReg Reg.tmpStat (o.op.setWidth 32 <<< 4)
  m.active.foldl (fun m h =>
    let m := if (m.slice h).tmpPos = 0 then m else m.modS h fun s => { s with tmpPos := 0 }
    if (m.slice h).wc = [] then m else m.wcCloseAll h fun v => inRange b s (offOf v.key).toNat) m
/-- Start the next internal request when the engine is free (R260). -/
def Mach.tmpNext (m : Mach) : Mach :=
  match m.tmp, m.tmpq with
  | none, o :: r => { m with tmpq := r }.tmpBegin o
  | _, _ => m

/-- A Tamper operation ends with a result (R258, R265, R237). -/
def Mach.tmpEnd (m : Mach) (result : Nat) : Mach :=
  match m.tmp with
  | none => m
  | some o =>
    let m := { m with tmp := none }.trigger 7
    let m := m.setReg Reg.tmpStat (0x40000000#32 ||| (o.op.setWidth 32 <<< 4) ||| BitVec.ofNat 32 result)
    let m := if result = 0 then m.setReg Reg.tmpPct 10000 else m
    let m := if o.op = 1 && o.all && o.enOff && !m.bit Reg.crmCtl 0 && result = 0 then m.clrBits Reg.crmStat 1 else m
    let m := match o.why with
      | .ring h t => m.qhoZero h t
      | _ => m
    m.tmpNext

/-- A parity error in the Tamper engine's state ends its operation with ABORTED (Table 12-2). -/
def Mach.tmpParity (m : Mach) : Mach :=
  match m.tmp with
  | some o => if o.bad then { m with tmp := some { o with bad := false, abort := true } }.capture { src := 63, sub := 11, code := 0x32, counted := true }
              else m
  | none => m

/-- INVRC removes region-cache entries at once (Table 09-3), and marks the walks in flight, which keep it busy (R43). -/
def Mach.tmpStart (m : Mach) (o : TmpOp) : Mach :=
  let m := m.tmpBegin o
  if o.op = 3 then
    let (b, s) := m.tmpRange o
    let m := m.setPair Reg.tmpPosLo Reg.tmpPosHi (BitVec.ofNat 64 (m.hbase + b))
    m.rcInvalidate b s o.all true
  else m

/-- Does the running operation end: every active slice past its last set or slot (R262), or every line or bucket sent and
done? A stopped operation ends once its work in progress has (R265). -/
def Mach.tmpCheck (m : Mach) : Mach :=
  match m.tmp with
  | none => m
  | some o =>
    if o.abort then if o.busy = 0 then m.tmpEnd 5 else m
    else if o.op = 1 || o.op = 2 then
      let least := m.active.foldl (fun a h => min a (m.slice h).tmpPos) 1024
      let m := (m.setPair Reg.tmpPosLo Reg.tmpPosHi (BitVec.ofNat 64 (min least 1023))).progress Reg.tmpPct (min 9999 (least * 10000 / 1024))
      if least = 1024 then m.tmpEnd 0 else m
    else if o.op = 3 then if m.markedWalk true then m else m.tmpEnd 0
    else if 2 ^ o.log2 ≤ o.sent * 64 && o.busy = 0 then m.tmpEnd 0 else m

/-- The fill of the spill directory has written its first `n` lines, straight to the seed's port (R96, R263; notes/assumptions/19.md). -/
def Mach.fillTo (m : Mach) (n : Nat) : Mach :=
  match m.tmp with
  | none => m
  | some o =>
    let m := { m with tmp := some { o with sent := n } }
    let m := m.setPair Reg.tmpPosLo Reg.tmpPosHi (BitVec.ofNat 64 (m.hbase + o.base.toNat + (n - 1) * 64))
    (m.progress Reg.tmpPct (min 9999 (n * 64 * 10000 / 2 ^ o.log2))).tmpCheck

/-- One Crema set of an INVCRM sweep (R248, R262). -/
def Mach.invSet (m : Mach) (h : Nat) : Mach :=
  match m.tmp with
  | none => m
  | some o =>
    let set := (m.slice h).tmpPos
    if o.op ≠ 1 || o.abort || 1024 ≤ set || (m.slice h).role ≠ .active then m
    else
      let m := m.checkTags h set
      let m := (List.range 16).foldl (fun m w =>
        let t := m.ctag h set w
        if !tgV t || !inRange o.base.toNat o.log2 (offOf (tgKey t)).toNat || (decide (14 ≤ w) && (m.slice h).window set) then m
        else if o.owner = .ns && tgW t then m.count Reg.tmpWskip
        else if tgLk t then if o.il then (m.dropTag h set w).lockLost h else m.count Reg.tmpLockskip
        else m.dropTag h set w) m
      -- no read in flight for a line of the set fills Crema any longer (R248)
      let hit := fun (b : RBuf) => crmSet (keyOf b.off) = set
      let m := m.modS h fun s => { s with tmpPos := set + 1, rbuf := s.rbuf.map fun e =>
        (e.1, e.2.map fun b => if hit b then { b with fillOk := false } else b) }
      m.tmpCheck

/-- One residency slot of a FLUSHQW sweep (R235). -/
def Mach.flushSlot (m : Mach) (h : Nat) : Mach × WalkOut :=
  match m.tmp with
  | none => (m, [])
  | some o =>
    let i := (m.slice h).tmpPos
    if o.op ≠ 2 || o.abort || 1024 ≤ i || (m.slice h).role ≠ .active then (m, [])
    else
      let next := fun (m : Mach) => (m.modS h fun s => { s with tmpPos := i + 1 }).tmpCheck
      match (m.slice h).slot.get none i with
      | none => (next m, [])
      | some v =>
        let off := m.ringOff v.ring v.cap.toNat (lineNo v.tail)
        -- a tail window that its page-in has yet to read holds nothing that the ring does not
        if v.tail.toNat % 8 = 0 || m.tailBusy h i || !inRange o.base.toNat o.log2 off.toNat then (next m, [])
        else if o.owner = .ns && v.sec then (next (m.count Reg.tmpWskip), [])
        else
          let known := match o.known with
            | some (h', i', a) => if h' = h && i' = i then some a else none
            | none => none
          match (known <|> (m.rcFind h off).map some) with
          | none =>
            let w : Waiter := .pout h i (lineNo v.tail)
            if m.walking w then (m, []) else m.startWalk h w off
          | some a => match m.ringLeaf v.sec a with
            | .ok p =>
              if v.bad.isSome then (next (m.qBreak h v.qid 2 0 v.bad), [])
              else if crc32c 64 v.twin.toNat ≠ v.tcrc then (next (m.qBreak h v.qid 1 0), [])
              else (next (m.tailWrite h v p), [])
            | .bad c => (next (m.qBreak h v.qid c 0), [])
            | .walk => (next m, [])

/-- One bucket of a SCRUBSP (R264): the slice that owns its share reads it. -/
def Mach.scrubNext (m : Mach) : Mach :=
  match m.tmp with
  | none => m
  | some o =>
    if o.op ≠ 5 || o.abort || 2 ^ o.log2 ≤ o.sent * 64 || m.spillDown then m
    else
      let pa := m.hbase + o.base.toNat + o.sent * 64
      let z := m.fld Reg.glbSpsize 0 6
      let ls := (pa - (m.pair Reg.glbSpbaseLo Reg.glbSpbaseHi).toNat) / 2 ^ (z - 5)
      let h := m.hsOf ls
      let a : PA := BitVec.ofNat 52 pa
      let s := m.slice h
      let mine := (s.bkts.filter fun b => match b.use with | .scrubRd | .scrubWr _ => true | _ => false).length
      if s.bktBusy a || s.bktFull || 8 ≤ mine then m
      else
        let m := { m with tmp := some { o with sent := o.sent + 1, busy := o.busy + 1 } }
        (m.bktAdd h a .scrubRd).bktRead h a

end Sys2Proof.Machine
end

