-- ==== Sys2Proof/Machine/Turn.lean ====
section
/-! DEFINITION. Turns: what happens at the start of each kind of turn, non-cached and device accesses, and what follows a region
lookup (R62, R72, R73, R122, R159, R172, R188, R196 to R198, R219, R263). -/

namespace Sys2Proof.Machine

-- ===== non-cached and device regions (R73, R166, R188) =====

/-- May a write of this region be acknowledged early (R188, R189)? -/
def Mach.early (m : Mach) (a : BitVec 16) : Bool := !atWb a && atEack a && !m.bit Reg.glbWcctl 1

/-- The completion a write-class request or a far atomic ends with in a non-cached or device region. -/
def TE.ack (e : TE) : Msg :=
  match e.kind with
  | .scd => cmaMsg 1
  | .atm => cmaMsg e.opb.toNat
  | _ => { op := .cmp }

/-- End a request whose bytes have been written or are held for writing (R176, R188). -/
def Mach.ackWrite (m : Mach) (h t : Nat) (note : Bool := true) : Mach :=
  let e := m.te h t
  (m.clrMons h e.key (some (monIdx e.agent e.rqid))).finish h t e.ack note

/-- Issue a write of a non-cached or device region from buffer `b`; the completion goes with the data where early
acknowledgement applies, at the MWC otherwise (R188). -/
def Mach.ncIssue (m : Mach) (h t b : Nat) (op : Opc) (data : Line) (mask : Mask) : Mach :=
  let e := m.te h t
  let early := m.early e.at_
  let notes := match e.wo with | some n => if early then [(e.port, n)] else [] | none => []
  let m := m.modTe h t fun e => { e with ph := .mwc, dbuf := if e.dbuf = some b then none else e.dbuf,
                                         sbuf := if e.sbuf = some b then none else e.sbuf }
  let m := m.issueWrite h b op e.port_ (offOf e.key) data mask (if early then .demand else .deferred t) (some e.at_) early notes
  if early then (m.bump h Reg.hscEack).ackWrite h t false else m

/-- Merge a write into buffer `b` and acknowledge it (R197). -/
def Mach.wcMerge (m : Mach) (h t b : Nat) (v : WcBuf) (data : Line) (mask : Mask) : Mach :=
  let e := m.te h t
  let notes := match e.wo with | some n => v.notes ++ [(e.port, n)] | none => v.notes
  let v := { v with data := mergeLine mask data v.data, mask := v.mask ||| mask, notes, last := (m.slice h).seq }
  let m := m.modS h fun s => { (s.setWc b (some v)) with seq := s.seq + 1 }
  let m := ((m.bump h Reg.hscWcmrg).bump h Reg.hscEack).ackWrite h t false
  if v.mask = BitVec.allOnes 64 then m.wcClose h b else m

/-- The oldest write that waits for a write-combining buffer (R197). -/
def Slice.wcFirst (s : Slice) : Option Nat :=
  ((s.busy.filter fun e => e.2.ph = .wcWait).foldl (fun (b : Option (Nat × TE)) x => match b with
    | some y => if x.2.ord < y.2.ord then some x else some y
    | none => some x) none).map (·.1)

/-- For a write that waits, the open buffer merged into longest ago closes, unless one closes for a waiting write already (R197). -/
def Mach.wcEvict (m : Mach) (h : Nat) : Mach :=
  let s := m.slice h
  let open_ := s.wc.filterMap fun x => match x.2 with
    | some v => if v.wr.isNone then some (x.1, v.last) else none
    | none => none
  if s.wc.any fun x => x.2.any fun v => v.wr.isSome && v.evict then m
  else match open_.foldl (fun (best : Option (Nat × Nat)) x => match best with
      | some y => if x.2 < y.2 then some x else some y
      | none => some x) none with
    | some (k, _) => (m.wcClose h k).modS h fun s => s.setWc k ((s.wcb k).map fun v => { v with evict := true })
    | none => m

/-- A write of a non-cached or device region at its turn, or once its data, a buffer or an MWC lets it go on (R73, R196,
R197). -/
def Mach.ncWrite (m : Mach) (h t : Nat) : Mach :=
  let m := if (m.wdata h t).isSome then m.badBuf h t else m
  let e := m.te h t
  let a := e.at_
  if m.portDown e.port_ then m.cmx h t .tgtdown
  else match e.dbuf, m.wdata h t with
    | some b, some (psn, d) =>
      let mask := if e.kind = .wrp || e.kind = .scd then e.mask else BitVec.allOnes 64
      let comb := atNc a && m.early a && e.wcEn && m.bit Reg.glbWcctl 0 && !psn && e.kind ≠ .scd
      if comb then
        match (m.slice h).wcOpen e.key with
        | some k => match (m.slice h).wcb k with
          | some v => m.wcMerge h t k v d mask
          | none => m
        | none =>
          -- a buffer that has become free is the oldest waiting write's
          match if (m.slice h).wcFirst.all (· = t) then (m.slice h).freeWc else none with
          | some k =>
            let m := m.wcMerge h t k { key := e.key, data := 0, mask := 0, attr := a, notes := [], last := 0 } d mask
            if (m.slice h).wcFirst.isSome then m.wcEvict h else m
          | none => (m.modTe h t fun e => { e with ph := .wcWait }).wcEvict h
      else
        let m := m.wcFlush h e.key
        let m := if e.kind = .scd then m.bump h Reg.hscScdok else m
        m.ncIssue h t b (if psn then .mwp else if e.kind = .wrp || e.kind = .scd then .mwm else .mwr) d mask
    | _, _ =>
      -- the requester was fenced before its DTW: its bytes are not written (R130)
      if m.orphan e then m.finish h t e.ack else m.modTe h t fun e => { e with ph := .collect }

/-- A read of a non-cached or device region, or the operand of a far atomic, has returned (R73, R166). HSC_RSL counts an RSL
whatever its ending is (R183; notes/assumptions/92.md). -/
def Mach.ncEnd (m : Mach) (h t : Nat) : Mach :=
  let m := m.rbCrc h t
  let e := m.te h t
  let i := monIdx e.agent e.rqid
  let mon := fun (m : Mach) (ok : Bool) =>
    if e.kind ≠ .rsl then m
    else if ok && !m.orphan e then (m.bump h Reg.hscRsl).putMon h i (mkMon e.key false) else (m.bump h Reg.hscRsl).clrMon h i
  match e.rd with
  | .down => (mon m false).cmx h t .tgtdown
  | .have true _ => (mon m false).cmx h t .poison
  | .have false d =>
    if e.kind ≠ .atm then (mon m true).finish h t { op := .dtc, cmp := true, data := d }
    else
      let (new, old) := e.alu d
      let m := m.modTe h t fun e => { e with opb := BitVec.ofNat 128 old }
      if new = d then m.ackWrite h t
      else if m.portDown e.port_ then m.cmx h t .tgtdown
      else match e.sbuf with
        | some b => m.ncIssue h t b .mwm new (byteMask e.lo.toNat (2 ^ e.sz.toNat))
        | none => m
  | _ => m

/-- Start the read of a non-cached or device line; a far atomic reserves its snoop data buffer first (R275). -/
def Mach.ncRead (m : Mach) (h t : Nat) : Mach :=
  let e := m.te h t
  let go := fun (m : Mach) =>
    let m := m.modTe h t fun e => { e with ph := .collect }
    let m := m.startData h t (offOf e.key) e.port_ false
    if (m.te h t).rd = .down then m.ncEnd h t else m
  if e.kind ≠ .atm then go m
  else match (m.slice h).freeDb 128 48 with
    | some b => go ((m.modTe h t fun e => { e with sbuf := some b }).modS h fun s => s.setDb b { te := some t })
    | none =>
      let m := if e.ph ≠ .reserve then m.bump h Reg.hscDbwait else m
      m.modTe h t fun e => { e with ph := .reserve }

-- ===== the start of a turn =====

/-- An SCD whose monitor does not hold fails (R175). -/
def Mach.scdFail (m : Mach) (h t : Nat) (shadow : Bool) : Mach :=
  let m := m.bump h Reg.hscScdfail
  (if shadow then m.bump h Reg.hscScdshd else m).finish h t (cmaMsg (if shadow then 2 else 0))

/-- A far atomic of a coherent write-back region reserves its snoop data buffer at the start of its turn (R275). -/
def Mach.farStart (m : Mach) (h t : Nat) : Mach :=
  match (m.slice h).freeDb 128 48 with
  | some b => ((m.modTe h t fun e => { e with sbuf := some b, ph := .turn }).modS h fun s => s.setDb b { te := some t }).lookup h t
  | none => (if (m.te h t).ph ≠ .reserve then m.bump h Reg.hscDbwait else m).modTe h t fun e => { e with ph := .reserve }

/-- An MBS at its turn reserves one snoop data buffer for each line it names, then looks its sector up (R78, R275). In a region
that is not coherent write-back no agent holds a copy: it is answered at its turn, and clears the monitors on its lines (Table 06-3;
notes/assumptions/88.md). -/
def Mach.mbsTurn (m : Mach) (h t : Nat) : Mach :=
  let e := m.te h t
  if !atWb e.at_ then
    ((List.range 2).foldl (fun m l => if e.lines.getLsbD l then m.clrMons h (lineKey (keySec e.key) (l = 1)) else m) m).mbsEnd h t
  else
    let s := m.slice h
    let two := e.lines = 3
    let wait := (if e.ph ≠ .reserve then m.bump h Reg.hscDbwait else m).modTe h t fun e => { e with ph := .reserve }
    match s.freeDb 128 48 with
    | none => wait
    | some b =>
      let b2 := (firstBelow 48 fun i => decide (s.db (128 + i) = ({} : DBuf)) && decide (128 + i ≠ b)).map (128 + ·)
      if two && b2.isNone then wait
      else
        let m := (m.modTe h t fun e => { e with sbuf := some b, dbuf := if two then b2 else none }).modS h fun s => s.setDb b { te := some t }
        let m := match (if two then b2 else none) with | some b => m.modS h fun s => s.setDb b { te := some t } | none => m
        m.lookup h t

/-- A ZERO line at its turn (R263): skipped in device regions, where its walk faulted and, for an NS command, in S regions. -/
def Mach.zeroTurn (m : Mach) (h t : Nat) : Mach :=
  let e := m.te h t
  let skip := fun (m : Mach) (r : Nat) =>
    ((m.count r).endTe h t).zeroOver.tmpCheck
  match e.attr with
  | none => skip m Reg.tmpOskip
  | some a =>
    let ns := match m.tmp with | some o => decide (o.owner = .ns) | none => false
    if atDev a then skip m Reg.tmpOskip
    else if ns && atSec a then skip m Reg.tmpWskip
    else
      let m := m.wcFlush h e.key
      if atWb a then m.lookup h t
      else if !m.zeroCan h t (atPort a) then m.modTe h t fun e => { e with ph := .wbuf }
      else if m.portDown (atPort a) then ((m.lostWrite (atPort a) (offOf e.key)).endTe h t).zeroOver.tmpCheck
      else ((m.clrMons h e.key).askWrite h .mwr (atPort a) (offOf e.key) (.zero t) 0 (BitVec.allOnes 64) (some a)).endTe h t

/-- Requests whose turn closes the open write-combining buffer of their line (R198). -/
def TKind.closes : TKind → Bool
  | .rds | .rdo | .rdc | .rsl | .scd | .atm => true
  | _ => false

/-- Start the turn of an entry that holds its key and knows its region (R62 step 5). -/
def Mach.beginTurn (m : Mach) (h t : Nat) : Mach × WalkOut :=
  let e := m.te h t
  let a := e.at_
  let m := if e.kind.closes then m.wcFlush h e.key else m
  let nc := fun (m : Mach) => (m.modTe h t fun e => { e with wcEn := m.bit Reg.glbWcctl 0 }).ncWrite h t
  let line := fun (m : Mach) => (m, ([] : WalkOut))
  match e.kind with
  | .rds | .rdo | .rdc =>
    if atWb a then line ((m.pfTrain h t).lookup h t) else line (m.ncRead h t)
  | .rsl => if atWb a then line (m.lookup h t) else line (m.ncRead h t)
  | .upg => line (m.lookup h t)
  | .wbd => if atWb a then line (m.lookup h t) else line (nc m)
  | .wrl | .wrp =>
    if !atWb a then line (nc m)
    else if m.portDown e.port_ then line (m.cmx h t .tgtdown)
    else line (m.lookup h t)
  | .scd =>
    let (m, ok, shadow) := m.monCheck h e
    if !ok then line (m.scdFail h t shadow)
    else if m.portDown e.port_ then line (m.cmx h t .tgtdown)
    else if atWb a then line (m.lookup h t)
    else line (nc m)
  | .atm =>
    match m.placeAtm h e with
    | none => line (m.cmx h t .attrfault)
    | some far =>
      let m := m.bump h (if far then Reg.hscAtmfar else Reg.hscAtmnear)
      let m := m.modTe h t fun e => { e with far, hm := m.bit Reg.glbAtmctl 16 }
      if far && m.portDown e.port_ then line (m.cmx h t .tgtdown)
      else if !atWb a then line (m.ncRead h t)
      else if far then line (m.farStart h t) else line (m.lookup h t)
  | .mbs => line (m.mbsTurn h t)
  | .biv | .rebuild => line (m.crowStart h t)
  | .lock => line (m.lockGo h t)
  | .unlock => line (m.unlockGo h t)
  | .zero => line (m.zeroTurn h t)
  | .qop _ | .qcmd _ | .qho | .qnlost => m.qTurn h t
  | .evh | .sweep => line m

-- ===== acceptance checks (R36, R159, R172, R219, R394, R395) =====

/-- Capture a world fault (code 0x1C, class C, not counted). -/
def Mach.worldEv (m : Mach) (h t : Nat) (e : TE) (ns : Bool) : Mach :=
  let isQ := !e.kind.isLine
  let pa : PA := if isQ then e.key.setWidth 52 else m.paOf (offOf e.key)
  let ev := e.ev (m.htag h t) pa h 0x1C
  m.capture { ev with akind := if isQ then 2 else 1, auth := if ns then 0 else ev.auth }

/-- The pass of an EVH, once its region is known (R72, R73). -/
def Mach.evhPass (m : Mach) (h t : Nat) (a : Option (BitVec 16)) : Mach :=
  let e := m.te h t
  let sec := keySec e.key
  let set := (setOf sec).toNat
  let q := e.agent
  let hint := fun (w : W64) =>
    if (enSt w e.ln = hsX || enSt w e.ln = hsOS) && enOwn w e.ln = q then
      if enSt w e.ln = hsX then trim (enSetLine w e.ln hsI 0) e.ln (agBit q.toNat) else w
    else trim w e.ln (agBit q.toNat)
  let ok := match a with | some a => atWb a && !atQob a && !(atSec a && !e.sec) | none => false
  if !ok then m.endTe h t
  else
    let m := (m.ensureSet h set).checkSet h set
    let inV := fun (v : Victim) => if v.sec = sec && !enImp v.word then { v with word := normal (hint v.word) } else v
    let m := match m.findWay h sec with
      | some w => if enImp (m.entry h set w) then m else m.storeEntry h set w (hint (m.entry h set w))
      | none => m.modS h fun s => { s with vbuf := s.vbuf.map inV }
    m.endTe h t

/-- A line entry's region is known: the checks of R62 steps 2 and 3, made at acceptance whatever the key, then its key, and its turn
if it has it (R122). -/
def Mach.attrKnown (m : Mach) (h t : Nat) (a : Option (BitVec 16)) : Mach × WalkOut :=
  let m := m.modTe h t fun e => { e with attr := a, ph := .turn }
  let e := m.te h t
  let go := fun (m : Mach) =>
    let m := m.enter h t e
    if (m.te h t).st = .active then m.beginTurn h t else (m, [])
  let bad := fun (c : Cmx) => (m.cmx h t c, ([] : WalkOut))
  match e.kind with
  | .evh => (m.evhPass h t a, [])
  | .mbs =>
    match a with
    | some x => if atPort x = e.port then go m
      else (((m.protErrM e.port (m.paOf (offOf e.key)) 4).modP e.port fun v => { v with mbrq := v.mbrq ++ [e.aux] }).endTe h t, [])
    | none => (((m.protErrM e.port (m.paOf (offOf e.key)) 4).modP e.port fun v => { v with mbrq := v.mbrq ++ [e.aux] }).endTe h t, [])
  | .lock | .unlock | .zero => go m
  | .biv | .rebuild => if e.st = .active then (m.crowGo h t, []) else (m, [])
  | .qop _ | .qcmd _ | .qho | .qnlost => (m, [])
  | k =>
    match a with
    | none => bad .regfault
    | some x =>
      if atSec x && !e.sec then
        let m := m.worldEv h t e false
        (m.cmx h t .worldfault, [])
      else if atQob x then bad .attrfault
      else if k = .upg && !atWb x then bad .attrfault
      else if k = .atm && (atDev x || (atNc x && atAtom x = 1)) then bad .attrfault
      else if (k = .rsl || k = .scd) && !m.rslOk x then bad .attrfault
      else go m

/-- Look the region of a line entry up (R38). -/
def Mach.askAttr (m : Mach) (h t : Nat) : Mach × WalkOut :=
  let off := offOf (m.te h t).key
  match m.rcFind h off with
  | some a => m.attrKnown h t (some a)
  | none => (m.modTe h t fun e => { e with ph := .region }).startWalk h (.te h t) off

-- ===== what a walk gives its waiters =====

/-- One waiter of a walk goes on with what the walk gave. -/
def Mach.out1 (m : Mach) (w : Waiter) (a : Option (BitVec 16)) : Mach × WalkOut :=
  match w with
  | .te h t =>
    let e := m.te h t
    if e.st = .free then (m, [])
    else if e.kind.isLine then if e.ph = .region then m.attrKnown h t a else (m, [])
    else match e.woff with
      | some off => (m.modTe h t fun e => { e with woff := none, reg := (off, a) :: e.reg }).qTurn h t
      | none => (m, [])
  | .head h i n => m.loadHead h i (if ((m.slice h).slot.get none i).any fun v => lineNo v.read = n then some a else none)
  | .pout h i n =>
    match (m.slice h).slot.get none i with
    | none => (m, [])
    | some v =>
      let known := if lineNo v.tail = n then some a else none
      let (m, o) := if v.out then m.pageOutTry h i known else (m, [])
      if (m.tmp.any fun o => o.op = 2 && !o.abort) && (m.slice h).tmpPos = i then
        let m := if known.isSome then { m with tmp := m.tmp.map fun (o : TmpOp) => { o with known := some (h, i, a) } } else m
        let (m, o2) := m.flushSlot h
        (m, o ++ o2)
      else (m, o)
  | .bell h off => m.bellGo h (some (off, a))
  | .evac h =>
    let w := match a with | some x => atSec x | none => false
    let fe := fun (e : Evac) => { e with world := some w }
    let fo := fun (o : OSweep) => match o.wsec with | some sec => { o with reg := some (sec, a), wsec := none } | none => o
    (m.modS h fun s => { s with evac := s.evac.map fe, osw := s.osw.map fo }, [])
  | .vict h sec =>
    -- the eviction goes on once the victim's world is known (R114)
    let w := match a with | some x => atSec x | none => false
    ((m.modS h fun s => { s with vbuf := s.vbuf.map fun v => if v.sec = sec then { v with w := some w } else v }).evict h sec, [])

/-- Serve the waiters a walk released, and those that their work releases in turn. -/
def Mach.outs : Nat → Mach → WalkOut → Mach
  | _, m, [] => m
  | 0, m, _ => m
  | n + 1, m, x :: r => let (m, o) := m.out1 x.1 x.2; Mach.outs n m (r ++ o)

/-- Serve every waiter a step released. -/
def Mach.fin (x : Mach × WalkOut) : Mach := Mach.outs 4096 x.1 x.2

-- ===== acceptance into a tracker entry (R62, R72, R118, R122, R211) =====

/-- A message has a tracker entry: the checks made at acceptance, then its key. An EVH is dropped while any transaction on its line,
or a back-invalidation or evacuation spill of its sector, is active or waiting (notes/assumptions/89.md). -/
def Mach.accepted (m : Mach) (h t : Nat) (e : TE) : Mach × WalkOut :=
  let e := { e with ord := (m.slice h).seq }
  let m := m.modS h fun s => { s with gated := false, seq := s.seq + 1 }
  let m := if e.kind = .evh then m.bump h Reg.hscEvh
    else if e.kind.isReq || e.kind = .mbs then m.bump64 h Reg.hscReqLo else m
  let active := fun (m : Mach) => m.setTe h t { e with st := .active }
  if e.kind.isReq && e.sec && !m.bit Reg.secScap e.agent.toNat then
    let m := m.worldEv h t e true
    if e.kind = .evh then (m, []) else ((active m).cmx h t .worldfault, [])
  else match e.kind with
    | .qop _ =>
      if (m.qidSec e.qid && !e.sec) || m.qidMoving e.qid then (((active m).worldEv h t e false).cmx h t .worldfault, [])
      else if !m.bit Reg.qobCtl 0 || !m.crmOn h then ((active m).cmq h t 5 0 (m.qNlost h e.qid) 0 0 0, [])
      else
        let m := m.enter h t e
        if (m.te h t).st = .active then m.beginTurn h t else (m, [])
    | .evh =>
      let busy := (m.slice h).busy.any fun x => (decide (x.2.st = .active) || decide (x.2.st = .wait)) && x.2.kind.isLine &&
        (x.2.keys.contains e.hkey || (x.2.kind = .biv && x.2.inSector (keySec e.key)))
      if busy then (m, []) else (m.setTe h t { e with st := .evh }).askAttr h t
    | .qcmd _ | .qho | .qnlost =>
      let m := m.enter h t e
      if (m.te h t).st = .active then m.beginTurn h t else (m, [])
    | _ => (m.setTe h t { e with st := .wait, ph := .region }).askAttr h t

-- ===== waits that end =====

/-- A turn that waited for a reservation, a victim-buffer slot, a way or a write-combining buffer goes on (R86, R91, R92,
R197, R223, R275). -/
def Mach.resume (m : Mach) (h t : Nat) (waysOnly : Bool) : Mach × WalkOut :=
  let e := m.te h t
  let line := fun (m : Mach) => (m, ([] : WalkOut))
  let sec := keySec e.key
  if e.st ≠ .active then (m, [])
  else match e.ph with
    | .wayWait =>
      if e.kind = .rebuild then line ((m.rebuildEnd h t))
      else match m.findWay h sec with
        | some _ => line ((if e.refill.isSome then m.bktDel h (m.bktOf h sec) else m).lookup h t)
        | none => match e.refill with
          | some w => line (m.refillWay h t w)
          | none => line (if ssSimp (m.ss h (setOf sec).toNat) then m.missImp h t else m.missWay h t)
    | ph =>
      if waysOnly then (m, [])
      else match ph with
        | .lookup => line (m.lookup h t)
        | .reserve =>
          if e.kind = .mbs then line (m.mbsTurn h t)
          else if e.kind = .rebuild then line ((m.suspectNext h t).tryEnd h t)
          else if e.kind = .biv then line (m.evict h sec)
          else if e.kind = .atm && e.far && e.sbuf.isNone && atWb e.at_ then line (m.farStart h t)
          else if atWb e.at_ then line ((m.serve h t).tryEnd h t)
          else line (m.ncRead h t)
        | .wcWait => line (m.ncWrite h t)
        | .wbuf => line (if atWb e.at_ then m.endZero h t else m.zeroTurn h t)
        | .qslot | .qheld => match e.kind with
          | .qop _ => m.qGo h t
          | _ => (m, [])
        | _ => (m, [])

/-- Unreadable wait lists are rebuilt from the WAIT entries of their keys, in ascending order of entry (R327). -/
def Mach.repairLists (m : Mach) (h : Nat) : Mach :=
  let s := m.slice h
  let bad := (s.wl.filter fun l => l.bad).length
  if bad = 0 then m
  else
    let mem := fun (k : BitVec 41) => (s.busy.filter fun e => e.2.st = .wait && e.2.ph ≠ .region && e.2.keys.contains k && !e.2.holds k && !s.ovf.contains e.1).map (·.1)
    let m := m.modS h fun s => { s with wl := s.wl.map fun l => if l.bad then { l with q := mem l.key, bad := false } else l }
    (List.range bad).foldl (fun m _ => (m.err h 6).capture { src := h, code := 0x17, counted := true }) m

/-- TURN_START: the next waiter on a key starts its turn (R122, R125, R128); an entry of two keys that waits takes each line it is
next on. A move owed to the sector is made first (R112, R125). No turn starts in the safe state (R337) or in a drain (R378). -/
def Mach.turnStart (m : Mach) (h t : Nat) : Mach × WalkOut :=
  let m := m.repairLists h
  let m := if (m.te h t).kind.isLine then m.owedMove h (keySec (m.te h t).key) else m
  let e := m.te h t
  let s := m.slice h
  if e.st ≠ .wait || e.ph = .region || m.safe.isSome || m.drain.isSome || s.run ≠ .on then (m, [])
  else if e.kind.isLine && s.moveOwed (keySec e.key) then (m, [])
  else if e.both then
    let got := fun (b : Nat) =>
      e.got.getLsbD b || (match e.keys[b]? with
        | some k => !s.held k && s.isNext t k
        | none => false)
    let l : BitVec 2 := (if got 0 then 1 else 0) ||| (if got 1 then 2 else 0)
    let s := (List.range 2).foldl (fun (s : Slice) b => if got b && !e.got.getLsbD b then s.leave t (e.keys.getD b 0) else s) s
    if l = 3 then (m.setSlice h ({ s with ovf := s.ovf.erase t }.setEnt t { e with st := .active, got := 0 })).beginTurn h t
    else (m.setSlice h (s.setEnt t { e with got := l }), [])
  else if s.held e.hkey || !s.isNext t e.hkey then (m, [])
  else (m.setSlice h ((s.leaveAll t).setEnt t { e with st := .active })).beginTurn h t

end Sys2Proof.Machine
end

