-- ==== Sys2Proof/Machine/Accept.lean ====
section
/-! DEFINITION. Messages at a port and at a slice: requests (R27, R47 to R54, R190 to R192, R271, R274), snoop answers and data
(R55 to R57, R67, R271, R275), memory returns (R276, R292), back-invalidate snoops (R78, R303) and notes (R79, R190). -/

namespace Sys2Proof.Machine

-- ===== requests =====

/-- The tracker entry a request asks for, before its key, pool and buffers are known. -/
def reqTe (r : Req) (k : TKind) : TE :=
  { kind := k, port := r.port.val, agent := r.agent, tid := r.tid, rqid := r.rqid, sec := decide (r.w = .s),
    lo := r.pa.setWidth 6, sz := r.sz }

/-- A queue operation's entry: its key is the QID (R211). -/
def reqQte (r : Req) (op : BitVec 4) (qid : BitVec 20) (n : BitVec 4) (word : W64) : TE :=
  { reqTe r (.qop op) with key := qid.setWidth 40, qn := n, word, lo := 0, sz := 0 }

/-- The tracker entry of a request command. -/
def tmpl : Instr → TE
  | .rds r => reqTe r .rds | .rdo r => reqTe r .rdo | .rdc r => reqTe r .rdc | .upg r => reqTe r .upg
  | .wrl r => reqTe r .wrl
  | .wrp r mask => { reqTe r .wrp with mask }
  | .wbd r => reqTe r .wbd | .evh r => reqTe r .evh
  | .atm r aop a b => { reqTe r .atm with aop, opa := a, opb := b }
  | .rsl r => reqTe r .rsl
  | .scd r => { reqTe r .scd with mask := byteMask (r.pa.setWidth 6).toNat (2 ^ r.sz.toNat) }
  | .qenq r q n w => reqQte r 1 q n w
  | .qenq8 r q n => reqQte r 2 q n 0 | .qdeq r q n => reqQte r 3 q n 0 | .qpeek r q n => reqQte r 4 q n 0
  | .qmark r q n => reqQte r 5 q n 0 | .qrewind r q n => reqQte r 6 q n 0 | .qrelease r q n => reqQte r 7 q n 0
  | _ => {}

/-- Is the command a BAR or an MCL, which no slice gives an entry (R79)? -/
def isBar : Instr → Bool | .bar _ => true | _ => false
def isMcl : Instr → Bool | .mcl _ => true | _ => false

/-- Requests that carry an address (R27). -/
def hasAddr (i : Instr) : Bool :=
  !isBar i && !isMcl i && (match (tmpl i).kind with | .qop _ => false | _ => true)

/-- Write-class requests: a DTW follows them (R271). -/
def isWr (i : Instr) : Bool :=
  !isBar i && !isMcl i && (match (tmpl i).kind with | .wrl => true | .wrp => true | .wbd => true | .scd => true | .qop o => o = 2 | _ => false)

/-- Requests that take a write-order entry (R190). -/
def takesWo (i : Instr) : Bool :=
  !isBar i && !isMcl i && (match (tmpl i).kind with | .wrl => true | .wrp => true | .wbd => true | .scd => true | .atm => true | _ => false)

/-- The opcode of a request command (Table 03-3). -/
def reqOpc (i : Instr) : BitVec 5 := if isBar i then 13 else if isMcl i then 14 else (tmpl i).kind.opc

/-- Is an agent behind a port (R285)? -/
def behind (p a : Nat) : Bool := decide (a < 24) && decide (agPort a = p)

/-- Does a request break a rule of its layout (R49, R156, R157, R172, R210)? -/
def badReq (i : Instr) (r : Req) : Bool :=
  let e := tmpl i
  let line := r.pa.extractLsb' 0 6 ≠ 0 || r.sz ≠ 0
  if isBar i || isMcl i then r.pa ≠ 0 || r.sz ≠ 0
  else match e.kind with
    | .atm => !atmListed e.aop r.sz || !aligned r.pa.toNat r.sz.toNat
    | .rsl | .scd => decide (4 < r.sz.toNat) || !aligned r.pa.toNat r.sz.toNat
    | .qop o => r.pa ≠ 0 || r.sz ≠ 0 || (if o = 2 then e.qn = 0 || decide (8 < e.qn.toNat) else e.qn ≠ 0)
    | _ => line

/-- Does a port move message flits now (Table 11-7)? -/
def Mach.portIn (m : Mach) (p : Nat) : Bool := decide ((m.port p).st = .up) || decide ((m.port p).st = .replay)

/-- A request ends at its port with CMX, ordered with what concerns its line (R57); the data of a write is discarded when it comes
(R27, R51, R271). -/
def Mach.portCmx (m : Mach) (p : Nat) (r : Req) (wr : Bool) (c : Cmx) (key : LineKey) : Mach :=
  let o : Outst := { agent := r.agent, tid := r.tid, key := none, dtw := true, at_ := none, ended := true }
  let m := if wr then m.modP p fun v => { v with outs := v.outs ++ [o] } else m.credit p 1
  m.emit p { op := .cmx, agent := r.agent, tid := r.tid, key, stat := c.code }

/-- Does a slice take messages now (Table 12-6, R366)? -/
def Mach.serving (m : Mach) (h : Nat) : Bool := decide ((m.slice h).run = .on) && decide (m.dom (sliceDom h 0) = .on)

/-- An MCL reaches a slice, which clears the requester's monitor and sends its notice (R79, R151). -/
def Mach.mclAt (m : Mach) (h p : Nat) (r : Req) : Mach :=
  let m := (m.clrMon h (monIdx r.agent r.rqid)).modS h fun s => { s with gated := false }
  m.modP p fun v => { v with mnotes := v.mnotes ++ [((m.slice h).ls, r.agent, r.rqid)] }

/-- The REQ slot of an MCL frees once it has been delivered to every active slice (R271). -/
def Mach.mclCredit (m : Mach) (p : Nat) (r : Req) : Mach :=
  if (m.port p).heldq.any fun q => isMcl q.req && q.r = r then m else m.credit p 1

/-- Replace a held request. -/
def Mach.setHeld (m : Mach) (p : Nat) (q q' : Held) : Mach :=
  m.modP p fun v => { v with heldq := v.heldq.map fun x => if x = q then q' else x }
/-- Take a held request off its queue. -/
def Mach.dropHeld (m : Mach) (p : Nat) (q : Held) : Mach := m.modP p fun v => { v with heldq := v.heldq.erase q }

/-- Write-order entries in use (Table 07-11). -/
def Port.woUsed (v : Port) : Nat := (v.wo.filter fun w => !w.done).length

/-- Accept what waits at a port's ingress, in order: write-order entries, BARs and MCLs (R190 to R192). A request that finds no
entry holds every later request of its agent. -/
def Mach.takeIn (m : Mach) (p : Nat) : Mach :=
  ((m.port p).heldq.foldl (fun (x : Mach × List (BitVec 5)) q =>
    let (m, blocked) := x
    if q.acc then x
    else if blocked.contains q.r.agent then x
    else if isBar q.req then
      let m := m.dropHeld p q
      let m := m.modP p fun v => { v with
        bars := v.bars ++ [{ seq := v.acc, agent := q.r.agent, rqid := q.r.rqid, tid := q.r.tid, lost := false }], acc := v.acc + 1 }
      ((m.credit p 1).pump p, blocked)
    else if isMcl q.req then
      let lss := m.active.map fun h => (m.slice h).ls
      -- it reaches a slice behind the agent's earlier requests to it, in its own place (R54, R151)
      let before := (m.port p).heldq.takeWhile (· ≠ q)
      let wait := fun ls => before.any (fun y => y.ls = ls && y.r.agent = q.r.agent) || !m.serving (m.hsOf ls)
      let m := m.modP p fun v => { v with
        mcls := v.mcls ++ [{ agent := q.r.agent, rqid := q.r.rqid, tid := q.r.tid, left := lss }]
        heldq := v.heldq.flatMap fun x => if x = q then (lss.filter wait).map fun ls => { q with ls, acc := true } else [x] }
      let m := (lss.filter fun ls => !wait ls).foldl (fun m ls => m.mclAt (m.hsOf ls) p q.r) m
      (m.mclCredit p q.r, blocked)
    else if takesWo q.req then
      let v := m.port p
      if v.woUsed < 1024 then
        let m := m.setHeld p q { q with acc := true, counted := false, wo := some v.acc }
        let w : WoEnt := { seq := v.acc, agent := q.r.agent, rqid := q.r.rqid, tid := q.r.tid, out := false, done := false, lost := false }
        (m.modP p fun v => { v with wo := v.wo ++ [w], acc := v.acc + 1 }, blocked)
      else
        let m := if q.counted then m else (m.bumpP p Reg.pWofull).setHeld p q { q with counted := true }
        (m, q.r.agent :: blocked)
    else (m.setHeld p q { q with acc := true }, blocked)) (m, [])).1

/-- Pass a held request to its slice, which gives it a tracker entry and, for a write, its data buffer (R118, R271). -/
def Mach.acceptSlice (m : Mach) (h p : Nat) (q : Held) (pool : Pool) : Mach × WalkOut :=
  let wr := isWr q.req
  match (m.slice h).freeTe with
  | none => (m, [])
  | some t =>
    let b := if wr then (m.slice h).freeDb 0 128 else none
    let e := { tmpl q.req with pool, port := p, wo := q.wo, dbuf := b, key := q.key }
    let m := m.dropHeld p q
    let mine := fun (o : Outst) => o.agent = q.r.agent && o.tid = q.r.tid && o.at_.isNone && !o.ended
    let got := q.dtw.isSome
    let m := m.modP p fun v => { v with outs := v.outs.map fun o => if mine o then { o with at_ := some (q.ls, t), dtw := o.dtw && !got } else o }
    let ded := if pool = .wr then some p else none
    let m := match b with
      | some b =>
        let d : DBuf := match q.dtw with
          | some (psn, data) => { te := some t, have_ := true, psn, data, ded }
          | none => { te := some t, ded }
        m.modS h fun s => s.setDb b d
      | none => m
    let m := if !wr || got then m.credit p 1 else m
    m.accepted h t e

/-- The first request of a port that waits for slice HSn; one held under R191 holds back its own agent's alone. -/
def Mach.headFor (m : Mach) (h p : Nat) : Option Held := (m.port p).heldq.find? fun q => q.ls = (m.slice h).ls && q.acc

/-- Pass one waiting head to HSn (R274): an MCL, or a request for which its port has a dedicated entry; else a shared entry is lent,
to the ports in turn from the one after the port last lent to. -/
def Mach.passOne (m : Mach) (h : Nat) : Option (Mach × WalkOut) :=
  ((List.range 28).findSome? fun p => match m.headFor h p with
    | none => none
    | some q =>
      if isMcl q.req then some ((((m.mclAt h p q.r).dropHeld p q).mclCredit p q.r), [])
      else match m.grant h p (isWr q.req) with
        | some .shared | none => none
        | some pool => some (m.acceptSlice h p q pool)) <|>
  ((List.range 28).findSome? fun k =>
    let p := ((m.slice h).rr + 1 + k) % 28
    match m.headFor h p with
    | none => none
    | some q =>
      if isMcl q.req || m.grant h p (isWr q.req) ≠ some .shared then none
      else some ((m.modS h fun s => { s with rr := p }).acceptSlice h p q .shared))

/-- Count the heads that begin to wait for a credit of HSn (Table 10-6). -/
def Mach.countHold (m : Mach) (h : Nat) : Mach :=
  (List.range 28).foldl (fun m p => match m.headFor h p with
    | some q => if q.counted || isMcl q.req then m else (m.bumpP p Reg.pCrhold).setHeld p q { q with counted := true }
    | none => m) m

/-- Pass what HSn can take. -/
def Mach.passAll : Nat → Mach → Nat → WalkOut → Mach × WalkOut
  | 0, m, _, o => (m, o)
  | n + 1, m, h, o =>
    if !m.serving h then (m, o)
    else match m.passOne h with
      | some (m, o') => Mach.passAll n m h (o ++ o')
      | none => (m.countHold h, o)

/-- Accept and pass everything that waits at the ports. -/
def Mach.passHeld (m : Mach) : Mach × WalkOut :=
  let m := (List.range 28).foldl (fun m p => if (m.port p).heldq = [] then m else m.takeIn p) m
  let lss := ((List.range 28).flatMap fun p => (m.port p).heldq.map fun q => q.ls).eraseDups.filter (· < 32)
  lss.foldl (fun (x : Mach × WalkOut) ls =>
    let n := ((List.range 28).map fun p => ((x.1.port p).heldq.filter fun q => q.ls = ls).length).sum
    x.1.passAll (n + 1) (x.1.hsOf ls) x.2) (m, [])

/-- A REQ arrives at a port (R27, R51, R53, R337). -/
def Mach.request (m : Mach) (i : Instr) (r : Req) : Mach :=
  let p := r.port.val
  let evh := (tmpl i).kind = .evh && hasAddr i
  let wr := isWr i
  let auth : BitVec 2 := if r.w = .s then 1 else 0
  let v := m.port p
  let key : Option LineKey := if hasAddr i then (m.homed r.pa.toNat).map keyOf else none
  let reused := v.outs.any fun o => o.agent = r.agent && o.tid = r.tid && !o.ended
  let again := !evh && key.isSome && v.outs.any fun o => o.agent = r.agent && o.key = key && !o.ended
  if !m.portIn p then m
  else if 16 ≤ p && p < 24 then m.protErr p r.agent r.rqid r.tid r.pa (reqOpc i) 0 auth
  else if behind p r.agent.toNat && m.agFenced r.agent.toNat then m.credit p 1
  else if !behind p r.agent.toNat || badReq i r || reused || again then
    let m := m.protErr p r.agent r.rqid r.tid r.pa (reqOpc i) 0 auth
    -- Tribex never sends an agent ID from 24 to 31 (R9)
    if evh || decide (24 ≤ r.agent.toNat) then m.credit p 1 else m.portCmx p r wr .proterr (key.getD 0)
  else if m.safe.isSome || m.drain.isSome then if evh then m.credit p 1 else m.portCmx p r wr .poison (key.getD 0)
  else if hasAddr i && key.isNone then
    if evh then m.credit p 1
    else
      let m := m.capture { src := 34 + p, code := 0x03, akind := 1, addr := r.pa, auth,
                           who := some (r.agent, r.rqid, r.tid), opc := reqOpc i }
      m.portCmx p r wr .unhomed 0
  else
    let isQ := !hasAddr i
    let k : LineKey := match key with | some k => k | none => (tmpl i).key
    let ls := if isBar i || isMcl i then 32 else if isQ then k.toNat % 32 else (lsOf (offOf k)).toNat
    let q : Held := { req := i, r, ls, key := k, wrk := wr, qid := isQ }
    let o : Outst := { agent := r.agent, tid := r.tid, key, dtw := wr, at_ := none }
    let m := m.modP p fun v => { v with heldq := v.heldq ++ [q], outs := if evh then v.outs else v.outs ++ [o] }
    let (m, out) := m.passHeld
    Mach.fin (m, out)

-- ===== messages at a slice =====

/-- The slice and tracker entry an htag names (Table 03-1). -/
def Mach.htagOf (m : Mach) (htag : BitVec 14) : Nat × Nat := (m.hsOf (htag.toNat / 512), htag.toNat % 512)

/-- A snoop answer reaches its tracker entry (R67, R275). -/
def Mach.ansAt (m : Mach) (x : Ans) (r : Rsp) : Mach :=
  let (h, t) := m.htagOf r.htag
  let e := m.te h t
  let a := r.agent.toNat
  let m := m.modS h fun s => { s with gated := false }
  let bad := fun (m : Mach) => m.protErr r.port.val r.agent 0 0 (if e.st = .active then m.paOf (offOf e.key) else 0) x.code 2
  if e.st ≠ .active || !e.pend.getLsbD a || !e.snp.lists e.kind (decide (e.lst = hsOS)) a x r.kst then bad m
  else
    let two := e.kind = .rebuild && x = .srf && e.snp.from_.isSome
    let m := m.modTe h t fun e => let e := e.take a x r.kst; { e with snp := { e.snp with dtw := e.snp.dtw || two } }
    let k := if e.kind = .rebuild || e.kind = .biv || e.kind = .mbs then lineKey (keySec e.key) e.line1 else e.key
    let m := if x = .srfo && e.snp.dtw && e.snp.fwd ≠ some .fwc then m.clrMons h k else m
    m.tryEnd h t

/-- The DTW of a request that a slice has ended reaches the buffer kept for it, which goes free (R62). -/
def Mach.lateData (m : Mach) (agent : BitVec 5) (tid : Tid) : Mach :=
  match m.active.find? fun h => (m.slice h).dbuf.any fun x => x.2.owed = some (agent, tid) with
  | some h => m.dropOwed h agent tid
  | none => m

/-- Write data follows its request to the entry that holds its buffer (R271). -/
def Mach.writeDataAt (m : Mach) (ls t : Nat) (d : Dtw) : Mach × WalkOut :=
  let h := m.hsOf ls
  let e := m.te h t
  match (if e.st ≠ .free && e.agent = d.agent && e.tid = d.tid then e.dbuf else none) with
  | none => (m, [])
  | some b =>
    let m := m.modS h fun s => s.setDb b { (s.db b) with have_ := true, psn := d.psn, data := d.data }
    if e.st ≠ .active then (m, [])
    else match e.kind with
      | .qop _ => if e.ph = .qdtw then m.qGo h t else (m, [])
      | _ =>
        if e.ph ≠ .collect then (m, [])
        else if atWb e.at_ then (m.tryEnd h t, []) else (m.ncWrite h t, [])

/-- Data that answers a snoop reaches the buffer its turn reserved (R64, R103, R275). -/
def Mach.snoopDataAt (m : Mach) (d : Dtw) : Mach :=
  let (h, t) := m.htagOf d.htag
  let e := m.te h t
  let a := d.agent.toNat
  let bad := m.protErr d.port.val d.agent 0 0 (if e.st = .active then m.paOf (offOf e.key) else 0) 5 3
  if e.st ≠ .active || !e.pend.getLsbD a then bad
  else if e.kind = .rebuild || (e.kind = .wbd && e.imp) then m
  else if e.snp.dtw then bad
  else if !e.snp.toHome && !e.snp.sni.getLsbD a then bad
  else match e.sbuf with
    | none => bad
    | some b =>
      let m := m.modS h fun s => s.setDb b { (s.db b) with have_ := true, psn := d.psn, data := d.data }
      (m.modTe h t fun e => { e with snp := { e.snp with dtw := true } }).tryEnd h t

/-- The return buffer that an MRT of a port with `htag[8:0]` is for: the oldest of those its MRD was sent from (notes/assumptions/84.md). -/
def Slice.rbFor (s : Slice) (p tag : Nat) : Option (Nat × RBuf) :=
  (s.rbuf.filterMap fun e => e.2.bind fun b => if b.port = p && b.htag = tag then some (e.1, b) else none).foldl
    (fun (best : Option (Nat × RBuf)) x => match best with
      | some y => if x.2.ord < y.2.ord then some x else some y
      | none => some x) none

/-- The buffer that an MWC of a port with `htag[8:0]` is for, a write-combining buffer from 192 on: the oldest of those. -/
def Slice.wrFor (s : Slice) (p tag : Nat) : Option (Nat × Wr) :=
  ((s.dbuf.filterMap fun e => e.2.wr.bind fun w => if w.port = p && w.htag = tag then some (e.1, w) else none) ++
    s.wc.filterMap fun e => e.2.bind fun v => v.wr.bind fun w => if w.port = p && w.htag = tag then some (192 + e.1, w) else none).foldl
    (fun (best : Option (Nat × Wr)) x => match best with
      | some y => if x.2.seq < y.2.seq then some x else some y
      | none => some x) none

/-- An MRT reaches its return buffer (R65, R276, R292); one that no buffer awaits is discarded. -/
def Mach.mrtAt (m : Mach) (ls p tag : Nat) (psn ue : Bool) (d : Line) : Mach × WalkOut :=
  let h := m.hsOf ls
  match (m.slice h).rbFor p tag with
  | none => (m, [])
  | some (rb, b) =>
    let m := m.modS h fun s => { s with gated := false }
    let m := if ue then m.capture { src := 34 + b.port, code := 0x07, cls := .d, akind := 1, addr := m.paOf b.off } else m
    let bad := psn || ue
    let m := m.freeRbuf h rb
    match b.use with
    | .data t =>
      -- the line fills Crema whoever served the requester (R247)
      let m := match b.fill with
        | some a => m.cremaFill h b.off a (!bad && b.fillOk) d false
        | none => m
      if b.drop then (m, [])
      else
        let m := m.modTe h t fun e => { e with rd := .have bad d }
        (if atWb (m.te h t).at_ then m.tryEnd h t else m.ncEnd h t, [])
    | .walk g i => m.walkReturn g i bad d
    | .bkt a => (m.bktReturn h a bad d, [])
    | .prefetch a => (m.cremaFill h b.off a (!bad && b.fillOk) d true, [])
    | .fill set w => (m.lockFill h set w b.off b.fillOk bad d, [])
    | .qdesc t => if b.drop then (m, []) else m.qDesc h t bad d
    | .ddesc t => if b.drop then (m, []) else (m.dDesc h t bad d, [])
    | .qtail i _ => if b.drop then (m, []) else m.qWindow h i none bad d
    | .qhead i n => if b.drop then (m, []) else m.qWindow h i (some n) bad d

/-- An MWC reaches the buffer its write left from (R70, R78, R188, R190, R197, R226, R249, R263). -/
def Mach.mwcAt (m : Mach) (ls p tag : Nat) : Mach × WalkOut :=
  let h := m.hsOf ls
  match (m.slice h).wrFor p tag with
  | none => (m, [])
  | some (wb, w) =>
    let m := m.modS h fun s => { s with gated := false }
    let m := w.notes.foldl (fun m n => m.sendNote n false) m
    let m := if wb < 192 then m.freeDbuf h wb else m.modS h fun s => s.setWc (wb - 192) none
    let (m, o) : Mach × WalkOut := match w.use with
      | .mbs t => (if (m.te h t).ph = .mwc then m.mbsEnd h t else m, [])
      | .zero _ => ({ m with tmp := m.tmp.map fun (o : TmpOp) => { o with busy := o.busy - 1 } }.tmpCheck, [])
      | .deferred t => (m.ackWrite h t, [])
      | .bkt a => (m.bktWritten h a, [])
      | .doorbell _ => (m.modS h fun s => { s with dbq := s.dbq.filter fun b => b.wb ≠ some wb }).bellGo h
      | _ => (m, [])
    (m.refill h w.port w.off, o)

/-- What a message that waited at a slice's ingress does once it is taken (R148). -/
def Mach.sliceMsg (m : Mach) (i : Instr) : Mach :=
  match i with
  | .sri r => m.ansAt .sri r | .srs r => m.ansAt .srs r | .srf r => m.ansAt .srf r | .srfo r => m.ansAt .srfo r
  | .dtw d =>
    if d.ans then m.snoopDataAt d
    else match (m.port d.port.val).outs.find? fun o => o.agent = d.agent && o.tid = d.tid && !o.ended with
      | some o => match o.at_ with
        | some (ls, t) => Mach.fin (m.writeDataAt ls t d)
        | none => m
      | none => m.lateData d.agent d.tid
  | .mrt p g psn ue d => Mach.fin (m.mrtAt (g.toNat / 512) p.val (g.toNat % 512) psn ue d)
  | .mwc p g => Mach.fin (m.mwcAt (g.toNat / 512) p.val (g.toNat % 512))
  | _ => m

/-- Deliver a message to a slice, or hold it at the ingress of one that is frozen or has stopped (Table 12-6, R332). -/
def Mach.toSlice (m : Mach) (ls : Nat) (i : Instr) : Mach :=
  let h := m.hsOf ls
  if (m.slice h).run = .on then m.sliceMsg i else m.modS h fun s => { s with ingress := s.ingress ++ [i] }

-- ===== messages at a port =====

/-- A flit crosses the Yard: an error in its buffer is corrected and reported, or keeps it from being delivered (R316). -/
def Mach.viaYard (m : Mach) (f : Mach → Mach) : Mach :=
  match m.yard with
  | none => f m
  | some false => f ({ m with yard := none }.capture { src := 62, code := 0x20, counted := true })
  | some true => { m with yard := none }.capture { src := 62, code := 0x21, cls := .x }

/-- An MRT or MWC arrives (R47, R270, R276); at a die port it goes the wrong way (R50). -/
def Mach.memIn (m : Mach) (p : Nat) (htag : BitVec 14) (i : Instr) : Mach :=
  if !m.portIn p then m
  else if p < 16 then m.protErrM p 0 4
  else (m.credit p 5).toSlice (htag.toNat / 512) i

/-- Does a forwarded DAT that is not yet accepted wait for the requester that an answer's transaction serves? The forwarder's answer
follows that DAT (R57, R276). -/
def Mach.behindDat (m : Mach) (p : Nat) (r : Rsp) : Bool :=
  let (h, t) := m.htagOf r.htag
  let e := m.te h t
  e.st ≠ .free && (m.port p).fwdq.any fun f => f.msg.agent = e.agent && f.msg.tid = e.tid

/-- A snoop answer arrives at a port (R50, R57, R285): behind the forwarded DAT it follows, while that is not yet accepted, it waits. -/
def Mach.answer (m : Mach) (i : Instr) (x : Ans) (r : Rsp) : Mach :=
  let p := r.port.val
  if !m.portIn p then m
  else if 16 ≤ p && p < 24 then m.protErr p r.agent 0 0 0 x.code 2
  else if behind p r.agent.toNat && m.agFenced r.agent.toNat then m.credit p 3
  else if !behind p r.agent.toNat then (m.protErr p r.agent 0 0 0 x.code 2).credit p 3
  else if m.behindDat p r then m.modP p fun v => { v with rspq := v.rspq ++ [i] }
  else (m.credit p 3).toSlice (r.htag.toNat / 512) i

/-- A DTW arrives at a port (R48, R271, R275). -/
def Mach.data (m : Mach) (d : Dtw) : Mach :=
  let p := d.port.val
  let i := Instr.dtw d
  if !m.portIn p then m
  else if 16 ≤ p && p < 24 then m.protErr p d.agent 0 d.tid 0 5 3
  else if behind p d.agent.toNat && m.agFenced d.agent.toNat then m.credit p 4
  else if !behind p d.agent.toNat then (m.protErr p d.agent 0 d.tid 0 5 3).credit p 4
  else
    let m := m.credit p 4
    if d.ans then m.toSlice (d.htag.toNat / 512) i
    else match (m.port p).outs.find? fun o => o.agent = d.agent && o.tid = d.tid && o.dtw with
      | none => m.protErr p d.agent 0 d.tid 0 5 3
      | some o =>
        if o.ended then
          -- its request has ended: the data is discarded, in the buffer a slice keeps for it or here, and the REQ slot frees
          let m := (m.modP p fun v => { v with outs := v.outs.erase o }).credit p 1
          match o.at_ with
          | some (ls, _) => if (m.slice (m.hsOf ls)).run = .on then m.lateData d.agent d.tid else m.toSlice ls i
          | none => m
        else
          let m := m.modP p fun v => { v with outs := v.outs.map fun x => if x = o then { x with dtw := false } else x }
          match o.at_ with
          | some (ls, _) => (m.credit p 1).toSlice ls i
          | none => m.modP p fun v => { v with heldq := v.heldq.map fun q =>
              if q.r.agent = d.agent && q.r.tid = d.tid && q.wrk then { q with dtw := some (d.psn, d.data) } else q }

/-- Can a port's egress take a forwarded DAT now: it is in service with a DAT credit, or it retrains (Table 11-10)? -/
def Mach.egressOk (m : Mach) (p : Nat) : Bool :=
  let v := m.port p
  m.portDown p || decide (v.st = .retrain) || (m.portIn p && decide (0 < v.peer.getD 4 0) && !v.egr.any fun g => g.op.cls = 3)

/-- A forwarded DAT reaches its target port's egress, which discards it for a fenced target (R132). -/
def Mach.forward (m : Mach) (tp : Nat) (g : Msg) : Mach := m.emit tp g

/-- The opcode of a forwarded DAT. -/
def datOpc : DatOp → Opc | .dts => .dts | .dte => .dte | .dtm => .dtm | .dtc => .dtc

/-- FORWARDED_DAT (R48, R57, R132): the agent field names the target. -/
def Mach.fwdDat (m : Mach) (p : Nat) (op : DatOp) (agent : BitVec 5) (tid : Tid) (psn : Bool) (data : Line) : Mach :=
  if !m.portIn p then m
  else if 16 ≤ p && p < 24 then m.protErr p agent 0 tid 0 (datOpc op).code 3
  else if 24 ≤ agent.toNat || !m.agPop agent.toNat then (m.protErr p agent 0 tid 0 (datOpc op).code 3).credit p 4
  else
    let tp := agPort agent.toNat
    let o := (m.port tp).outs.find? fun o => o.agent = agent && o.tid = tid && !o.ended
    let dead := m.portDown tp || m.agFenced agent.toNat
    if dead then m.credit p 4
    else match o with
      | none => (m.protErr tp agent 0 tid 0 (datOpc op).code 3).credit p 4
      | some o =>
        let g : Msg := { op := datOpc op, agent, tid, psn, key := o.key.getD 0, data }
        if !((m.port p).fwdq.any fun f => f.target = tp) && m.egressOk tp then (m.forward tp g).credit p 4
        else m.modP p fun v => { v with fwdq := v.fwdq ++ [{ target := tp, msg := g }] }

/-- Deliver the forwarded DATs of a port that their targets can take, oldest first for each target (R268). -/
def Mach.fwdGo (m : Mach) (p : Nat) : Mach :=
  ((m.port p).fwdq.foldl (fun (x : Mach × List Nat) f =>
    let (m, stop) := x
    if stop.contains f.target || !(m.egressOk f.target || m.agFenced f.msg.agent.toNat) then (m, f.target :: stop)
    else (((m.forward f.target f.msg).modP p fun v => { v with fwdq := v.fwdq.erase f }).credit p 4, stop)) (m, [])).1

/-- FORWARDER_RSP_RELEASE: the RSPs held behind a forwarded DAT pass once it has been accepted (R57). -/
def Mach.rspGo (m : Mach) (p : Nat) : Mach :=
  let m := m.fwdGo p
  (m.port p).rspq.foldl (fun m i => match i with
    | .sri r | .srs r | .srf r | .srfo r =>
      if m.behindDat p r then m
      else ((m.modP p fun v => { v with rspq := v.rspq.erase i }).credit p 3).toSlice (r.htag.toNat / 512) i
    | _ => m) m

-- ===== CXL back-invalidate snoops (R78, R302, R303) =====

/-- Does an HDM range of an I/O port of type HDM-DB hold a range of offset? -/
def Mach.hdmDb (m : Mach) (p : Nat) (off n : Nat) : Bool :=
  (List.range 8).any fun k =>
    let lo := portA p (Reg.ipHdmBaseLo + 12 * k)
    let b := (m.pair lo (lo + 4)).toNat
    let c := m.reg (lo + 8)
    let s := (c.extractLsb' 0 6).toNat
    c.getLsbD 31 && c.getLsbD 8 && decide (b ≤ off ∧ off + n ≤ b + 2 ^ s)

/-- Send MBR to a device (Tables 11-6 and 11-11). -/
def Mach.sendMbr (m : Mach) (p idx : Nat) (len : BitVec 2) (off : Off) (biId biTag : BitVec 12) : Mach :=
  let w0 : Nat := len.toNat * 4 + (if len = 0 then 0 else 64)
  m.emit p { op := .mbr, htag := BitVec.ofNat 14 idx, key := keyOf off, data := BitVec.ofNat 512 (w0 + biId.toNat * 2 ^ 64 + biTag.toNat * 2 ^ 80) }

/-- The place of a BISnp in the ingress buffer is free: its MBS credit returns, unless all 64 indices are in use (R270, R303). -/
def Mach.creditMbs (m : Mach) (p : Nat) : Mach :=
  if 64 ≤ (m.port p).bisn.length then m.modP p fun v => { v with mbsCr := v.mbsCr + 1 } else m.credit p 8

/-- The MBS of a BISnp, one for each sector it names (R78). -/
def mbsOf (i : Nat) (len : BitVec 2) (off : Off) : List MbsQ :=
  let sec := secOf off
  if len = 0 then [{ idx := i, sec, lines := if off.getLsbD 6 then 2 else 1, last := true }]
  else if len = 1 then [{ idx := i, sec, lines := 3, last := true }]
  else [{ idx := i, sec, lines := 3, last := false }, { idx := i, sec := sec + 1, lines := 3, last := true }]

/-- Give the oldest BISnp that waits a free index, and split it (R303). -/
def Mach.biTake (m : Mach) (p : Nat) : Mach :=
  match (m.port p).biq, firstBelow 64 fun i => !(m.port p).bisn.any fun b => b.idx = i with
  | b :: r, some i =>
    let q := mbsOf i b.len b.off
    m.modP p fun v => { v with
      biq := r, bisn := v.bisn ++ [{ idx := i, biId := b.biId, biTag := b.biTag, len := b.len, off := b.off, left := q.length }]
      mbsq := v.mbsq ++ q }
  | _, _ => m

/-- BISNP: split into one MBS per sector, held while all indices are in use, or answered at once as a protocol error (R303). -/
def Mach.biSnp (m : Mach) (p : Nat) (len : BitVec 2) (off : Off) (biId biTag : BitVec 12) : Mach :=
  if !m.portIn p then m
  else if !(decide (24 ≤ p) && m.isCxl p) then m.protErrM p (m.paOf off) 4
  else
    let n := if len = 0 then 64 else if len = 1 then 128 else 256
    let ok := len ≠ 3 && off.toNat % n = 0 && m.hdmDb p off.toNat n
    if !ok then ((m.protErrM p (m.paOf off) 4).sendMbr p 0 len off biId biTag).creditMbs p
    else (m.modP p fun v => { v with biq := v.biq ++ [{ len, off, biId, biTag }] }).biTake p

/-- MBS: the oldest one at the port is accepted at its slice (R78, R118, R274). -/
def Mach.mbsIn (m : Mach) (p : Nat) : Mach :=
  match (m.port p).mbsq with
  | [] => m
  | q :: r =>
    let h := m.hsOf (lsOf (secOff q.sec)).toNat
    if !m.serving h then m
    else match m.grantMbs h p, (m.slice h).freeTe with
      | some pool, some t =>
        let m := m.modP p fun v => { v with mbsq := r }
        let m := if q.last then m.creditMbs p else m
        Mach.fin (m.accepted h t { kind := .mbs, pool, port := p, key := lineKey q.sec (!q.lines.getLsbD 0), two := q.lines = 3, lines := q.lines, aux := q.idx })
      | _, _ => m

/-- MBR: the oldest one reaches its port, which answers the device once all of a BISnp's have (R78). -/
def Mach.mbrIn (m : Mach) (p : Nat) : Mach :=
  match (m.port p).mbrq with
  | [] => m
  | i :: r =>
    let m := m.modP p fun v => { v with mbrq := r }
    match (m.port p).bisn.find? fun b => b.idx = i with
    | none => m
    | some b =>
      if 1 < b.left then m.modP p fun v => { v with bisn := v.bisn.map fun x => if x.idx = i then { x with left := x.left - 1 } else x }
      else
        let n := (m.port p).mbsCr
        let m := m.modP p fun v => { v with bisn := v.bisn.filter fun x => x.idx ≠ i, mbsCr := 0 }
        let m := (m.sendMbr p i b.len b.off b.biId b.biTag).biTake p
        (List.range n).foldl (fun m _ => m.creditMbs p) m

-- ===== notes (R79, R190, R192) =====

/-- RETIRE_NOTE: the oldest note retires its write-order entry; a lost one marks the BARs that cover it. -/
def Mach.noteIn (m : Mach) (p : Nat) : Mach :=
  match (m.port p).notes with
  | [] => m
  | n :: r =>
    let m := m.modP p fun v =>
      let w := v.wo.find? fun w => w.seq = n.seq
      let bars := match w with
        | some w => if n.lost then v.bars.map fun b => if b.agent = w.agent && b.rqid = w.rqid && decide (w.seq < b.seq) then { b with lost := true } else b
                    else v.bars
        | none => v.bars
      { v with notes := r, wo := v.wo.map fun w => if w.seq = n.seq then { w with done := true, lost := n.lost } else w, bars }
    m.pump p

/-- MCL_CLEAR_NOTICE: the oldest notice arrives; CMP follows the last one of its MCL. -/
def Mach.mclNote (m : Mach) (p : Nat) : Mach :=
  match (m.port p).mnotes with
  | [] => m
  | (ls, a, q) :: r =>
    let m := m.modP p fun v => { v with mnotes := r }
    match (m.port p).mcls.find? fun x => x.agent = a && x.rqid = q && x.left.contains ls with
    | none => m
    | some x =>
      let left := x.left.erase ls
      if left ≠ [] then m.modP p fun v => { v with mcls := v.mcls.map fun y => if y = x then { x with left } else y }
      else (m.modP p fun v => { v with mcls := v.mcls.erase x }).reply p { op := .cmp, agent := a, tid := x.tid }

end Sys2Proof.Machine
end

