-- ==== Sys2Proof/Machine/Link.lean ====
section
/-! DEFINITION. Links: flits received, acknowledgement and credits, replay, retrain, link initialisation, L1 and quiescing
(R285 to R301, R371, R438, R439). -/

namespace Sys2Proof.Machine

-- ===== state changes of a link =====

/-- A port's link state changes, which is a snapshot trigger (Table 13-4). -/
def Mach.setLink (m : Mach) (p : Nat) (st : LinkSt) : Mach :=
  if (m.port p).st = st then m else (m.modP p fun v => { v with st }).trigger 5

/-- A link-level flit is sent, with the current acknowledgement and what credits wait (Tables 11-4 and 11-5). -/
def Mach.sendLink (m : Mach) (p : Nat) (b : Body) : Mach := m.modP p fun v => { v.link b with l1 := false }

/-- The last sequence number received in order. -/
def Port.lastSeq (v : Port) : Seq := v.rxSeq - 1

/-- Training starts: it holds the rate cap that LCFG has now (R438). -/
def Mach.trainGo (m : Mach) (p : Nat) : Mach :=
  m.modP p fun v => { v with cap := if p < 16 then BitVec.ofNat 4 (m.fld (portA p Reg.pLcfg) 0 4) else 0 }

/-- A retrain is requested (R295, R296): merged into a running one, and nothing while the link is not up. -/
def Mach.retrain (m : Mach) (p : Nat) : Mach :=
  if m.portIn p then ((m.setLink p .retrain).trainGo p).modP p fun v => { v with rfail := 0, timed := false } else m

/-- A replay has failed: the eighth in a row requests a retrain (R295). -/
def Mach.replayFailed (m : Mach) (p : Nat) : Mach :=
  let m := (m.bumpP p Reg.pReplayf).modP p fun v => { v with rfail := v.rfail + 1 }
  if 8 ≤ (m.port p).rfail then m.retrain p else m

-- ===== acknowledgements, naks, credits (R289, R293, R294, R300) =====

/-- An acknowledgement frees the flits it covers from the replay buffer; an older one does nothing. -/
def Mach.ackApply (m : Mach) (p : Nat) (q : Seq) : Mach :=
  let v := m.port p
  match v.rpl with
  | [] => m
  | f :: _ =>
    let d := (q - f.seq).toNat
    if v.rpl.length ≤ d then m
    else
      let m := m.setPort p { v with rpl := v.rpl.drop (d + 1), ackd := some q, rfail := 0, timed := false }
      if v.st = .replay then m.setLink p .up else m

/-- Resend what is unacknowledged: the link is in REPLAY until an acknowledgement advances. -/
def Mach.replay (m : Mach) (p : Nat) (timed : Bool) : Mach :=
  if (m.port p).rpl = [] || !m.portIn p then m
  else ((m.bumpP p Reg.pReplay).setLink p .replay).modP p fun v => { v.resend with timed }

/-- A nak: replay from ack_seq + 1, or from the latest acknowledgement where the nak's is older (R294, R300). -/
def Mach.nakIn (m : Mach) (p : Nat) (q : Seq) : Mach :=
  if m.portIn p then ((m.ackApply p q).replay p false).pump p else m

/-- Credits returned to Tribex are added to those held (R270, R289). -/
def Mach.addCredit (m : Mach) (p c n : Nat) : Mach :=
  if 1 ≤ c ∧ c ≤ 8 then m.modP p fun v => { v with peer := v.peer.set c (v.peer.getD c 0 + n) } else m

/-- The acknowledgement and credit field of an accepted flit. -/
def Mach.ackField (m : Mach) (p : Nat) (a : AckField) : Mach :=
  let m := if a.ackV then m.ackApply p a.ackSeq else m
  let m := m.addCredit p a.crCls.toNat a.crCnt.toNat
  if a.nak then m.nakIn p a.ackSeq else m.pump p

/-- A nak is sent, once for each gap (R294): in a CTRL flit, so that it waits for no message (Table 11-4). -/
def Mach.sendNak (m : Mach) (p : Nat) : Mach :=
  let v := m.port p
  (m.sendLink p (.ctrl 4 (v.lastSeq.setWidth 64))).modP p fun v => { v with nakd := true }

-- ===== flits received (R288, R290, R294, R439) =====

/-- A flit whose CRC fails: counted and discarded. The first one is answered with a nak. After it, one with the expected sequence
number is the replay's, which has failed; every other is discarded with no further nak (R294, R295). -/
def Mach.crcFail (m : Mach) (p : Nat) (q : Seq) : Mach :=
  if (m.port p).st = .down || (m.port p).st = .fenced then m
  else
    let m := m.bumpP p Reg.pCrcerr
    if !m.portIn p then m
    else if !(m.port p).nakd then m.sendNak p
    else if q = (m.port p).rxSeq then (m.sendNak p).replayFailed p
    else m

/-- Count an accepted message flit (R439). -/
def Mach.countRx (m : Mach) (p cls : Nat) : Mach :=
  let m := m.bumpP64 p Reg.pRxflitLo
  if cls = 0 then m.bumpP p Reg.pRxreq else if cls = 2 then m.bumpP p Reg.pRxrsp
  else if cls = 3 then m.bumpP p Reg.pRxdat else if cls = 4 then m.bumpP p Reg.pRxmem else m

/-- IDLE: the acknowledgement and credit field alone (R288). -/
def Mach.idleIn (m : Mach) (p : Nat) (a : AckField) : Mach := if m.portIn p then m.ackField p a else m

/-- A message whose opcode is not listed for its class, or not in this direction, is a protocol error (R50, R51): a REQ completes with
CMX, an RSP or DAT is discarded. -/
def Mach.badOpc (m : Mach) (p : PortId) (f : BitVec 640) : Mach :=
  let r := flitReq p f
  let a := flitAgent f
  let mine := behind p.val a.toNat
  let c := flitCls f
  if c = 4 then m.protErrM p.val (m.paOf (flitOff f)) 4
  else if c = 0 then
    let m := m.protErr p.val a r.rqid r.tid r.pa (flitOpc f) 0 (if r.w = .s then 1 else 0)
    if 16 ≤ p.val && p.val < 24 then m
    else if !mine || m.agFenced a.toNat then m.credit p.val 1
    else m.portCmx p.val r false .proterr ((m.homed r.pa.toNat).map keyOf |>.getD 0)
  else
    let m := m.protErr p.val a 0 (if c = 3 then flitTid f else 0) 0 (flitOpc f) (BitVec.ofNat 3 c)
    if 16 ≤ p.val && p.val < 24 then m else if c = 2 then m.credit p.val 3 else if c = 3 then m.credit p.val 4 else m

/-- The message that an accepted flit carries is delivered, across the Yard but for a BAR, which the port completes, and an MBS, which
the port splits (R46, R192, R303). -/
def Mach.deliver (m : Mach) (p : PortId) (f : BitVec 640) : Mach :=
  let r := flitRsp p f
  let dat := fun (o : DatOp) => m.viaYard fun m => m.fwdDat p.val o (flitAgent f) (flitTid f) (f.getLsbD 17) (flitData f)
  match flitCls f, (flitOpc f).toNat with
  | 0, _ => match flitInstr p f with
    | some i => if isBar i then m.request i (flitReq p f) else m.viaYard fun m => m.request i (flitReq p f)
    | none => m.badOpc p f
  | 2, 1 => m.viaYard fun m => m.answer (.sri r) .sri r
  | 2, 2 => m.viaYard fun m => m.answer (.srs r) .srs r
  | 2, 3 => m.viaYard fun m => m.answer (.srf r) .srf r
  | 2, 4 => m.viaYard fun m => m.answer (.srfo r) .srfo r
  | 3, 1 => dat .dts
  | 3, 2 => dat .dte
  | 3, 3 => dat .dtm
  | 3, 4 => dat .dtc
  | 3, 5 => let d := m.flitDtw p f; m.viaYard fun m => m.data d
  | 4, 2 => m.viaYard fun m => m.memIn p.val (flitHtag f) (.mrt p (flitHtag f) (f.getLsbD 17) (f.getLsbD 32) (flitData f))
  | 4, 6 => m.viaYard fun m => m.memIn p.val (flitHtag f) (.mwc p (flitHtag f))
  | 4, 7 => m.biSnp p.val (f.extractLsb' 66 2) (flitOff f) (f.extractLsb' 128 12) (f.extractLsb' 144 12)
  | _, _ => m.badOpc p f

/-- REPLAY_TIMEOUT: no expected flit came within 1,024 flit times of the nak, so the replay failed (R295). -/
def Mach.replayTimeout (m : Mach) (p : Nat) : Mach :=
  if m.portIn p && (m.port p).nakd then (m.sendNak p).replayFailed p else m

/-- TX_REPLAY_TIMER (R294, R295): a replay without a nak; a timed replay that made no progress has failed. -/
def Mach.txTimer (m : Mach) (p : Nat) : Mach :=
  if !m.portIn p || (m.port p).rpl = [] then m
  else
    let m := if (m.port p).timed then m.replayFailed p else m
    m.replay p true

-- ===== link initialisation (Table 11-7, R301, R382) =====

/-- The counts CRADV carries, one byte for each class, in the order of Table 11-4. -/
def cradvWord (cr : List Nat) : W64 :=
  BitVec.ofNat 64 ((List.range 8).foldl (fun a i => a + (cr.getD (i + 1) 0 % 256) * 2 ^ (8 * i)) 0)

/-- The type of a port as INIT carries it. -/
def portType (p : Nat) : Nat := if p < 16 then 0 else if p < 24 then 1 else 2

/-- A die port trained narrower than x32 is not brought up (R301). -/
def narrow (p : Nat) (lanes : BitVec 7) : Bool := decide (p < 16) && decide (lanes.toNat < 32)

/-- The data rate a die port reports, which LCFG.rate_max caps; memory and I/O ports report 0 (R438, Table 11-14). -/
def portRate (p : Nat) (cap rate : BitVec 4) : BitVec 4 := if p < 16 then (if cap = 0 ∨ rate.toNat ≤ cap.toNat then rate else cap) else 0

/-- LINK_TRAINED: INIT, then CRADV with zero credits (Table 11-7). A link narrower than x32 is fenced instead. -/
def Mach.linkTrained (m : Mach) (p : Nat) (rate : BitVec 4) (lanes : BitVec 7) : Mach :=
  if (m.port p).st ≠ .down || m.dom (portDom p) ≠ .on || !m.populated p then m
  else if narrow p lanes then { m with due := m.due ++ [.port p 5 true] }
  else
    let m := m.modP p fun v => { v with rate := portRate p v.cap rate, half := decide (p < 16) && decide (lanes.toNat < 64) }
    ((m.setLink p .init).sendLink p (.ctrl 1 (BitVec.ofNat 64 (portType p + 256)))).sendLink p (.ctrl 2 0)

/-- LINK_TRAIN_TIMEOUT (R383): the port is fenced with fcause 6. -/
def Mach.trainTimeout (m : Mach) (p : Nat) : Mach :=
  if (m.port p).st ≠ .down || m.dom (portDom p) ≠ .on || !m.populated p then m
  else { m with due := m.due ++ [.port p 6 true] }

/-- INIT arrives: link initialisation starts, with every sequence number and credit at 0 (R288, R293). A port that is up applies only
its acknowledgement and credit field. -/
def Mach.initIn (m : Mach) (p : Nat) (a : AckField) : Mach :=
  if (m.port p).st ≠ .init then m.idleIn p a
  else (m.modP p fun v => { v with
    peer := [0, 0, 0, 0, 0, 0, 0, 0, 0], crq := [0, 0, 0, 0, 0, 0, 0, 0, 0], owed := [0, 0, 0, 0, 0, 0, 0, 0, 0], txSeq := 0, rxSeq := 0, rxAny := false, nakd := false, ackd := none, unack := 0,
    rfail := 0, timed := false }).sendLink p (.ctrl 2 0)

/-- CRADV arrives and sets the credits held (R289). -/
def Mach.cradvIn (m : Mach) (p : Nat) (cr : BitVec 64) (a : AckField) : Mach :=
  let v := m.port p
  if v.st = .init || m.portIn p then
    ((m.modP p fun v => { v with peer := 0 :: (List.range 8).map fun i => (cr.extractLsb' (8 * i) 8).toNat }).pump p).idleIn p a
  else m

/-- RESUME arrives: replay from its value + 1 (R296). -/
def Mach.resumeIn (m : Mach) (p : Nat) (q : Seq) (valid : Bool) (a : AckField) : Mach :=
  if !m.portIn p then m
  else
    let m := if valid then m.ackApply p q else m
    let m := if (m.port p).rpl = [] then m.setLink p .up else (m.setLink p .replay).modP p fun v => v.resend
    (m.pump p).idleIn p a

/-- A CTRL NAK: its acknowledgement and credit field, then the replay it asks for (R294). -/
def Mach.nakFlit (m : Mach) (p : Nat) (q : Seq) (a : AckField) : Mach := (m.idleIn p a).nakIn p q

/-- A CTRL flit: its acknowledgement and credit field, then its command (R288, R289, Table 11-4). A command that is not listed does
nothing. -/
def Mach.ctrlIn (m : Mach) (p : Nat) (f : BitVec 640) : Mach :=
  let a := flitAck f
  match (flitCode f).toNat with
  | 1 => m.initIn p a
  | 2 => m.cradvIn p (flitVal f) a
  | 3 => m.resumeIn p ((flitVal f).setWidth 9) ((flitVal f).getLsbD 9) a
  | 4 => m.nakFlit p ((flitVal f).setWidth 9) a
  | _ => m.idleIn p a

/-- MESSAGE_FLIT_RECEIVE (R288, R293, R294): a message flit is accepted when its sequence number is the next expected, its
acknowledgement and credits are applied, and its message is delivered; ahead of it, discarded with one nak; behind it, discarded.
A link-level flit is carried out. -/
def Mach.flitIn (m : Mach) (p : PortId) (f : BitVec 640) : Mach :=
  let k := p.val
  if !flitGood f then m.crcFail k (flitSeq f)
  else if flitCls f = 5 then m.idleIn k (flitAck f)
  else if flitCls f = 6 then m.ctrlIn k f
  else if flitCls f = 7 then
    if (m.port k).st = .down || (m.port k).st = .fenced then m else m.protErr k 0 0 0 0 0 7
  else if !m.portIn k then m
  else
    let v := m.port k
    let d := (flitSeq f - v.rxSeq).toNat
    if d = 0 then
      let m := m.setPort k { v with rxSeq := v.rxSeq + 1, rxAny := true, nakd := false, rfail := 0, unack := v.unack + 1, l1 := false }
      let m := (m.countRx k (flitCls f)).ackField k (flitAck f)
      let m := m.deliver p f
      if 32 ≤ (m.port k).unack then m.sendLink k .idle else m
    else if d < 256 then if v.nakd then m else m.sendNak k
    else m

-- ===== retrain (R296, R297) =====

/-- Count a completed retrain in the window of R297: the third in one window fences the port. -/
def Mach.rtCount (m : Mach) (p : Nat) : Mach :=
  let v := m.port p
  let n := if v.rtOpen then m.fld (portA p Reg.pRtwin) 0 2 + 1 else 1
  if 3 ≤ n then
    { ((m.setReg (portA p Reg.pRtwin) 0).modP p fun v => { v with rtOpen := false }) with due := m.due ++ [.port p 1 true] }
  else (m.setReg (portA p Reg.pRtwin) (BitVec.ofNat 32 n)).modP p fun v => { v with rtOpen := true }

/-- RETRAIN_COMPLETE: the link is back, RESUME is sent, and the unacknowledged flits follow (R296, R297, R301). -/
def Mach.retrainDone (m : Mach) (p : Nat) (rate : BitVec 4) (lanes : BitVec 7) : Mach :=
  if (m.port p).st ≠ .retrain then m
  else if narrow p lanes then { m with due := m.due ++ [.port p 5 true] }
  else
    let m := (m.bumpP p Reg.pRetrain).capture { src := 34 + p, code := 0x01, counted := true }
    let m := m.rtCount p
    let v := m.port p
    let m := m.modP p fun v => { v with rate := portRate p v.cap rate, half := decide (p < 16) && decide (lanes.toNat < 64), nakd := false }
    let m := m.sendLink p (.ctrl 3 (v.lastSeq.setWidth 64 ||| (if v.rxAny then 512 else 0)))
    let m := m.setLink p (if v.rpl = [] then .up else .replay)
    m.pump p

/-- RETRAIN_TIMEOUT: the port is fenced (R296). -/
def Mach.retrainTimeout (m : Mach) (p : Nat) : Mach :=
  if (m.port p).st = .retrain then { m with due := m.due ++ [.port p 2 true] } else m

-- ===== L1 (R371, R399) =====

/-- L1_ENTRY: an idle die port; a claimed adapter only while SEC_PART.l1_claimed is 1. -/
def Mach.l1Entry (m : Mach) (p : Nat) : Mach :=
  let v := m.port p
  let idle := v.rpl = [] && v.egr = [] && v.heldq = [] && v.fwdq = [] && v.rspq = [] && v.unack = 0 && v.crq.all (· = 0)
  if decide (p < 16) && m.bit Reg.pwrCtl 1 && v.st = .up && idle && (!m.claimed (portDom p) || m.bit Reg.secPart 1) then
    m.modP p fun v => { v with l1 := true }
  else m

/-- L1_EXIT. -/
def Mach.l1Exit (m : Mach) (p : Nat) : Mach := m.modP p fun v => { v with l1 := false }

-- ===== quiescing (R299) =====

/-- Return the withheld REQ and MBS credits of a port. -/
def Mach.freeCredits (m : Mach) (p : Nat) : Mach :=
  m.modP p fun v => { v with crq := (List.range 9).map fun c => v.crq.getD c 0 + v.withh.getD c 0, withh := [0, 0, 0, 0, 0, 0, 0, 0, 0] }

/-- Set or clear LCTL.quiesce. -/
def Mach.quiesce (m : Mach) (p : Nat) (on : Bool) : Mach :=
  if on then m.setBits (portA p Reg.pLctl) 1
  else
    let m := m.clrBits (portA p Reg.pLctl) 1
    if m.safe.isSome || m.drain.isSome then m else m.freeCredits p

/-- Has a port no accepted request that has not ended in any slice, an EVH and a BISnp among them (R299)? -/
def Mach.quiet (m : Mach) (p : Nat) : Bool :=
  let v := m.port p
  v.heldq.isEmpty && (v.outs.filter fun o => !o.ended).isEmpty && v.mbsq.isEmpty && v.biq.isEmpty && v.bisn.isEmpty &&
  m.active.all fun h => (m.slice h).te.all fun e => e.2.st = .free || e.2.kind ≠ .evh || e.2.port ≠ p

/-- Credits that no message has carried return (R270), but from a port that retrains (R280). -/
def Mach.sendCredits (m : Mach) (p : Nat) : Mach := if m.portIn p then m.modP p fun v => Port.sendCr 64 v else m

end Sys2Proof.Machine
end

