-- ==== Sys2Proof/Machine/Fence.lean ====
section
/-! DEFINITION. Fences of ports and agents, the owner sweep, the snoop-response timeout and the safe state (R129 to R132,
R298, R323 to R326, R337). -/

namespace Sys2Proof.Machine

-- ===== agents (Table 12-6, R130, R131, R325) =====

/-- The agents behind a port (R9, R285). -/
def portAgents (p : Nat) : List Nat := if p < 16 then [p] else if 24 ≤ p then [16 + 2 * (p - 24), 17 + 2 * (p - 24)] else []

/-- Is a write-order entry of a port still needed by a tracker entry, a write in flight or a note? -/
def Mach.woLive (m : Mach) (p n : Nat) : Bool :=
  (m.port p).notes.any (fun x => x.seq = n) ||
  m.active.any fun h =>
    let s := m.slice h
    (s.busy.any fun e => e.2.port = p && e.2.wo = some n) ||
    (s.dbuf.any fun e => e.2.wr.any fun w => w.notes.contains (p, n)) ||
    (s.wc.any fun e => e.2.any fun v => v.notes.contains (p, n))

/-- What a port drops of a fenced agent: its requests that no slice has accepted, its BARs and MCLs, its snoop answers
held behind a forward, and what waits at the egress for it (R132, R323). Slots that free return their credit. -/
def Mach.portDrop (m : Mach) (a : Nat) : Mach :=
  let p := agPort a
  let v := m.port p
  let mine := fun (x : BitVec 5) => x.toNat = a
  let held := v.heldq.filter fun q => mine q.r.agent
  let late := v.outs.filter fun o => mine o.agent && o.dtw && (o.at_.isSome || o.ended)
  let reqs := (held.map fun q => (q.r.tid, isMcl q.req)).eraseDups.length + late.length
  let rsps := (v.rspq.filter fun i => match i with | .sri r | .srs r | .srf r | .srfo r => mine r.agent | _ => false).length
  let m := m.modP p fun v => { v with
    heldq := v.heldq.filter fun q => !mine q.r.agent
    outs := (v.outs.filter fun o => !mine o.agent || (o.at_.isSome && !o.ended)).map fun o => if mine o.agent then { o with dtw := false } else o
    bars := v.bars.filter fun b => !mine b.agent
    mcls := v.mcls.filter fun x => !mine x.agent
    mnotes := v.mnotes.filter fun x => !mine x.2.1
    rspq := v.rspq.filter fun i => match i with | .sri r | .srs r | .srf r | .srfo r => !mine r.agent | _ => true
    egr := v.egr.filter fun g => g.op.cls = 4 || !mine g.agent }
  let m := (List.range reqs).foldl (fun m _ => m.credit p 1) m
  (List.range rsps).foldl (fun m _ => m.credit p 3) m

/-- A pending snoop to a fenced agent counts as answered SRI; where it went to the line's recorded owner the line is lost
(R130, R131). -/
def Mach.sriFor (m : Mach) (h t a : Nat) : Mach :=
  let e := m.te h t
  if e.st ≠ .active || !e.pend.getLsbD a then m
  else
    let own := e.snp.owner = some (BitVec.ofNat 5 a) ||
      (e.kind = .biv && (match (m.slice h).victim (keySec e.key) with
        | some v => !enImp v.word && ownsLine v.word e.line1 a
        | none => false))
    m.modTe h t fun e => { e with
      pend := e.pend &&& ~~~ agBit a, snp := { e.snp with gone := e.snp.gone ||| agBit a }
      lost := e.lost || own, lostBy := if own then BitVec.ofNat 5 a else e.lostBy }

/-- Go on with an entry that a fence may have completed. -/
def Mach.afterFence (m : Mach) (h t : Nat) : Mach :=
  let e := m.te h t
  if e.st ≠ .active then m
  else match e.kind with
    | .qop _ => if e.ph = .qdtw then Mach.fin (m.qGo h t) else m
    | _ =>
      if !e.kind.isReq || atWb e.at_ then m.tryEnd h t
      else if e.ph = .collect && isWrKind e.kind then m.ncWrite h t else m
where
  isWrKind : TKind → Bool | .wrl | .wrp | .wbd | .scd => true | _ => false

/-- One active slice from the sc in which agent `a` is fenced (R130, R178, R325). -/
def Mach.sliceFence (m : Mach) (h a : Nat) : Mach :=
  let mine := fun (e : TE) => e.kind.isReq && e.agent.toNat = a
  let kept := fun (e : TE) => match e.kind with | .wrl | .wrp | .wbd | .scd => true | _ => false
  let ts := (m.slice h).busy.map (·.1)
  -- waiting entries leave, ACTIVE ones grant nothing to the agent
  let m := ts.foldl (fun m t =>
    let e := m.te h t
    if !mine e then m
    else if e.st = .wait && !kept e then m.endTe h t
    else m.modTe h t fun e => { e with orphan := true }) m
  -- imprecise entries and sets are suspect from now on
  let m := m.modS h fun s =>
    let imp := s.ss.flatMap fun x => (List.range 16).filterMap fun w =>
      let e : W64 := (s.sf.get 0 (sfIdx w x.1)).setWidth 64
      if ssValid (x.2.setWidth 48) w && enImp e then some (sectorOf (BitVec.ofNat 14 x.1) (enTag e)) else none
    let mark := fun (e : Nat × TE) => if e.2.kind = .rebuild then (e.1, { e.2 with suspect := 3 }) else e
    { imp.eraseDups.foldl (fun s x => s.suspectSec x 3) s with
      susp := (s.susp ++ s.simpSets).eraseDups
      rbq := s.rbq.map fun x => (x.1, 3), te := s.te.map mark
      mon := s.mon.filter fun e => e.1 / 512 ≠ a }
  -- no DTW comes any more for a request that has ended
  let m := m.modS h fun s => { s with dbuf := s.dbuf.filter fun e => !(e.2.owed.any fun x => x.1.toNat = a) }
  let m := ts.foldl (fun m t => m.sriFor h t a) m
  ts.foldl (fun m t => m.afterFence h t) m

-- ===== the owner sweep (R324) =====

/-- The sets a slice still has to sweep are none: its sweep has passed the last set. -/
def OSweep.over (o : OSweep) : Bool := decide (16384 ≤ o.set)

/-- The progress registers of the running sweep (Table 12-15). A slice that a rehoming replaces sweeps its sets again. -/
def Mach.sweepPos (m : Mach) (a : Nat) : Mach :=
  let least := m.active.foldl (fun n h => match (m.slice h).osw with | some o => min n o.set | none => n) 16384
  (m.setReg Reg.rvpOsPos (BitVec.ofNat 32 (a * 65536 + min least 16383))).progress Reg.rvpOsPct (least * 10000 / 16384)

/-- Start the sweep of the first agent that awaits one; a slice whose logic is not powered holds no entry to sweep. -/
def Mach.sweepStart (m : Mach) : Mach :=
  match m.sweeps with
  | [] => m
  | a :: _ =>
    let m := m.active.foldl (fun m h => m.modS h fun s => { s with
      osw := some { agent := a, set := if m.dom (sliceDom h 0) = .on then 0 else 16384, lostN := 0 } }) m
    (m.setReg Reg.rvpOsPct 0).sweepPos a

/-- End the running sweep once every slice has finished, with its one capture for the package, and start the next. -/
def Mach.sweepCheck : Nat → Mach → Mach
  | 0, m => m
  | n + 1, m =>
    match m.sweeps with
    | [] => m
    | a :: r =>
      if m.active.all fun h => match (m.slice h).osw with | some o => o.over | none => true then
        let lost := (m.active.map fun h => match (m.slice h).osw with | some o => o.lostN | none => 0).sum
        let m := if lost = 0 then m else m.capture { src := 34 + agPort a, code := 0x1A, cls := .d, who := some (BitVec.ofNat 5 a, 0, 0) }
        let m := m.active.foldl (fun m h => m.modS h fun s => { s with osw := none }) m
        Mach.sweepCheck n ({ m with sweeps := r }.sweepStart)
      else m

/-- Fence an agent (Table 12-6, R323, R324). -/
def Mach.fenceAgent (m : Mach) (a : Nat) : Mach :=
  if m.agFenced a then m
  else
    let m := { m with fagent := m.fagent ||| agBit a }
    let m := m.active.foldl (fun m h => m.sliceFence h a) m
    let m := m.portDrop a
    let m := m.modP (agPort a) fun v => { v with wo := v.wo.filter fun w => w.agent.toNat ≠ a || m.woLive (agPort a) w.seq }
    -- forwards that waited for the agent's egress are accepted and discarded there
    let m := (List.range 28).foldl (fun m k => if (m.port k).fwdq = [] then m else m.fwdGo k) m
    let idle := m.sweeps = []
    let m := { m with sweeps := m.sweeps ++ [a] }
    (if idle then m.sweepStart else m).sweepCheck 24

/-- Ask for the spill buckets of the swept set, at most eight in flight (R324). -/
def Mach.sweepBuckets (m : Mach) (h set : Nat) : Mach :=
  let per := 2 ^ (m.fld Reg.glbSpsize 0 6 - 25)
  (List.range 8).foldl (fun m _ =>
    match (m.slice h).osw with
    | none => m
    | some o =>
      let a := m.setBucket h set o.bkt
      let s := m.slice h
      let mine := (s.bkts.filter fun b => match b.use with | .sweepRd _ => true | _ => false).length
      if o.bkt < per && mine < 8 && !s.bktBusy a && !s.bktFull then
        ((m.modS h fun s => { s with osw := some { o with bkt := o.bkt + 1 } }).bktAdd h a (.sweepRd set)).bktRead h a
      else m) m

/-- Is a transaction active or waiting on a line (R324)? -/
def Slice.lineBusy (s : Slice) (k : LineKey) : Bool :=
  s.busy.any fun e => (e.2.st = .active || e.2.st = .wait) && e.2.kind.isLine && e.2.keys.contains ((0 : BitVec 1) ++ k)

/-- How a step of the owner sweep ends: done, waiting in its set, or in need of a region walk. -/
inductive SwStep where
  | done | wait | walk
  deriving DecidableEq, Repr

/-- Resolve line `l1` of the entry in a way. -/
def Mach.sweepWayLine (m : Mach) (h set w a : Nat) (l1 : Bool) : Mach × SwStep :=
  let line := fun (attr : Option (BitVec 16)) =>
    let (m, ok) := m.sweepLine h set w a l1 attr
    (m, if ok then SwStep.done else .wait)
  if !ssValid (m.ss h set) w then (m, .done)
  else
    let e := m.entry h set w
    let sec := sectorOf (BitVec.ofNat 14 set) (enTag e)
    let owns := ownsLine e l1 a
    if (m.slice h).lineBusy (lineKey sec l1) || !(owns || (enPres e).getLsbD a) then (m, .done)
    else if !owns then line none
    else match m.rcFind h (secOff sec), (m.slice h).osw.bind (·.reg) with
      | some x, _ => line (some x)
      | none, some (s, x) => if s = sec then line x else (m, .walk)
      | none, none => (m, .walk)

/-- One way of the swept set: an imprecise entry goes to a rebuild, a precise one is resolved line by line. False where
the sweep must wait in this set. -/
def Mach.sweepWay (m : Mach) (h set a w : Nat) : Mach × Bool :=
  if !(ssValid (m.ss h set) w && (m.slice h).searched w) then (m, true)
  else
    let e := m.entry h set w
    let sec := sectorOf (BitVec.ofNat 14 set) (enTag e)
    if enImp e then
      let known := (m.slice h).rbq.any (fun x => x.1 = sec) || (m.slice h).busy.any fun x => x.2.kind = .rebuild && x.2.inSector sec
      if known then (m, true) else if 32 ≤ (m.slice h).rbq.length then (m, false) else (m.queueRebuild h sec, true)
    else
      let (m, ok0) := m.sweepWayLine h set w a false
      let (m, ok1) := m.sweepWayLine h set w a true
      if ok0 = .done && ok1 = .done then (m, true)
      else if ok0 ≠ .walk && ok1 ≠ .walk then (m, false)
      else
        let m := m.modS h fun s => { s with osw := s.osw.map fun (o : OSweep) => { o with wsec := some sec } }
        (Mach.fin (m.startWalk h (.evac h) (secOff sec)), false)

/-- OWNER_SWEEP_SET: the sweep of a slice does its work on one set: the buckets of a set with spilled entries, then its ways. -/
def Mach.sweepSet (m : Mach) (h : Nat) : Mach :=
  match (m.slice h).osw with
  | none => m
  | some o =>
    if o.over || o.wsec.isSome || !m.serving h then m
    else
      let set := o.set
      let m := (m.ensureSet h set).checkSet h set
      let per := if ssSpc (m.ss h set) = 0 || m.spillDown then 0 else 2 ^ (m.fld Reg.glbSpsize 0 6 - 25)
      let m := if o.bkt < per then m.sweepBuckets h set else m
      let left := match (m.slice h).osw with | some o => decide (o.bkt < per) | none => false
      let inFlight := (m.slice h).bkts.any fun b => b.use = .sweepRd set
      if left || inFlight then m
      else
        let (m, ok) := (List.range 16).foldl (fun (x : Mach × Bool) w => if x.2 then x.1.sweepWay h set o.agent w else x) (m, true)
        if !ok || (m.slice h).busy.any (fun e => e.2.kind = .sweep) then m
        else
          let m := m.modS h fun s => { s with osw := s.osw.map fun (o : OSweep) => { o with set := set + 1, bkt := 0, reg := none } }
          (m.sweepPos o.agent).sweepCheck 24

-- ===== ports (Table 11-9) =====

/-- Break the queue of a residency slot, with the pointers as its slot holds them (R225, R230). -/
def Mach.slotBreak (m : Mach) (h i cause : Nat) : Mach :=
  match (m.slice h).slot.get none i with
  | some v => m.qBreak h v.qid cause 0
  | none => m

/-- A read that will never return ends what it was made for (Table 11-9, R37, R74, R225). -/
def Mach.lostRead (m : Mach) (h : Nat) (u : RUse) (drop : Bool) : Mach :=
  if drop then m
  else match u with
    | .data t =>
      let m := m.modTe h t fun e => { e with rd := .down }
      if atWb (m.te h t).at_ then m.tryEnd h t else m.ncEnd h t
    | .qdesc t => m.cmx h t .tgtdown
    | .ddesc t => m.dDesc h t true 0
    | .qtail i _ => m.slotBreak h i 7
    | .qhead i _ => m.slotBreak h i 7
    | _ => m

/-- A write that is discarded ends what waited on it (Table 11-9, R78, R188, R192, R227, R263). -/
def Mach.lostUse (m : Mach) (h port : Nat) (off : Off) (use : WUse) (notes : List (Nat × Nat)) : Mach :=
  let m := notes.foldl (fun m n => m.sendNote n true) (m.lostWrite port off)
  match use with
  | .mbs t => if (m.te h t).ph = .mwc then m.mbsEnd h t else m
  | .zero _ => { m with tmp := m.tmp.map fun (o : TmpOp) => { o with busy := o.busy - 1 } }.tmpCheck
  -- its requester learns of the loss from the CMX: no BAR tells it again (R152)
  | .deferred t => m.finish h t { op := .cmx, stat := Cmx.tgtdown.code }
  | .doorbell q => (m.modS h fun s => { s with dbq := s.dbq.filter fun b => !(b.qid = q && (b.wb.any fun k => (s.db k).wr.isNone)) }).bellLost h q
  | _ => m

/-- Every read and write of a slice that is outstanding on, or waits for, a fenced port ends. -/
def Mach.sliceDown (m : Mach) (h p : Nat) : Mach :=
  let s := m.slice h
  let isRd := fun (t : Todo) => match t with | .read _ q _ => q = p | _ => false
  let isWr := fun (t : Todo) => match t with | .write _ q _ _ _ _ _ _ => q = p | _ => false
  let rds := (s.rbuf.filterMap fun e => e.2.bind fun b => if b.port = p then some (b.use, b.drop) else none) ++
    s.todo.filterMap fun t => match t with | .read u q _ => if q = p then some (u, false) else none | _ => none
  let wrs := (s.dbuf.filterMap fun e => e.2.wr.bind fun w => if w.port = p then some (w.off, w.use, w.notes) else none) ++
    (s.wc.filterMap fun e => e.2.bind fun v => v.wr.bind fun w => if w.port = p then some (w.off, w.use, w.notes) else none) ++
    s.todo.filterMap fun t => match t with | .write _ q off u _ _ _ _ => if q = p then some (off, u, []) else none | _ => none
  let m := m.modS h fun s => { s with
    rbuf := s.rbuf.filter fun e => !(e.2.any fun b => b.port = p)
    dbuf := s.dbuf.filter fun e => !(e.2.wr.any fun w => w.port = p)
    wc := s.wc.filter fun e => !(e.2.any fun v => v.wr.any fun w => w.port = p)
    todo := s.todo.filter fun t => !(isRd t || isWr t) }
  let m := wrs.foldl (fun m x => m.lostUse h p x.1 x.2.1 x.2.2) m
  let m := rds.foldl (fun m x => m.lostRead h x.1 x.2) m
  Mach.fin ((m.kick h).bellGo h)

/-- Fence a port (R298, Table 11-9): with its agents, and with what its seeds hold. `cap` says that event 0x06 is the
fence's record. -/
def Mach.fencePort (m : Mach) (p : Nat) (fc : BitVec 4) (cap : Bool) : Mach :=
  if !m.populated p || (m.port p).st = .fenced then m
  else
    let spill := p = m.spillPort
    let m := (m.setLink p .fenced).setFld (portA p Reg.pLstat) 28 4 fc.toNat
    let m := if cap then m.capture { src := 34 + p, code := 0x06, cls := .f } else m
    let gone := fun (v : Port) (i : Nat) => (v.mbsq.filter fun q => q.idx = i).length
    let m := m.modP p fun v => { v with
      egr := [], rpl := [], l1 := false, nakd := false, timed := false, unack := 0, rfail := 0
      peer := [0, 0, 0, 0, 0, 0, 0, 0, 0], owed := [0, 0, 0, 0, 0, 0, 0, 0, 0], withh := [0, 0, 0, 0, 0, 0, 0, 0, 0]
      crq := [0, 0, 0, 0, 0, 0, 0, 0, 0], fwdq := [], rspq := [], mbsq := [], biq := [], mbsCr := 0
      bisn := (v.bisn.map fun b => { b with left := b.left - gone v b.idx }).filter fun b => b.left ≠ 0 }
    let m := (portAgents p).foldl (fun m a => m.fenceAgent a) m
    let m := (List.range 28).foldl (fun m k => if (m.port k).fwdq = [] then m else m.fwdGo k) m
    if p < 16 then m
    else
      let scrubs := if !spill then 0
        else (m.active.map fun h => ((m.slice h).bkts.filter fun b => match b.use with | .scrubRd | .scrubWr _ => true | _ => false).length).sum
      let m := if spill then m.active.foldl (fun m h => m.spillFence h) m else m
      let m := if scrubs = 0 then m
        else { m with tmp := m.tmp.map fun (o : TmpOp) => { o with busy := o.busy - scrubs } }.tmpCheck
      let m := Mach.fin (m.walkDown p)
      m.active.foldl (fun m h => m.sliceDown h p) m

-- ===== the snoop-response timeout (R129) =====

/-- SNOOP_RESPONSE_TIMEOUT: counted and captured for every pending agent; the third expiry fences them. -/
def Mach.snpTimeout (m : Mach) (h t : Nat) : Mach :=
  let e := m.te h t
  if e.st ≠ .active || e.pend = 0 || (m.slice h).run ≠ .on || (m.slice h).role ≠ .active then m
  else
    let n := min 3 (e.tocnt.toNat + 1)
    let key := if e.kind = .rebuild || e.kind = .biv || e.kind = .mbs then lineKey (keySec e.key) e.line1 else e.key
    let pa := m.paOf (offOf key)
    let late := agents e.pend
    let m := (m.modTe h t fun e => { e with tocnt := BitVec.ofNat 2 n }).bump h Reg.hscSnpto
    let m := late.foldl (fun m a => m.capture { (e.ev (m.htag h t) pa (34 + agPort a) 0x04) with counted := true }) m
    if e.tocnt.toNat ≠ 2 then m
    else late.foldl (fun m a =>
      let m := m.capture { (e.ev (m.htag h t) pa (34 + agPort a) 0x05) with cls := .f }
      { m with due := m.due ++ [.agent a] }) m

-- ===== the safe state (Table 12-13) =====

/-- A request held at a port ends with CMX POISON; an EVH and a write's data are dropped (Table 12-13 step 2). -/
def Mach.heldPoison (m : Mach) (p : Nat) : Mach :=
  let qs := (m.port p).heldq
  let m := m.modP p fun v => { v with heldq := [], mcls := [] }
  (qs.foldl (fun (x : Mach × List (BitVec 5 × Tid)) q =>
    let (m, seen) := x
    let id := (q.r.agent, q.r.tid)
    if seen.contains id && !(tmpl q.req).kind = .evh then x
    else
      let mine := fun (o : Outst) => o.agent = q.r.agent && o.tid = q.r.tid && !o.ended
      let m := match q.wo with
        | some n => m.modP p fun v => { v with wo := v.wo.filter fun w => w.seq ≠ n }
        | none => m
      if (tmpl q.req).kind = .evh && hasAddr q.req then (m.credit p 1, seen)
      else
        let waits := q.wrk && q.dtw.isNone
        let m := m.modP p fun v => { v with outs := (v.outs.filter fun o => !mine o || waits).map fun o => if mine o then { o with ended := true, dtw := true } else o }
        let m := if waits then m else m.credit p 1
        (m.emit p { op := .cmx, agent := q.r.agent, tid := q.r.tid, key := q.key, stat := Cmx.poison.code }, id :: seen)) (m, [])).1

/-- Every WAIT entry, and every request held at a port, ends with CMX POISON (Table 12-13 step 2, R378). -/
def Mach.endWaits (m : Mach) : Mach :=
  let m := m.active.foldl (fun m h =>
    (((m.slice h).busy.filter fun e => e.2.st = .wait).map (·.1)).foldl (fun m t =>
      if (m.te h t).st ≠ .wait then m
      else if (m.te h t).kind.isReq then m.cmx h t .poison else m.endTe h t) m) m
  (List.range 28).foldl (fun m p => if (m.port p).heldq = [] then m else m.heldPoison p) m

/-- Every entry still ACTIVE ends with CMX POISON. -/
def Mach.endActive (m : Mach) : Mach :=
  m.active.foldl (fun m h =>
    (((m.slice h).busy.filter fun e => e.2.st = .active).map (·.1)).foldl (fun m t =>
      if (m.te h t).st ≠ .active then m
      else if (m.te h t).kind.isReq then m.cmx h t .poison else m.endTe h t) m) m

/-- The ports of the writes that a slice has in flight or waiting. -/
def Slice.unwritten (s : Slice) : List Nat :=
  (s.dbuf.filterMap fun e => e.2.wr.map (·.port)) ++ (s.wc.filterMap fun e => e.2.bind fun v => v.wr.map (·.port)) ++
    s.todo.filterMap fun t => match t with | .write _ q _ _ _ _ _ _ => some q | _ => none

/-- Enter the safe state: steps 1 and 2 take effect at once (R337). -/
def Mach.enterSafe (m : Mach) (cause : Nat) (addr : BitVec 20) : Mach :=
  if m.safe.isSome then m
  else
    let m := { m with safe := some { step := 2, cause, addr } }
    -- a mismatch of an SEC register concerns the SEC page (R344)
    (m.recordV 9 (decide (addr.toNat / 0x1000 = 3)) (payload 9 [cause, addr.toNat] 16) 2).endWaits

/-- SAFE_STATE_DEADLINE: every entry still ACTIVE ends with CMX POISON, and step 3 writes what is buffered. -/
def Mach.safeDeadline (m : Mach) : Mach :=
  match m.safe with
  | some s =>
    if s.step ≠ 2 then m
    else
      let m := { m with safe := some { s with step := 3 } }
      let m := m.endActive
      m.active.foldl (fun m h => m.wcCloseAll h) m
  | none => m

/-- SAFE_STATE_WRITES_DONE: what was not written is discarded and counted, and the exempt flush of step 4 starts. -/
def Mach.safeWrites (m : Mach) : Mach :=
  match m.safe with
  | some s =>
    if s.step ≠ 3 then m
    else
      let m := m.active.foldl (fun m h =>
        let s := m.slice h
        let ports := s.unwritten
        let m := m.modS h fun s => { s with
          dbuf := s.dbuf.filter fun e => e.2.wr.isNone, wc := []
          todo := s.todo.filter fun t => match t with | .write _ _ _ _ _ _ _ _ => false | _ => true }
        ports.foldl (fun m p => m.bumpP p Reg.pLostwr) m) m
      { m with safe := some { s with step := 4 }, rcr := { m.rcr with frozen := false, exempt := true, paused := false } }.startFlush
  | none => m

/-- SAFE_STATE_FLUSH_DONE: TX_FATAL_N is asserted (R306). -/
def Mach.safeFlushed (m : Mach) : Mach :=
  match m.safe with
  | some s => if s.step ≠ 4 then m else { m with safe := some { s with step := 5 }, fatal := true }
  | none => m

end Sys2Proof.Machine
end

