-- ==== Sys2Proof/Machine/Recover.lean ====
section
/-! DEFINITION. Recovery: rehoming, controller faults, configuration parity, the release of capture records, and the
reactions RVP owes (R317, R321, R328 to R336, R419, R421). -/

namespace Sys2Proof.Machine

-- ===== the record of a refused write (R419) =====

/-- The causes of Table 16-3. -/
inductive Cause where
  | world | resvd | nowrite | locked | busy | state | value | held | alias_
  deriving DecidableEq, Repr

/-- The code of a cause. -/
def Cause.code : Cause → Nat
  | .world => 1 | .resvd => 2 | .nowrite => 3 | .locked => 4 | .busy => 5 | .state => 6 | .value => 7 | .held => 8 | .alias_ => 9

/-- Record a refused write at address `a` of any window in the page's PG_ERR: the first one in full, a later one as ovf;
a masked cause leaves no record (R419, Table 16-2). -/
def Mach.refuse (m : Mach) (w : World) (a : Nat) (c : Cause) : Mach :=
  let p := a / 0x1000
  let e := Reg.pgErr p
  if m.bit (Reg.pgErrmask p) c.code then m
  else if m.bit e 31 then m.setBits e 0x40000000
  else m.setReg e (BitVec.ofNat 32 (2 ^ 31 + (if w = .s then 2 ^ 29 else 0) + (if 0x400 ≤ a % 0x1000 then 2 ^ 28 else 0) +
    c.code * 2 ^ 24 + (a % 0x400) / 4))

-- ===== pages =====

/-- Return the page-specific registers of a page, from offset `lo` on, to their reset values, in both worlds' copies. -/
def Mach.clearPage (m : Mach) (p lo : Nat) : Mach :=
  let mine := fun (a : Nat) => decide ((a % 0x100000) / 0x1000 = p ∧ lo ≤ a % 0x1000)
  { m with regs := m.regs.filter fun e => !mine e.1 }

/-- Store the RW and RWL fields that the configuration image gives a register. -/
def Mach.cfgSet (m : Mach) (a : Nat) (v : W32) : Mach :=
  match regRow m.integ a with
  | some r => let k := r.rw ||| r.rwl
              m.setReg a ((m.reg a &&& ~~~ k) ||| (v &&& k))
  | none => m

/-- Load a page from CP's copy of the image (R336, R421, R436). -/
def Mach.loadPage (m : Mach) (p : Nat) : Mach :=
  let m := m.setReg (Reg.pgPar p) 0
  match m.image with
  | some g => g.cfg.foldl (fun m x => if x.1.toNat / 0x1000 = p then m.cfgSet x.1.toNat x.2 else m) m
  | none => m

/-- The way-banks a slice has when its domains come on: a bank marked bad stays out (R386). -/
def Mach.banksAt (m : Mach) (h : Nat) : Vector BankSt 4 :=
  let st := fun b => if m.bit (Reg.tstSfbad + 4 * (h / 8)) (4 * (h % 8) + b) then BankSt.off else BankSt.on
  #v[st 0, st 1, st 2, st 3]

-- ===== rehoming (R328 to R333) =====

/-- Region walkers and Yard quadrants follow the slices and the adapters they serve (Table 14-2). -/
def Mach.shared (m : Mach) : Mach :=
  let m := (List.range 5).foldl (fun m g =>
    let on := (List.range 34).any fun h => grpOf h = g && m.dom (sliceDom h 0) ≠ .off
    if on == decide (m.dom (207 + g) = .on) then m
    else if on then m.setDom (207 + g) .on else (m.setDom (207 + g) .off).modG g fun _ => {}) m
  (List.range 4).foldl (fun m q =>
    let on := ([4 * q, 4 * q + 1, 4 * q + 2, 4 * q + 3, 16 + 2 * q, 17 + 2 * q, 24 + q]).any fun p => m.dom (portDom p) = .on
    m.setDom (242 + q) (if on then .on else .off)) m

/-- The logic of a slice that serves nothing is reset, and its six domains go OFF (R10, R377). -/
def Mach.spareOff (m : Mach) (h : Nat) : Mach :=
  let s := m.slice h
  let m := m.setSlice h { role := s.role, ls := s.ls, run := s.run, bank := m.banksAt h }
  ((List.range 6).foldl (fun m k => m.domTo (sliceDom h k) .off) m).shared

/-- CP makes the transitions that waited, in order, as far as it may (R363, Table 12-12). -/
def Mach.domNext (m : Mach) : Mach :=
  if m.domq = [] then m
  else
    (m.domq.foldl (fun (m : Mach) (x : Nat × DomSt) =>
      if m.domFree x.2 && !(m.domq.any fun y => y.1 = x.1) then m.moveDom x.1 x.2 else { m with domq := m.domq ++ [x] })
      { m with domq := [] }).shared

/-- RVP_SPARE names the two slices that are not active, in ascending order (R11). -/
def Mach.nameSpares (m : Mach) : Mach :=
  let s := (List.range 34).filter fun h => (m.slice h).role ≠ .active
  m.setReg Reg.rvpSpare (BitVec.ofNat 32 (s.getD 0 32 + 256 * s.getD 1 33))

/-- The spare RVP would take: the lowest-numbered usable one (R329). -/
def Mach.spareFor (m : Mach) : Option Nat :=
  (List.range 34).find? fun h => (m.slice h).role = .spare && !(m.rehome.any fun r => r.new = h)

/-- The world of a rehoming's phase changes and of its record: S where the S world commanded it or has claimed a domain of the slice
(R344, R345). -/
def Mach.rhSec (m : Mach) (h : Nat) (cmd : Bool) : Bool := cmd || (List.range 6).any fun k => m.claimed (sliceDom h k)

/-- PREP: the spare is reset and its six domains are powered (Table 12-7). -/
def Mach.rhPrep (m : Mach) (h n : Nat) (stopped : Bool) (why : RhWhy) (again : Bool) : Mach :=
  let ls := (m.slice h).ls
  let m := ((m.setSlice n { role := .spare, bank := m.banksAt n }).clearPage (0x80 + n) 0x020)
  let m := (List.range 6).foldl (fun m k => if m.domWant (sliceDom n k) = .on then m else m.domTo (sliceDom n k) .waking) m
  let keep := (m.reg Reg.rvpRhstat) &&& 0xE0000000
  let m := m.setReg Reg.rvpRhstat (keep ||| BitVec.ofNat 32 (ls * 2 ^ 24 + n * 2 ^ 16 + h * 2 ^ 8))
  let m := (m.setReg Reg.rvpRhPos 0).setReg Reg.rvpRhPct 0
  { m with rehome := some { ls, old := h, new := n, stopped, why, again } }.trigger 4 (m.rhSec h (why = RhWhy.cmd))

/-- No usable spare is left for a slice that should be rehomed (R318, R329). -/
def Mach.noSpare (m : Mach) (h : Nat) (why : RhWhy) : Mach :=
  match why with
  | .esc => m
  | .cmd => (m.setFld Reg.rvpRhstat 29 3 2).refuse .s Reg.rvpRhcmd .state
  | .fault => m.capture { src := h, code := 0x1E, cls := .x }

/-- Fence and rehome an active slice, or mark a spare unusable (Table 12-1, R328, R333). -/
def Mach.rehomeDue (m : Mach) (h : Nat) (stopped : Bool) (why : RhWhy) : Mach :=
  match (m.slice h).role with
  | .active =>
    match m.rehome with
    | some r =>
      if r.old = h then { m with rehome := some { r with stopped := r.stopped || stopped } }
      else if m.rhq.any fun x => x.1 = h then m else { m with rhq := m.rhq ++ [(h, stopped, why)] }
    | none => match m.spareFor with
      | some n => m.rhPrep h n stopped why false
      | none => m.noSpare h why
  | .spare =>
    let m := m.modS h fun s => { s with role := .unusable }
    match m.rehome with
    | some r =>
      if r.new ≠ h then m
      else
        -- the spare of a running PREP or FREEZE: start again on the next one (Table 12-9)
        let m := { m with rehome := none }.spareOff h
        -- the failing slice serves again until its next FREEZE, what waited at its ingress first
        let m := if (m.slice r.old).run ≠ .frozen then m
          else (m.slice r.old).ingress.foldl (fun m i => m.sliceMsg i) (m.modS r.old fun s => { s with run := .on, ingress := [] })
        match m.spareFor with
        | some n => m.rhPrep r.old n r.stopped r.why true
        | none => m.noSpare r.old r.why
    | none => m
  | _ => m

/-- Start the next rehoming that waits (Table 12-9). -/
def Mach.rhNext (m : Mach) : Mach :=
  match m.rehome, m.rhq with
  | none, (h, st, why) :: r => { m with rhq := r }.rehomeDue h st why
  | _, _ => m

/-- REHOME_PREP_DONE: the spare's domains are up and FREEZE begins, where CP has begun to wake all six. An armed injection is
cleared (R430). -/
def Mach.rhFreeze (m : Mach) : Mach :=
  match m.rehome with
  | some r =>
    let woken := fun (k : Nat) => m.dom (sliceDom r.new k) = .on || m.dom (sliceDom r.new k) = .waking
    if r.freeze || !m.ctrlRuns 1 || !((List.range 6).all woken) then m
    else
      let m := (List.range 6).foldl (fun m k => m.moveDom (sliceDom r.new k) .on) m
      let m := m.modS r.old fun s => { s with run := if s.run = .on then .frozen else s.run }
      let m := m.clrBits (hsA r.old Reg.hsEinj) 0x80000000
      ({ m with rehome := some { r with freeze := true } }.domNext).trigger 4 (m.rhSec r.old (r.why = RhWhy.cmd))
  | none => m

/-- The arrays COPYSF copies from: what the failing slice holds, every set it has itself not copied yet being imprecise
(R331). -/
def Slice.source (s : Slice) (old : Nat) (again sec : Bool) : Copy :=
  let ss := match s.copy with
    | none => s.ss
    | some c => (List.range 16384).foldl (fun ss k =>
        if k < c.next || c.done.contains k then ss else ss.set 0 k (BitVec.ofNat 54 (withPar 6 (2 ^ 45)))) s.ss
  let off := (List.range 4).foldl (fun (a : BitVec 4) b => match s.bank.getD b .off with | .on => a | .evac => a | _ => a ||| (1#4 <<< b)) 0
  { old, next := 0, done := [], ss, sf := s.sf, off, again, sec }

/-- The state of Table 12-8 in the spare; the rest starts empty. -/
def Slice.rehomed (s : Slice) (bank : Vector BankSt 4) (c : Copy) : Slice :=
  { s with
    ss := [], sf := [], bank, auto := 0, evac := none, swp := none
    osw := s.osw.map fun o => { agent := o.agent, set := 0, lostN := o.lostN }
    pred := [], hist := [], predClr := false, mon := [], ctag := [], cnru := [], cdat := [], strm := [], pfq := []
    run := .on, gated := false, msp := none, copy := some c, ingress := [], tmpPos := 0, wipe := none, zeroise := none, crmIdle := false }

/-- Names of the failing slice in the walkers and in Tamper become the spare's. -/
def Mach.renameHs (m : Mach) (o n : Nat) : Mach :=
  let f := fun (h : Nat) => if h = o then n else h
  let fw := fun (w : Waiter) => match w with
    | .te h t => Waiter.te (f h) t | .head h i n => .head (f h) i n | .pout h i n => .pout (f h) i n | .bell h o => .bell (f h) o
    | .evac h => .evac (f h)
    | .vict h s => .vict (f h) s
  let fk := fun (k : Walk) => { k with hs := f k.hs, wait := k.wait.map fun x => (fw x.1, x.2) }
  let fg := fun (g : Group) => { g with
    walks := g.walks.map (fun e => (e.1, e.2.map fk)), queue := g.queue.map fun x => (fw x.1, x.2.1, f x.2.2) }
  let ft := fun (t : TmpOp) => { t with
    why := match t.why with | .ring h e => .ring (f h) e | w => w
    known := t.known.map fun x => (f x.1, x.2), scr := t.scr.map fun x => (f x.1, x.2) }
  { m with groups := m.groups.map (fun e => (e.1, fg e.2)), tmp := m.tmp.map ft, tmpq := m.tmpq.map ft }

/-- A tracker entry that could not be read whole (R149). -/
def Mach.badEntry (m : Mach) (old h t : Nat) : Mach :=
  let e := m.te h t
  if e.badId then (m.err old 6).capture { src := old, code := 0x19, cls := .x, akind := 3, addr := BitVec.ofNat 52 t }
  else
    let sec := keySec e.key
    let set := (setOf sec).toNat
    let m := (m.err old 6).capture { (e.ev (m.htag h t) (m.paOf (offOf e.key)) old 0x18) with cls := .d }
    let m := if !e.kind.isLine then m
      else
        let m := (m.ensureSet h set).checkSet h set
        -- only the lines of the request are suspect; the mark stays until a rebuild of the sector has ended
        let m := m.modS h fun s => s.suspectSec sec (if e.both then 3 else if e.ln then 2 else 1)
        match m.findWay h sec with
        | some w => (m.putEntry h set w (mkEntry (tagOf sec) 0xFFFFFF 0 0 0 0 (enSpf (m.entry h set w))) true).queueRebuild h sec
        | none => match m.takeWay h sec (atSec (e.at_)) with
          | .ok (m, w) => (m.install h set w (mkEntry (tagOf sec) 0xFFFFFF 0 0 0 0 (decide (ssSpc (m.ss h set) ≠ 0)))).queueRebuild h sec
          | .error _ => m.setSimp h set
    -- an EVH has no answer (R72)
    if e.kind.isReq && e.kind ≠ .evh then m.cmx h t .poison else m.endTe h t

/-- Entries of slices that serve whose identity or progress word fails its parity are handled under Race 15 (R120, R149). -/
def Mach.teParity (m : Mach) : Mach :=
  m.active.foldl (fun m h =>
    if (m.slice h).run ≠ .on then m
    else ((m.slice h).busy.filter fun e => e.2.badId || e.2.badPr).foldl (fun m e => m.badEntry h h e.1) m) m

/-- A residency slot is checked as it is copied (R234). -/
def Mach.slotCheck (m : Mach) (h i : Nat) : Mach :=
  match (m.slice h).slot.get none i with
  | none => m
  | some v =>
    if v.bad.isSome || lineCrc v.twin ≠ v.tcrc then m.qBreak h v.qid 9 0 v.bad
    else if v.hline.isSome && lineCrc v.hwin ≠ v.hcrc then m.modS h fun s => s.setSlot i (some { v with hline := none })
    else m

/-- REHOME_FREEZE_DONE: the state of Table 12-8 has been copied, and SWITCH gives the spare the logical slice (R330, R332,
R398, R436). -/
def Mach.rhSwitch (m : Mach) : Mach :=
  match m.rehome with
  | some r =>
    if !r.freeze || !m.ctrlRuns 1 then m
    else
      let o := r.old
      let n := r.new
      let s := m.slice o
      let locks := s.locks
      let wiped := s.wipe.isSome
      let ingress := s.ingress
      let sfctl := m.reg (hsA o Reg.hsSfctl)
      let m := ((((m.clearPage (0x80 + n) 0x020).loadPage (0x80 + n)).clearPage (0xC0 + n) 0x020).loadPage (0xC0 + n)).setReg (hsA n Reg.hsSfctl) sfctl
      let m := m.setSlice n (s.rehomed (m.banksAt n) (s.source o r.again (r.why = RhWhy.cmd)))
      -- the arrays stay for COPYSF; everything else has left the slice (R10)
      let m := m.modS o fun s => { role := .fenced, run := .stopped, bank := s.bank, ss := s.ss, sf := s.sf, pred := s.pred, mon := s.mon,
                                   ctag := s.ctag, cnru := s.cnru, cdat := s.cdat, auto := s.auto }
      let m := (m.clrBits (hsA o Reg.hsEinj) 0x80000000).setFld (Reg.glbLsmap + 4 * (r.ls / 4)) (8 * (r.ls % 4)) 6 n
      let m := (List.range 6).foldl (fun m k =>
        let d := sliceDom n k
        m.setFld (Reg.secClaim + 4 * (d / 32)) (d % 32) 1 (if m.claimBit (sliceDom o k) then 1 else 0)) m
      let m := (m.renameHs o n).nameSpares
      let m := (List.range locks).foldl (fun m _ => m.lockLost n) m
      let m := if wiped && !m.wiping then m.setBits Reg.secIrq 4 else m
      let m := { m with rehome := none }.trigger 4 (m.rhSec n (r.why = RhWhy.cmd))
      -- what was copied is checked
      let m := ((m.slice n).te.filter fun e => e.2.badId || e.2.badPr).foldl (fun m e => m.badEntry o n e.1) m
      let m := (m.repairLists n)
      let m := (m.slice n).slot.foldl (fun m e => m.slotCheck n e.1) m
      let m := ingress.foldl (fun m i => m.sliceMsg i) m
      -- a copy that ran into the failing slice ends here: nothing reads the arrays it came from any more (R331)
      let m := match s.copy with | some c => m.spareOff c.old | none => m
      m.rhNext
  | none => m

/-- RVP reports how far the copier has come, and after the last set that the rehoming is complete (R330). RVP in reset reports
after its restart (Table 12-9). -/
def Mach.rhReport (m : Mach) (h : Nat) : Mach :=
  match (m.slice h).copy with
  | none => m
  | some c =>
    if c.next = 0 || !m.ctrlRuns 1 then m
    else
      let m := (m.setReg Reg.rvpRhPos (BitVec.ofNat 32 (c.next - 1))).setReg Reg.rvpRhPct (BitVec.ofNat 32 (c.next * 10000 / 16384))
      if c.next < 16384 then m
      else
        let m := ((m.modS h fun s => { s with copy := none }).spareOff c.old).count Reg.rvpRhcnt
        let res := if c.again then 3 else 1
        let m := m.setFld Reg.rvpRhstat 29 3 res
        let ls := (m.slice h).ls
        let sec := m.rhSec h c.sec
        let t := fun k => (Config.micros (m.free + k)).toNat
        let m := m.recordV 6 sec (payload 6 [ls, c.old, h, res, t 0, t 1, t 2, t 3] 16) 2
        { m with free := m.free + 4 }.trigger 4 sec

/-- REHOME_COPY_SET: the next set of a spare in COPYSF is copied (R330, R331). -/
def Mach.rhCopy (m : Mach) : Mach :=
  match m.active.find? fun h => (m.slice h).copy.any fun c => decide (c.next < 16384) with
  | none => m
  | some h => match (m.slice h).copy with
    | none => m
    | some c =>
      let set := c.next
      let m := if c.done.contains set then m else (m.ensureSet h set).checkSet h set
      (m.modS h fun s => { s with copy := s.copy.map fun c => { c with next := set + 1, done := c.done.filter (set < ·) } }).rhReport h

/-- SLICE_CONTROL_LOGIC_FAULT (event 0x1D): the slice stops at the detecting sc (R328). -/
def Mach.logicFault (m : Mach) (h : Nat) : Mach :=
  let s := m.slice h
  let ev := fun (m : Mach) =>
    let m := (m.clrBits (hsA h Reg.hsEinj) 0x80000000).capture { src := h, code := 0x1D, cls := .f }
    { m with due := m.due ++ [.slice h true .fault] }
  match s.role with
  | .active => if m.dom (sliceDom h 0) ≠ .on || s.run = .stopped then m else ev (m.modS h fun s => { s with run := .stopped })
  | .spare => if m.dom (sliceDom h 0) ≠ .on then m else ev m
  | _ => m

-- ===== controllers (R334, R335) =====

/-- Change a controller. -/
def Mach.modC (m : Mach) (c : Nat) (f : CtrlSt → CtrlSt) : Mach := { m with ctrl := m.ctrl.upd {} c f }

/-- A controller faults: it is held in reset until its restart. A second fault within 1 s of its restart is class X, and so
is a fault of RVP in FREEZE (R333, R335). -/
def Mach.ctrlFault (m : Mach) (c cause : Nat) (pc : W32) : Mach :=
  if !m.ctrlRuns c then m
  else
    let now := (m.reg Reg.aonOpsec).toNat * 1000000 + (Config.subSecond m.free).val
    let soon := match (m.ctrl.get {} c).since with | some t => decide (now ≤ t + 1000000) | none => false
    let m := { m with free := m.free + 1 }.modC c fun x => { x with run := 3 }
    let m := (m.setReg (Reg.ctpFinfo + 0x1000 * c) (BitVec.ofNat 32 (2 ^ 31 + cause))).setReg (Reg.ctpFpc + 0x1000 * c) pc
    let m := m.capture { src := 63, sub := c, code := 0x30, cls := if soon then .x else .f }
    let m := if c = 0 && m.up && m.step < 8 && !m.halted then { m with cpFails := m.cpFails + 1 } else m
    if c = 1 && m.rehome.any (·.freeze) then { m with due := m.due ++ [.safe 0x30 0] } else m

/-- WATCHDOG_EXPIRY: the program counter of the fault is a free value. -/
def Mach.watchdog (m : Mach) (c : Nat) : Mach :=
  if !m.ctrlRuns c then m
  else
    let pc := Config.faultPc m.free
    { m with free := m.free + 1 }.setBits Reg.aonWdt (1#32 <<< c) |>.ctrlFault c 1 pc

-- ===== configuration parity (R336, R375, R421) =====

/-- CONFIG_PARITY_SCAN: PG_PAR keeps the first mismatch of a page, and the page decides the reaction. -/
def Mach.cfgParity (m : Mach) (a : Nat) (bytes : BitVec 4) : Mach :=
  let p := a / 0x1000
  if (regRow m.integ (a / 4 * 4)).isNone || bytes = 0 then m
  else
    let r := Reg.pgPar p
    let m := if m.bit r 31 then m
      else m.setReg r (BitVec.ofNat 32 (2 ^ 31 + bytes.toNat * 2 ^ 10 + (a % 0x1000) / 4))
    let ev : Ev := { src := 63, sub := 12, code := 0x3F, cls := .x, akind := 4, addr := BitVec.ofNat 52 a }
    if p = 4 then { m with due := m.due ++ [.safe 0x3F (BitVec.ofNat 20 a)] }
    else if p = 6 then m.capture { ev with sub := 5, code := 0x32, cls := .c, counted := true }
    else if 0x40 ≤ p && p < 0x5C then
      let m := m.capture { ev with src := 34 + (p - 0x40), sub := 0, cls := .f }
      { m with due := m.due ++ [.port (p - 0x40) 3 false] }
    else if 0x80 ≤ p then
      let h := if p < 0xC0 then p - 0x80 else p - 0xC0
      let m := m.capture { ev with src := h, sub := 0, cls := .f }
      { m with due := m.due ++ [.slice h false .fault] }
    else m.capture ev

-- ===== the fault collector (R317, R321) =====

/-- FAULT_WINDOW_EXPIRY: a source's counting window closes, or the window of a port's retrains, which opens apart from it (R317). -/
def Mach.windowEnd (m : Mach) : FaultWin → Mach
  | .src n => { m with win := m.win.set 0 n.val 0 }
  | .retrain p => (m.setReg (portA p.val Reg.pRtwin) 0).modP p.val fun v => { v with rtOpen := false }

/-- A write of FLT_RELEASE: head releases the held record, lost clears a source's FLT_LOST bit (R321; notes/assumptions/105.md). -/
def Mach.fltRelease (m : Mach) (w : World) (head lost : Bool) (src : Nat) : Mach :=
  let set := m.lost.get 0 src ≠ 0
  if head && m.caps = [] && !(lost && set) then m.refuse w Reg.fltRelease .state
  else
    let m := if head then { m with caps := m.caps.drop 1 } else m
    if lost then { m with lost := m.lost.set 0 src 0 } else m

-- ===== what RVP owes =====

/-- One reaction (R314, R318, R329, R337). -/
def Mach.react (m : Mach) : Due → Mach
  | .agent a => if a < 16 then m.fencePort a 4 false else m.fenceAgent a
  | .port p fc cap => m.fencePort p fc cap
  | .slice h stopped why => m.rehomeDue h stopped why
  | .safe c a => m.enterSafe c a

/-- Carry out what is due: fences wait while RVP does not run (Table 12-12), the safe state waits for nothing. -/
def Mach.reactAll : Nat → Mach → Mach
  | 0, m => m
  | n + 1, m =>
    let can := fun (d : Due) => match d with | .safe _ _ => true | _ => m.ctrlRuns 1
    match m.due.find? can with
    | none => m
    | some d => Mach.reactAll n ({ m with due := m.due.erase d }.react d)

end Sys2Proof.Machine
end

