-- ==== Sys2Proof/Machine/Recorder.lean ====
section
/-! DEFINITION. The event recorder: the flush engine, the record store, the head scan, freezes, snapshot sets and the
cursors (R340 to R361). -/

namespace Sys2Proof.Machine

-- ===== bytes of a store =====

/-- Byte `a` of an addressed store. -/
def byteAt (st : Bytes) (a : Nat) : BitVec 8 := SMap.get st 0 a

/-- Write bytes from address `a` on, keeping the canonical form. -/
def putBytes (st : Bytes) (a : Nat) : List (BitVec 8) → Bytes
  | [] => st
  | b :: r => putBytes (SMap.set st 0 a b) (a + 1) r

/-- The 64-bit little-endian word at address `a`. -/
def wordAt (st : Bytes) (a : Nat) : Nat := (List.range 8).foldr (fun k v => v * 256 + (byteAt st (a + k)).toNat) 0

/-- Is ring block `b` in the retirement map (R354)? Bit `b` of either copy in blocks 0 and 1. -/
def retired (st : Bytes) (b : Nat) : Bool :=
  (byteAt st (b / 8)).getLsbD (b % 8) || (byteAt st (4096 + b / 8)).getLsbD (b % 8)

/-- Write a block's bit into both map copies (R356). -/
def retire (st : Bytes) (b : Nat) : Bytes :=
  let one := fun (st : Bytes) (a : Nat) => SMap.set st 0 a (byteAt st a ||| (1#8 <<< (b % 8)))
  one (one st (b / 8)) (4096 + b / 8)

-- ===== records =====

/-- The bytes of a record (Tables 13-1 and 13-2). -/
def Rcd.bytes (r : Rcd) : List (BitVec 8) :=
  let w0 := r.typ.toNat + (if r.snap then 2 ^ 8 else 0) + (if r.sec then 2 ^ 9 else 0) + r.pay.length * 2 ^ 16 + r.seq.toNat * 2 ^ 32
  let w1 := r.opsec.toNat + r.pcc.toNat * 2 ^ 32 + r.origin.toNat * 2 ^ 56
  leBytes 8 w0 ++ leBytes 8 w1 ++ r.pay

/-- The length of the record whose word 0 is `w`, none where `w` is no committed record's word 0 (R340, R355). -/
def rcdLen (w : Nat) : Option Nat :=
  let typ := w % 256
  let snap := w.testBit 8
  let plen := w / 2 ^ 16 % 2 ^ 11
  if typ = 0 ∨ (if snap then 8 < typ else 11 < typ) ∨ w / 2 ^ 10 % 2 ^ 6 ≠ 0 ∨ w / 2 ^ 27 % 2 ^ 5 ≠ 0 ∨ plen % 8 ≠ 0 ∨ 1024 < plen then none
  else some (16 + plen)

/-- A RECORDER record (Table 13-2): the event and REC_MISSED. -/
def Mach.recorderRec (m : Mach) (ev : Nat) (origin : BitVec 4) (sec : Bool := false) : Mach :=
  m.recordV 10 sec (payload 10 [ev, (m.reg Reg.recMissed).toNat] 16) origin true

-- ===== the write position (R354) =====

/-- The next ring block in use after `b`, and its lap. -/
def nextBlk (bad : Nat → Bool) (b lap : Nat) : Nat × Nat :=
  let k := ((List.range 2046).find? fun k => !bad (2 + (b - 1 + k) % 2046)).getD 0
  let b' := 2 + (b - 1 + k) % 2046
  (b', if b' ≤ b then lap + 1 else lap)

/-- Blocks the flush engine does not write. -/
def State.badBlk (s : State) (b : Nat) : Bool := s.m.rcr.skip.contains b || retired s.store b

/-- Enter ring block `b`: its header is written, and what started in it or reached into it from an older lap is gone. -/
def State.enterBlk (s : State) (b lap first : Nat) : State :=
  let r := s.m.rcr
  { s with
    store := putBytes s.store (b * 4096) (leBytes 8 lap ++ leBytes 8 first ++ List.replicate 48 0)
    storeBad := s.storeBad.filter fun w => !(b * 512 ≤ w && w < b * 512 + 8)
    m := { s.m with rcr := { r with index := r.index.filter fun x => x.blk ≠ b && x.blk2 ≠ b, spent := r.spent + 64 } } }

/-- Write record bytes at an address: each word carries fresh SECDED. -/
def State.putRec (s : State) (a : Nat) (bs : List (BitVec 8)) : State :=
  let r := s.m.rcr
  { s with store := putBytes s.store a bs
           storeBad := s.storeBad.filter fun w => !(a / 8 ≤ w && w < (a + bs.length) / 8)
           m := { s.m with rcr := { r with spent := r.spent + bs.length } } }

/-- Commit one record at the write position (R354, R355). -/
def State.writeRcd (s : State) (rc : Rcd) : State :=
  let r := s.m.rcr
  let bs := rc.bytes
  let n := bs.length
  let s := if r.off = 0 then s.enterBlk r.blk r.lap 64 else s
  let o := if r.off = 0 then 64 else r.off
  let room := 4096 - o
  let nx := nextBlk s.badBlk r.blk r.lap
  if n ≤ room then
    let s := s.putRec (r.blk * 4096 + o) bs
    let r' := s.m.rcr
    let x : RcdIdx := { seq := rc.seq, sec := rc.sec, blk := r.blk, off := o, len := n }
    let r' := if n = room then { r' with blk := nx.1, off := 0, lap := nx.2 } else { r' with off := o + n }
    { s with m := { s.m with rcr := { r' with index := r'.index ++ [x] } } }
  else
    let s := s.putRec (r.blk * 4096 + o) (bs.take room)
    let s := (s.enterBlk nx.1 nx.2 (64 + (n - room))).putRec (nx.1 * 4096 + 64) (bs.drop room)
    let r' := s.m.rcr
    let x : RcdIdx := { seq := rc.seq, sec := rc.sec, blk := r.blk, off := o, len := n, blk2 := nx.1 }
    { s with m := { s.m with rcr := { r' with blk := nx.1, off := 64 + (n - room), lap := nx.2, index := r'.index ++ [x] } } }

/-- The bytes the flush engine writes for a record: its own and those of the headers it enters. -/
def State.flushCost (s : State) (n : Nat) : Nat :=
  let r := s.m.rcr
  let o := if r.off = 0 then 64 else r.off
  n + (if r.off = 0 then 64 else 0) + (if n ≤ 4096 - o then 0 else 64)

-- ===== block retirement (R356) =====

/-- TLP writes a block into both map copies and places a RECORDER record. -/
def State.mapWrite (s : State) (b : Nat) : State :=
  let s := { s with store := retire s.store b, m := (s.m.count Reg.recRetired).recorderRec 4 3 }
  if 256 ≤ s.m.fld Reg.recRetired 0 11 then { s with m := s.m.attn 0x80 } else s

/-- A block's write fails verification: it is skipped, and the record is written again from the start of the next one. -/
def State.skipBlk (s : State) : State :=
  let r := s.m.rcr
  let b := r.blk
  let s := { s with m := { s.m with rcr := { r with skip := b :: r.skip } } }
  let nx := nextBlk s.badBlk b r.lap
  let m := { s.m with rcr := { s.m.rcr with blk := nx.1, off := 0, lap := nx.2 } }
  let m := m.capture { src := 63, sub := 4, code := 0x32, counted := true }
  if m.ctrlRuns 2 then { s with m }.mapWrite b
  else { s with m := { m with rcr := { m.rcr with mapPend := m.rcr.mapPend ++ [b] } } }

-- ===== the flush engine (R349 to R352) =====

/-- The bytes a flush may write in one OPSEC second. -/
def flushBudget : Nat := 16777216

/-- A flush ends when the buffer is empty. -/
def Mach.flushEnd (m : Mach) : Mach :=
  let r := m.rcr
  if r.flush && r.ready && !r.frozen && r.buf = [] then
    { m with rcr := { r with flush := false, exempt := false, paused := false } }.count Reg.recFlcnt
  else m

/-- Does the flush engine write now? -/
def RecSt.writes (r : RecSt) : Bool := r.ready && r.flush && !r.frozen && (!r.paused || r.exempt)

/-- RECORD_FLUSH_WRITE: the oldest buffered record goes to the store. `bufErr`: its buffer parity fails (R349);
`writeErr`: the write fails verification (R356). -/
def State.flushWrite (s : State) (bufErr writeErr : Bool) : State :=
  let r := s.m.rcr
  match r.buf with
  | [] => { s with m := s.m.flushEnd }
  | rc :: rest =>
    if !r.writes then s
    else
      let s :=
        if bufErr then
          let ev : Ev := { src := 63, sub := 3, code := 0x32, counted := true }
          { s with m := ({ s.m with rcr := { r with buf := rest } }.missed rc.snap).capture ev }
        else if !r.exempt && flushBudget < r.spent + s.flushCost rc.len then
          { s with m := { s.m with rcr := { r with paused := true } } }
        else if writeErr then s.skipBlk
        else { s with m := { s.m with rcr := { r with buf := rest } } }.writeRcd rc
      { s with m := s.m.flushEnd }

/-- Write `n` buffered records. -/
def State.flushN : Nat → State → State
  | 0, s => s
  | n + 1, s => State.flushN n (s.flushWrite false false)

/-- Write everything that is buffered. -/
def State.flushAll (s : State) : State := s.flushN s.m.rcr.buf.length

/-- FLUSH_BUDGET_RESUME: a paused flush resumes in the next OPSEC second, once the budget counts anew. -/
def Mach.flushResume (m : Mach) : Mach :=
  if m.rcr.paused && decide (m.rcr.spent < flushBudget) then { m with rcr := { m.rcr with paused := false } } else m

/-- A power-fail flush (R353): one POWER record names the comparator, and no record is accepted after it: that of a further
power fail is counted as lost (R351). -/
def Mach.powerFail (m : Mach) (cmp : Nat) : Mach :=
  let m := m.powerRec 0 0 0 cmp false false
  if m.rcr.closed then m
  else
    { m with rcr := { m.rcr with closed := true, frozen := false, exempt := true, paused := false } }.startFlush

-- ===== freeze (R358) =====

/-- REC_CMD FREEZE, from world `w` (R358; for an exempt flush notes/assumptions/106.md). -/
def Mach.freezeRec (m : Mach) (w : World) : Mach :=
  if m.rcr.frozen || m.rcr.exempt then m
  else { m with rcr := { m.rcr with frozen := true } }.recorderRec 1 4 (w = World.s)

/-- The end of a freeze: by UNFREEZE from a world, or, with none, by the timeout, which sets attn. -/
def Mach.unfreezeRec (m : Mach) (by_ : Option World) : Mach :=
  if !m.rcr.frozen then m
  else
    let m := { m with rcr := { m.rcr with frozen := false } }
    let m := if by_.isNone then m.attn else m
    (m.recorderRec (if by_.isNone then 3 else 2) 4 (by_ = some World.s)).flushEnd

-- ===== the head scan (R341, R354) =====

/-- The records that start in block `b` from offset `o` on; `nx` is the block entered next with its first-record offset. A
committed record follows the one before it in sequence. -/
def scanBlk (st : Bytes) (b : Nat) (nx : Option (Nat × Nat)) : Nat → Nat → Option W32 → List RcdIdx × Nat × Option W32
  | 0, o, p => ([], o, p)
  | n + 1, o, p =>
    if 4096 ≤ o then ([], o, p)
    else
      let w := wordAt st (b * 4096 + o)
      let seq := BitVec.ofNat 32 (w / 2 ^ 32)
      let later := match p with | none => true | some q => decide (0 < (seq - q).toNat ∧ (seq - q).toNat < 2 ^ 31)
      match rcdLen w with
      | none => ([], o, p)
      | some len =>
        if !later then ([], o, p)
        else
          let x : RcdIdx := { seq, sec := w.testBit 9, blk := b, off := o, len }
          if o + len ≤ 4096 then
            let (l, o', p') := scanBlk st b nx n (o + len) (some seq)
            (x :: l, o', p')
          else match nx with
            | some (b2, f) => if f = 64 + (o + len - 4096) then ([{ x with blk2 := b2 }], 4096, some seq) else ([], o, p)
            | none => ([], o, p)

/-- The records of the blocks in the order they were written, and where the last one ends. -/
def scanAll (st : Bytes) : List (Nat × Nat) → Option W32 → List RcdIdx × Nat × Option W32
  | [], p => ([], 0, p)
  | (b, f) :: r, p =>
    let (l, o, p') := scanBlk st b r.head? 252 f p
    match r with
    | [] => (l, o, p')
    | _ => let (l', o', p'') := scanAll st r p'
           (l ++ l', o', p'')

/-- RECORDER_HEAD_SCAN_DONE: the head is found, and records made earlier take their place in the sequence. -/
def State.headScan (s : State) : State :=
  let r := s.m.rcr
  if r.ready || !s.m.up || s.m.dom 213 ≠ .on then s
  else
    let blks := (List.range 2046).filterMap fun k =>
      let b := k + 2
      let f := wordAt s.store (b * 4096 + 8)
      if retired s.store b || f = 0 then none else some (wordAt s.store (b * 4096), b, f)
    let top := blks.foldl (fun a x => max a x.1) 0
    let order := (blks.filter fun x => x.1 + 1 = top).map (fun x => (x.2.1, x.2.2)) ++
      (blks.filter fun x => x.1 = top).map (fun x => (x.2.1, x.2.2))
    let (idx, o, _) := scanAll s.store order none
    let (b, o, lap) := match order.getLast? with
      | none => let nx := nextBlk s.badBlk 2047 0
                (nx.1, 0, nx.2)
      | some (b, _) => if 4096 ≤ o then (let nx := nextBlk s.badBlk b top; (nx.1, 0, nx.2)) else (b, o, top)
    let base : W32 := match idx.getLast? with | none => 0 | some x => x.seq + 1
    let ret := ((List.range 2048).filter fun b => retired s.store b).length
    let m := s.m.setReg Reg.recRetired (BitVec.ofNat 32 ret)
    let m := if 256 ≤ ret then m.attn 0x80 else m
    let rcr := { m.rcr with
      ready := true, index := idx, blk := b, off := o, lap, seq := r.seq + base
      buf := r.buf.map fun (x : Rcd) => { x with seq := x.seq + base } }
    { s with m := { m with rcr }.flushEnd }

-- ===== cursors (R357) =====

/-- The cursor of a world. -/
def RecSt.cur (r : RecSt) (w : World) : Cursor := if w = .s then r.curS else r.curNs

/-- Write it. -/
def RecSt.setCur (r : RecSt) (w : World) (c : Cursor) : RecSt := if w = .s then { r with curS := c } else { r with curNs := c }

/-- The committed records a world's cursor moves among. -/
def RecSt.seen (r : RecSt) (w : World) : List RcdIdx := r.index.filter fun x => w = .s || !x.sec

/-- Has the cursor's record been overwritten (R358)? -/
def RecSt.curLost (r : RecSt) (w : World) : Bool := (r.cur w).at_.any fun x => !r.index.contains x

/-- End a cursor op: it moves to a record, or ends END. -/
def RecSt.land (r : RecSt) (w : World) (x : Option RcdIdx) : RecSt :=
  match x with
  | some x => r.setCur w { at_ := some x, cres := 0 }
  | none => r.setCur w { r.cur w with cres := 1 }

/-- The records after, and before, the cursor's. A record that is gone lies before every other. -/
def RecSt.after (r : RecSt) (w : World) : List RcdIdx :=
  match (r.cur w).at_ with
  | none => r.seen w
  | some x => if r.curLost w then r.seen w else ((r.seen w).dropWhile (· ≠ x)).drop 1

def RecSt.before (r : RecSt) (w : World) : List RcdIdx :=
  match (r.cur w).at_ with
  | none => []
  | some x => if r.curLost w then [] else (r.seen w).takeWhile (· ≠ x)

/-- FIRST, LAST, NEXT and PREV. -/
def RecSt.first (r : RecSt) (w : World) : RecSt := r.land w (r.seen w).head?
def RecSt.last (r : RecSt) (w : World) : RecSt := r.land w (r.seen w).getLast?
def RecSt.next (r : RecSt) (w : World) : RecSt := r.land w (r.after w).head?
def RecSt.prev (r : RecSt) (w : World) : RecSt := r.land w (r.before w).getLast?

/-- SEEK: NOTFOUND where no stored record has the sequence number, WORLD where it is an S record and the op is NS. -/
def RecSt.seek (r : RecSt) (w : World) (seq : W32) : RecSt :=
  match r.index.find? fun x => x.seq = seq with
  | none => r.setCur w { r.cur w with cres := 2 }
  | some x => if w = .ns && x.sec then r.setCur w { r.cur w with cres := 3 } else r.land w (some x)

/-- The store address of byte `i` of a record. -/
def RcdIdx.addr (x : RcdIdx) (i : Nat) : Nat :=
  if x.off + i < 4096 then x.blk * 4096 + x.off + i else x.blk2 * 4096 + 64 + (x.off + i - 4096)

/-- Byte `i` of a world's current record; a word that fails its check reads zero. -/
def State.curByte (s : State) (w : World) (i : Nat) : BitVec 8 :=
  match (s.m.rcr.cur w).at_ with
  | none => 0
  | some x =>
    if s.m.rcr.curLost w || x.len ≤ i || s.storeBad.contains (x.addr i / 8) then 0 else byteAt s.store (x.addr i)

/-- Does the current record hold an uncorrectable word? -/
def State.curUerr (s : State) (w : World) : Bool :=
  match (s.m.rcr.cur w).at_ with
  | none => false
  | some x => !s.m.rcr.curLost w && (List.range (x.len / 8)).any fun k => s.storeBad.contains (x.addr (8 * k) / 8)

-- ===== snapshot sets (R345, R347) =====

/-- SNAP: the named sets that are enabled and take trigger bit 11. -/
def Mach.snapSets (m : Mach) (sets : BitVec 8) : Mach :=
  m.trigSets 11 (BitVec.ofNat 8 ((List.range 8).foldl (fun a k =>
    if sets.getLsbD k && m.bit (Reg.recSscfg + 4 * k) 31 && m.bit (Reg.recTrg + 4 * k) 11 then a + 2 ^ k else a) 0))

/-- A write that changes a set's world hands the set over (R347). -/
def Mach.snapHandover (m : Mach) (k : Nat) (sec : Bool) : Mach :=
  let a := Reg.recSscfg + 4 * k
  if m.bit a 30 = sec then m
  else
    let m := m.setFld a 30 1 (if sec then 1 else 0)
    let m := m.setReg (Reg.recTrg + 4 * k) 0
    let mine := fun (r : Rcd) => r.snap && r.typ.toNat = k + 1
    let n := (m.rcr.buf.filter mine).length
    let rcr := { m.rcr with
      lists := m.rcr.lists.filter (fun e => e.1 / 64 ≠ k), run := m.rcr.run.set 0 k 0, got := m.rcr.got.set none k none, pend := m.rcr.pend.set 0 k 0
      buf := m.rcr.buf.filter fun r => !mine r }
    (List.range n).foldl (fun m _ => m.missed true) { m with rcr }

/-- Place the class S record of a set whose registers have been read (R343, R346). -/
def Mach.snapPlace (m : Mach) (k : Nat) (vals : List (BitVec 20 × W32)) : Mach :=
  let trig := m.rcr.run.get 0 k
  let pay := leBytes 8 (trig.toNat + vals.length * 2 ^ 32) ++
    (vals.map fun v => leBytes 8 (v.1.toNat + v.2.toNat * 2 ^ 32)).flatten
  let m := if vals = [] then m
    else (m.place (BitVec.ofNat 8 (k + 1)) true (m.bit (Reg.recSscfg + 4 * k) 30) pay 3).count Reg.tlpSnapcnt
  { m with rcr := { m.rcr with run := m.rcr.run.set 0 k (m.rcr.pend.get 0 k), got := m.rcr.got.set none k none, pend := m.rcr.pend.set 0 k 0 } }

end Sys2Proof.Machine
end

