-- ==== Sys2Proof/Machine/Power.lean ====
section
/-! DEFINITION. Power domains, clocks, comparators and the held queue (R362 to R375, R389, R398 to R400). -/

namespace Sys2Proof.Machine

-- ===== events and held requests =====

/-- Tribex sets a PWR_EVT bit; one that raises TX_INT[6] is a snapshot trigger (Tables 14-10 and 13-4). -/
def Mach.setEvt (m : Mach) (b : Nat) (sec : Bool := false) : Mach :=
  let m := m.setBits Reg.pwrEvt (1#32 <<< b)
  if m.bit Reg.pwrEvtie b then m.trigger 6 sec else m

/-- Hold an NS write for a claimed domain (R400), or refuse it where the queue is full: whether it was held. -/
def Mach.hold (m : Mach) (a : Nat) (v : W32) : Mach × Bool :=
  if 4 ≤ m.heldq.length then (m.refuse .ns a .state, false)
  else
    let m := { m with heldq := m.heldq ++ [(BitVec.ofNat 20 a, v)] }.setEvt 4 true
    ((m.recordV 11 true (payload 11 [a, v.toNat] 8) 1 true).refuse .ns a .held, true)

/-- Is the debug domain permitted ON (Table 15-4, R426)? -/
def Mach.dbgPerm (m : Mach) : Bool :=
  match m.lcState with
  | 2 => m.dbgOpen
  | 4 => false
  | _ => true

-- ===== the slice clock (R369, R372) =====

/-- Is a frequency in range (R369)? -/
def Mach.freqOk (m : Mach) (f : Nat) : Bool := decide (12 ≤ f ∧ f ≤ m.integ.fmax.toNat)

/-- The frequency the slice clock should have: the lower of set and the throttle limit. -/
def Mach.freqGoal (m : Mach) : BitVec 5 :=
  let set := m.fld Reg.pwrFreq 0 5
  BitVec.ofNat 5 (if m.throttle then min set (m.fld Reg.pwrFreq 16 5) else set)

/-- Start a change to a frequency. -/
def Mach.freqGo (m : Mach) (f : BitVec 5) : Mach := { m with freqTo := some f }

/-- A write to PWR_FREQ (R369, R372, R389): a value out of range makes the whole write have no effect. While TMON0 holds the
throttle, set takes effect only where it is lower than thr. `raw` is the value as it was written, `v` what it makes of the
register. -/
def Mach.freqSet (m : Mach) (w : World) (a : Nat) (raw v : W32) : Mach :=
  let set := (v.extractLsb' 0 5).toNat
  let thr := (v.extractLsb' 16 5).toNat
  let secure := m.active.any fun h => m.claimed (sliceDom h 0)
  if m.freqTo.isSome then m.refuse w a .busy
  else if !m.freqOk set || !m.freqOk thr then m.refuse w a .value
  else if w = .ns && secure then (m.hold a raw).1
  else
    let m := m.setReg Reg.pwrFreq ((m.reg Reg.pwrFreq &&& ~~~ (0x1F001F#32)) ||| (v &&& 0x1F001F#32))
    if m.cur = 0 then m
    else if m.throttle && decide (thr ≤ set) && m.freqGoal = m.cur then m
    else m.freqGo m.freqGoal

/-- FREQ_RELOCK_DONE: a change waits while a rehoming is in FREEZE, and for CP while it is in reset (R369, Table 12-12). -/
def Mach.freqDone (m : Mach) : Mach :=
  match m.freqTo with
  | some f => if m.rehome.any (·.freeze) || !m.ctrlRuns 0 then m else { m with cur := f, freqTo := none }.setEvt 5
  | none => m

-- ===== comparators (R374) =====

/-- TMON0_TRIP: CP lowers the clock to thr; during a software change the lower frequency wins. Each trip counts, a further one too
(R374; notes/assumptions/104.md). -/
def Mach.tmon0 (m : Mach) : Mach :=
  if !m.up then m
  else
    let m := ({ m with tmon := m.tmon ||| 1, throttle := true }.setEvt 2).powerRec 0 0 0 4 false true
    if m.cur = 0 then m
    else if m.freqGoal = m.freqTo.getD m.cur then m else m.freqGo m.freqGoal

/-- TMON0_CLEAR: clear for 1 s, and the clock returns to set. -/
def Mach.tmon0Off (m : Mach) : Mach :=
  if !m.tmon.getLsbD 0 then m
  else
    let m := { m with tmon := m.tmon &&& 2, throttle := false }
    if m.cur = 0 || m.freqGoal = m.freqTo.getD m.cur then m else m.freqGo m.freqGoal

/-- The next slot of the counter store takes OPSEC and PCC (R373). -/
def State.cstorePut (s : State) : State :=
  { s with
    cstore := s.cstore.setIfInBounds s.m.cslot (s.m.reg Reg.aonOpsec, (s.m.reg Reg.aonPcc).setWidth 24)
    m := { s.m with cslot := (s.m.cslot + 1) % 16 } }

/-- A trip of the power-fail comparator writes the counter store too. -/
def State.powerFail (s : State) (cmp : Nat) : State := { s with m := s.m.powerFail cmp }.cstorePut

/-- TMON1_TRIP. -/
def State.tmon1 (s : State) : State :=
  if !s.m.up then s
  else { s with m := { s.m with tmon := s.m.tmon ||| 2 }.setEvt 3 }.powerFail 5

/-- VMON_TRIP: VMON3 always fails the power, VMON0 to VMON2 where pf is 1. -/
def State.vmonTrip (s : State) (k : Nat) : State :=
  if !s.m.up then s
  else
    let s := { s with m := { s.m with vmon := s.m.vmon ||| (1#4 <<< k) }.setEvt 1 }
    if k = 3 || s.m.bit (Reg.aonVcfg + 4 * k) 31 then s.powerFail k
    else { s with m := s.m.powerRec 0 0 0 k false true }

/-- OPSEC_TICK: one operating second; the flush budget counts anew (R352, R373). -/
def State.opsecTick (s : State) : State :=
  if !s.m.up then s
  else
    let m := s.m.setReg Reg.aonOpsec (s.m.reg Reg.aonOpsec + 1)
    { s with m := { m with rcr := { m.rcr with spent := 0 } } }.cstorePut

-- ===== domains (R363 to R367) =====

/-- A PWR_DOMCMD ends (R365). -/
def Mach.domEnd (m : Mach) : Mach := { m with domCmd := none }.setFld Reg.pwrDomstat 0 4 0 |>.setEvt 6

/-- Why a PWR_DOMCMD is refused (R364, R365, R401). -/
def Mach.domWhy (m : Mach) (w : World) (d : Nat) (on : Bool) : Option Cause :=
  if d = 246 && w = .ns && m.lcState ≠ 0 then some .world
  else if m.domCmd.isSome then some .busy
  else if d = 246 then if on && !m.dbgPerm then some .state else none
  else if d < 204 then
    if d % 6 = 5 && decide ((m.slice (d / 6)).role = .active) && !m.lk.isSome && !m.wiping then none else some .state
  else if 214 ≤ d && d < 242 then
    let p := d - 214
    if m.populated p && ((m.port p).st = .down || (m.port p).st = .fenced) then none else some .state
  else some .state

/-- A Crema array starts to drain: lookups and fills stop, queues are paged out, locked lines are lost (R366). -/
def Mach.crmDrain (m : Mach) (h : Nat) : Mach :=
  Mach.fin (((m.moveDom (sliceDom h 5) .draining).dropWays h fun _ => true).pageOutAll h)

/-- CP starts the running PWR_DOMCMD, or ends it where the domain has reached the asked state (R365). -/
def Mach.domStart (m : Mach) (d : Nat) (on : Bool) : Mach :=
  match m.domWant d with
  | .off => if !on then m.domEnd else m.domTo d .waking
  | .on => if on then m.domEnd else if d < 204 then m.crmDrain (d / 6) else m.moveDom d .draining
  | _ => m

/-- CP takes up what waited for it: transitions of domains, and a PWR_DOMCMD (Table 12-12). -/
def Mach.domResume (m : Mach) : Mach :=
  if !m.ctrlRuns 0 then m
  else
    let m := m.domNext
    match m.domCmd with
    | some (d, on) => if m.domq.any fun x => x.1 = d then m else m.domStart d on
    | none => m

/-- A write to PWR_DOMCMD. -/
def Mach.domCommand (m : Mach) (w : World) (a : Nat) (d : Nat) (on : Bool) : Mach :=
  match m.domWhy w d on with
  | some c => (m.setFld Reg.pwrDomstat 0 4 1).refuse w a c
  | none =>
    if !on && w = .ns && m.claimed d then
      let (m, ok) := m.hold a (BitVec.ofNat 32 (0x200 + d))
      m.setFld Reg.pwrDomstat 0 4 (if ok then 2 else 1)
    else
      { m with domCmd := some (d, on) }.domResume

/-- Is the slice's array empty (R109)? A set still imprecise has a sweep to come. -/
def Slice.bare (s : Slice) : Bool :=
  s.ss.all fun e => (e.2.extractLsb' 0 16) = 0 && ssSpc (e.2.setWidth 48) = 0 && !ssSimp (e.2.setWidth 48)

/-- No entry, no buffer and no engine of the slice is in use (R367, R370). -/
def Mach.idle (m : Mach) (h : Nat) : Bool :=
  let s := m.slice h
  s.busy.isEmpty && s.dbuf.isEmpty && s.rbuf.isEmpty && s.wc.isEmpty && s.todo.isEmpty && s.bkts.isEmpty && s.vbuf.isEmpty &&
  s.rbq.isEmpty && s.rcq.isEmpty && s.rcn.isNone && s.mvt.isEmpty && s.evac.isNone && s.swp.isNone &&
  !(s.osw.any fun o => !o.over) && s.dbq.isEmpty && s.nlq.isEmpty && s.wl.isEmpty && s.pfq.isEmpty && !s.predClr && s.wipe.isNone &&
  s.zeroise.isNone && s.msp.isNone && s.copy.isNone && s.run = .on && !(m.mbist.any fun b => b.hs = h) &&
  !(m.tmp.any fun o => (o.op = 1 || o.op = 2) && decide (s.tmpPos < 1024)) && !(m.rehome.any fun r => r.old = h)

/-- SLICE_POWER_DOWN: the slice logic drains; resident queues are paged out first, since a domain that is OFF holds nothing
(R363, R367). -/
def Mach.sliceDownStart (m : Mach) (h : Nat) : Mach :=
  if (m.slice h).role ≠ .active || m.dom (sliceDom h 0) ≠ .on || !m.idle h || !(m.slice h).bare || m.step ≠ 8 || !m.ctrlRuns 0 then m
  else Mach.fin ((m.moveDom (sliceDom h 0) .draining).pageOutAll h)

/-- The slice logic goes OFF with the way-banks, and with the Crema array where PWR_CTL.crm_idle_off is 1 and the array is not
claimed (R367, R399). -/
def Mach.sliceOff (m : Mach) (h : Nat) : Mach :=
  let crm := m.bit Reg.pwrCtl 0 && !m.claimed (sliceDom h 5) && decide (m.dom (sliceDom h 5) = .on)
  let m := if crm then (m.dropWays h fun _ => true).moveDom (sliceDom h 5) .off else m
  let m := m.moveDom (sliceDom h 0) .off
  let m := (List.range 4).foldl (fun m b => if m.dom (sliceDom h (1 + b)) = .off then m else m.moveDom (sliceDom h (1 + b)) .off) m
  (m.modS h fun s => {
    role := s.role, ls := s.ls, bank := s.bank, auto := s.auto, osw := s.osw, tmpPos := s.tmpPos, rr := s.rr, ingress := s.ingress
    ctag := s.ctag, cnru := if crm then [] else s.cnru, cdat := s.cdat, crmIdle := s.crmIdle || crm }).shared

/-- DOMAIN_DRAIN_DONE: the work of a DRAINING domain has ended and CP switches it OFF. An array waits for the atomics that hit it
(R366). -/
def Mach.drainDone (m : Mach) (d : Nat) : Mach :=
  if m.dom d ≠ .draining || !m.ctrlRuns 0 then m
  else if d < 204 then
    let h := d / 6
    if d % 6 = 0 then if m.idle h && (m.slice h).slot.isEmpty then m.sliceOff h else m
    else if !(m.slice h).slot.isEmpty || (m.slice h).busy.any (fun e => e.2.st = .active && e.2.kind = .atm && e.2.far && e.2.crm.use) then m
    else ((m.modS h fun s => { s with ctag := [], cnru := [], cdat := [] }).moveDom d .off).domResume
  else ((m.moveDom d .off).shared).domResume

/-- SLICE_WAKE: a flit for a powered-down slice wakes it; one that finds it DRAINING ends the power-down (R367, Table 14-9). -/
def Mach.sliceWake (m : Mach) (h : Nat) : Mach :=
  if (m.slice h).role ≠ .active then m
  else match m.dom (sliceDom h 0) with
    | .draining => m.domTo (sliceDom h 0) .on
    | .off =>
      if m.step ≠ 8 then m
      else
        let m := m.domTo (sliceDom h 0) .waking
        let m := (List.range 4).foldl (fun m b =>
          if (m.slice h).bank.getD b .off = .on then
            (m.modS h fun s => { s with bank := s.bank.setIfInBounds b .waking }).domTo (sliceDom h (1 + b)) .waking
          else m) m
        let m := if (m.slice h).crmIdle then (m.modS h fun s => { s with crmIdle := false }).domTo (sliceDom h 5) .waking else m
        m.shared
    | _ => m

/-- DOMAIN_WAKE_DONE: WAKING ends in ON, and CP goes on with what waited. A port adapter starts to train. -/
def Mach.wakeDone (m : Mach) (d : Nat) : Mach :=
  if m.dom d ≠ .waking then m
  else
    let m := m.moveDom d .on
    let k := d % 6
    let m := if d < 204 && 1 ≤ k && k ≤ 4 then
        m.modS (d / 6) fun s => { s with
          bank := if s.bank.getD (k - 1) .off = .waking then s.bank.setIfInBounds (k - 1) .on else s.bank, auto := s.auto &&& ~~~ (1#4 <<< (k - 1)) }
      else m
    let m := if 214 ≤ d && d < 242 then m.shared.trainGo (d - 214) else m
    m.domResume

/-- SLICE_CLOCK_GATE and SLICE_CLOCK_RESTART (R370). -/
def Mach.gate (m : Mach) (h : Nat) : Mach :=
  if m.dom (sliceDom h 0) ≠ .on || (m.slice h).role ≠ .active || !m.idle h then m else m.modS h fun s => { s with gated := true }
def Mach.ungate (m : Mach) (h : Nat) : Mach := m.modS h fun s => { s with gated := false }

end Sys2Proof.Machine
end

