-- ==== Sys2Proof/Machine/Crypto.lean ====
section
/-! DEFINITION. The signature engine: SHA-384 and the verification of ECDSA P-384 signatures (R403, R406, R407). The
functions and their constants are those of FIPS 180-4 and FIPS 186 (notes/assumptions/17.md). -/

namespace Sys2Proof.Machine

/-- The round constants of SHA-384, in two halves. -/
def shaK0 : List W64 :=
  [0x428A2F98D728AE22, 0x7137449123EF65CD, 0xB5C0FBCFEC4D3B2F, 0xE9B5DBA58189DBBC,
   0x3956C25BF348B538, 0x59F111F1B605D019, 0x923F82A4AF194F9B, 0xAB1C5ED5DA6D8118,
   0xD807AA98A3030242, 0x12835B0145706FBE, 0x243185BE4EE4B28C, 0x550C7DC3D5FFB4E2,
   0x72BE5D74F27B896F, 0x80DEB1FE3B1696B1, 0x9BDC06A725C71235, 0xC19BF174CF692694,
   0xE49B69C19EF14AD2, 0xEFBE4786384F25E3, 0x0FC19DC68B8CD5B5, 0x240CA1CC77AC9C65,
   0x2DE92C6F592B0275, 0x4A7484AA6EA6E483, 0x5CB0A9DCBD41FBD4, 0x76F988DA831153B5,
   0x983E5152EE66DFAB, 0xA831C66D2DB43210, 0xB00327C898FB213F, 0xBF597FC7BEEF0EE4,
   0xC6E00BF33DA88FC2, 0xD5A79147930AA725, 0x06CA6351E003826F, 0x142929670A0E6E70,
   0x27B70A8546D22FFC, 0x2E1B21385C26C926, 0x4D2C6DFC5AC42AED, 0x53380D139D95B3DF,
   0x650A73548BAF63DE, 0x766A0ABB3C77B2A8, 0x81C2C92E47EDAEE6, 0x92722C851482353B]
def shaK1 : List W64 :=
  [0xA2BFE8A14CF10364, 0xA81A664BBC423001, 0xC24B8B70D0F89791, 0xC76C51A30654BE30,
   0xD192E819D6EF5218, 0xD69906245565A910, 0xF40E35855771202A, 0x106AA07032BBD1B8,
   0x19A4C116B8D2D0C8, 0x1E376C085141AB53, 0x2748774CDF8EEB99, 0x34B0BCB5E19B48A8,
   0x391C0CB3C5C95A63, 0x4ED8AA4AE3418ACB, 0x5B9CCA4F7763E373, 0x682E6FF3D6B2B8A3,
   0x748F82EE5DEFB2FC, 0x78A5636F43172F60, 0x84C87814A1F0AB72, 0x8CC702081A6439EC,
   0x90BEFFFA23631E28, 0xA4506CEBDE82BDE9, 0xBEF9A3F7B2C67915, 0xC67178F2E372532B,
   0xCA273ECEEA26619C, 0xD186B8C721C0C207, 0xEADA7DD6CDE0EB1E, 0xF57D4F7FEE6ED178,
   0x06F067AA72176FBA, 0x0A637DC5A2C898A6, 0x113F9804BEF90DAE, 0x1B710B35131C471B,
   0x28DB77F523047D84, 0x32CAAB7B40C72493, 0x3C9EBE0A15C9BEBC, 0x431D67C49C100D4C,
   0x4CC5D4BECB3E42B6, 0x597F299CFC657E2A, 0x5FCB6FAB3AD6FAEC, 0x6C44198C4A475817]

/-- The initial hash value of SHA-384. -/
def shaIv : List W64 :=
  [0xCBBB9D5DC1059ED8, 0x629A292A367CD507, 0x9159015A3070DD17, 0x152FECD8F70E5939,
   0x67332667FFC00B31, 0x8EB44A8768581511, 0xDB0C2E0D64F98FA7, 0x47B5481DBEFA4FA4]

/-- The message schedule grows by one word. -/
def shaNext (w : List W64) : W64 :=
  let g := fun i => w.getD (w.length - i) 0
  let s0 := (g 15).rotateRight 1 ^^^ (g 15).rotateRight 8 ^^^ (g 15) >>> 7
  let s1 := (g 2).rotateRight 19 ^^^ (g 2).rotateRight 61 ^^^ (g 2) >>> 6
  g 16 + s0 + g 7 + s1

/-- The 80-word schedule of a block of 16 words. -/
def shaSchedule (b : List W64) : List W64 := (List.range 64).foldl (fun w _ => w ++ [shaNext w]) b

/-- One round over the eight working words, for schedule word and constant `kw`. -/
def shaRound (v : List W64) (kw : W64) : List W64 :=
  match v with
  | [a, b, c, d, e, f, g, h] =>
    let s1 := e.rotateRight 14 ^^^ e.rotateRight 18 ^^^ e.rotateRight 41
    let t1 := h + s1 + ((e &&& f) ^^^ (~~~ e &&& g)) + kw
    let s0 := a.rotateRight 28 ^^^ a.rotateRight 34 ^^^ a.rotateRight 39
    let t2 := s0 + ((a &&& b) ^^^ (a &&& c) ^^^ (b &&& c))
    [t1 + t2, a, b, c, d + t1, e, f, g]
  | _ => v

/-- Take one block into the hash value. -/
def shaBlock (h : List W64) (b : List W64) : List W64 :=
  let kw := List.zipWith (· + ·) (shaSchedule b) (shaK0 ++ shaK1)
  List.zipWith (· + ·) h (kw.foldl shaRound h)

/-- A number from bytes, most significant byte first, and least significant byte first. -/
def natBe (bs : List (BitVec 8)) : Nat := bs.foldl (fun a b => a * 256 + b.toNat) 0
def natLe (bs : List (BitVec 8)) : Nat := natBe bs.reverse

/-- The padded message. -/
def shaPad (m : List (BitVec 8)) : List (BitVec 8) :=
  let n := m.length
  m ++ 0x80#8 :: List.replicate ((239 - n % 128) % 128) 0 ++ (leBytes 16 (8 * n)).reverse

/-- SHA-384 as a number. -/
def sha384 (m : List (BitVec 8)) : Nat :=
  let p := shaPad m
  let h := (List.range (p.length / 128)).foldl (fun h i =>
    shaBlock h ((List.range 16).map fun j => BitVec.ofNat 64 (natBe ((p.drop (128 * i + 8 * j)).take 8)))) shaIv
  (h.take 6).foldl (fun a w => a * 2 ^ 64 + w.toNat) 0

/-- The field prime, the order of the group, the curve coefficient b and the base point of P-384. -/
def ecP : Nat := 2 ^ 384 - 2 ^ 128 - 2 ^ 96 + 2 ^ 32 - 1
def ecN : Nat := 0xFFFFFFFFFFFFFFFFFFFFFFFFFFFFFFFFFFFFFFFFFFFFFFFFC7634D81F4372DDF581A0DB248B0A77AECEC196ACCC52973
def ecB : Nat := 0xB3312FA7E23EE7E4988E056BE3F82D19181D9C6EFE8141120314088F5013875AC656398D8A2ED19D2A85C8EDD3EC2AEF
def ecG : Nat × Nat :=
  (0xAA87CA22BE8B05378EB1C71EF320AD746E1D3B628BA79B9859F741E082542A385502F25DBF55296C3A545E3872760AB7,
   0x3617DE4A96262C6F5D9E98BF9292DC29F8F41DBD289A147CE9DA3113B5F0B8C00A60B1CE1D7E819D7A431D7C90EA0E5F)

/-- `a ^ e` modulo `m`, for exponents below 2 ^ 384. -/
def powMod (m a e : Nat) : Nat :=
  ((List.range 384).foldl (fun (x : Nat × Nat) i => (if e.testBit i then x.1 * x.2 % m else x.1, x.2 * x.2 % m)) (1, a % m)).1

/-- The inverse modulo a prime. -/
def invMod (m a : Nat) : Nat := powMod m a (m - 2)

/-- A point of the curve, none for the point at infinity. -/
abbrev EcPoint := Option (Nat × Nat)

/-- The sum of two points. -/
def ecAdd : EcPoint → EcPoint → EcPoint
  | none, q => q
  | p, none => p
  | some (x1, y1), some (x2, y2) =>
    let sub := fun a b => (a + ecP - b % ecP) % ecP
    if x1 = x2 ∧ (y1 ≠ y2 ∨ y1 = 0) then none
    else
      let l := if x1 = x2 then (sub (3 * x1 * x1) 3) * invMod ecP (2 * y1) % ecP else (sub y2 y1) * invMod ecP (sub x2 x1) % ecP
      let x3 := sub (sub (l * l) x1) x2
      some (x3, sub (l * sub x1 x3) y1)

/-- `k` times a point, added to `acc`, for `k` below 2 ^ n. -/
def ecMulGo : Nat → Nat → EcPoint → EcPoint → EcPoint
  | 0, _, acc, _ => acc
  | n + 1, k, acc, p => if k = 0 then acc else ecMulGo n (k / 2) (if k % 2 = 1 then ecAdd acc p else acc) (ecAdd p p)

/-- `k` times a point. -/
def ecMul (k : Nat) (p : EcPoint) : EcPoint := ecMulGo 384 k none p

/-- Is (x, y) a point of P-384 (Table 15-5)? -/
def ecValid (x y : Nat) : Bool := decide (x < ecP ∧ y < ecP ∧ y * y % ecP = (x * x * x + (ecP - 3) * x + ecB) % ecP)

/-- Does the signature (r, s) of a message of hash `e` verify against a key? -/
def ecdsa (key : Nat × Nat) (e r s : Nat) : Bool :=
  if r = 0 ∨ ecN ≤ r ∨ s = 0 ∨ ecN ≤ s ∨ !ecValid key.1 key.2 then false
  else
    let w := invMod ecN s
    match ecAdd (ecMul (e * w % ecN) (some ecG)) (ecMul (r * w % ecN) (some key)) with
    | none => false
    | some (x, _) => x % ecN = r

/-- The public key from its 24 words, x then y, little-endian (Table 15-9). -/
def keyOfWords (ws : List W32) : Nat × Nat :=
  let n := fun (l : List W32) => l.foldr (fun w a => a * 2 ^ 32 + w.toNat) 0
  (n (ws.take 12), n (ws.drop 12))

/-- Does a 96-byte signature, r then s, little-endian, over some bytes verify (R406, R407)? -/
def sigVerify (key : Nat × Nat) (body sig : List (BitVec 8)) : Bool :=
  ecdsa key (sha384 body) (natLe (sig.take 48)) (natLe (sig.drop 48))

end Sys2Proof.Machine
end

