-- ==== Sys2Proof/Machine/Reset.lean ====
section
/-! DEFINITION. Drains, resets and zeroisation (R376 to R381, R326, R299). -/

namespace Sys2Proof.Machine

-- ===== memory self-test, where a reset or a fence ends it (R385, R388) =====

/-- A memory self-test ends with a result; a bank that it withdrew returns empty to service unless it is marked bad, when its domain
goes OFF. One that is still being evacuated returns as an aborted evacuation leaves it (R113). -/
def Mach.mbEnd (m : Mach) (result : Nat) : Mach :=
  match m.mbist with
  | none => m
  | some b =>
    let m := { m with mbist := none }.setFld Reg.tstMbstat 0 4 result
    if b.crm then m
    else if (m.slice b.hs).evac.isSome then
      m.modS b.hs fun s => { s with evac := s.evac.map fun e => { e with aborted := true } }
    else if m.bit (Reg.tstSfbad + 4 * (b.hs / 8)) (4 * (b.hs % 8) + b.bank) then m.domTo (sliceDom b.hs (1 + b.bank)) .off
    else m.modS b.hs fun s => { s with bank := s.bank.setIfInBounds b.bank .on }

/-- The slice under memory self-test has been fenced: the test ends ABORTED and the bank is unmarked (Table 14-9). -/
def Mach.mbFenced (m : Mach) : Mach :=
  match m.mbist with
  | none => m
  | some b =>
    let r := (if b.crm then Reg.tstCrbad else Reg.tstSfbad) + 4 * (b.hs / 8)
    (if b.fail then m.clrBits r (1#32 <<< (4 * (b.hs % 8) + b.bank)) else m).mbEnd 4

-- ===== drains (R378) =====

/-- A drain starts: credits are withheld, waiting entries end, write-combining buffers close (R197), resident queues are paged
out (R233), self-tests end (R388), and the held queue empties (R400). -/
def Mach.drainStart (m : Mach) (d : Drain) : Mach :=
  let m := ({ m with drain := some d, heldq := [], lbist := false }.mbEnd 4).endWaits
  let m := m.active.foldl (fun m h => m.wcCloseAll h) m
  m.active.foldl (fun m h => Mach.fin (m.pageOutAll h)) m

/-- Finish FREEZE and SWITCH of a running rehoming; COPYSF is abandoned with the wipe that follows. -/
def Mach.rhFinish (m : Mach) : Mach :=
  match m.rehome with
  | none => m
  | some r =>
    -- a drain does not wait for the spare's domains
    let up := fun (m : Mach) =>
      let m := { m with domq := m.domq.filter fun x => x.1 / 6 ≠ r.new }
      (List.range 6).foldl (fun m k => m.moveDom (sliceDom r.new k) .on) m
    (if r.freeze then m else (up m).rhFreeze).rhSwitch

/-- Every link goes DOWN. -/
def Mach.linksDown (m : Mach) : Mach :=
  let m := (List.range 28).foldl (fun m p => if (m.port p).st = .down then m else m.setLink p .down) m
  { m with ports := [] }

/-- A drain ends: what is still ACTIVE ends with CMX POISON, a write whose MWC has not come is discarded and counted in
RST_LOSTWR, a RESET record is placed, and the links go DOWN (R378 steps 2 to 4). -/
def Mach.drainEnd (m : Mach) : Mach :=
  let m := m.rhFinish.endActive
  let m := m.active.foldl (fun m h => m.wcCloseAll h) m
  let m := m.active.foldl (fun m h => Mach.fin (m.pageOutAll h)) m
  let n := (m.active.map fun h => (m.slice h).unwritten.length).sum
  let m := m.count Reg.rstLostwr n
  let typ := match m.drain with | some .soft => 2 | some .warm => 1 | _ => 3
  -- SOFT is a command of the S world, and a lifecycle change is S (R344)
  (m.recordV 2 (m.drain != some .warm) (payload 2 [typ, (m.reg Reg.rstLostwr).toNat] 8) 1).linksDown

-- ===== the wipe (R379) =====

/-- The registers that a WARM or SOFT reset keeps, where the register maps say so: GLB_LSMAP and the homed space, the region
map base, the controls of R181, R204 and R369, REC, AON and TST pages, the controllers' pages, RVP_SPARE, RVP_RHSTAT and
RVP_RHCNT, Crema's controls, HS_SFCTL, HDM ranges, and a fenced slice's counters (R436). -/
def Mach.keeps (m : Mach) (soft : Bool) (a : Nat) : Bool :=
  let b := a % 0x100000
  let p := b / 0x1000
  let off := b % 0x1000
  if off < 0x020 then off = 0x018 || (off = 0x01C && soft)
  else match p with
    | 0 => (0x040 ≤ off && off < 0x06C) || (0x080 ≤ off && off < 0x09C) || (soft && 0x0E0 ≤ off && off < 0x0F0)
    | 1 => off = 0x020 || off = 0x024 || off = 0x070
    | 2 => off = 0x024 || off = 0x028 || off = 0x02C
    | 5 | 6 | 10 | 12 | 14 => true
    | 7 => off = 0x020 || off = 0x028 || off = 0x02C || (0x040 ≤ off && off < 0x070)
    | 8 => off = 0x024 || off = 0x028 || off = 0x02C
    | 9 => off = 0x080 || off = 0x084 || off = 0x088 || off = 0x08C
    | 11 => off < 0x030 || off = 0x080 || off = 0x08C || off = 0x090
    | _ =>
      if 0x40 ≤ p && p < 0x5C then decide (0x140 ≤ off ∧ off < 0x1A0)
      else if 0x80 ≤ p && p < 0xA2 then off = 0x020
      else if 0xC0 ≤ p then decide ((m.slice (p - 0xC0)).role = .fenced)
      else false

/-- The lifecycle state that the three copies give by majority (R405). Two transitions that lost their power may leave three copies
that differ; the second then holds the state in force. -/
def Fuse.state (f : Fuse) : BitVec 3 := if f.lc[0] = f.lc[2] then f.lc[0] else f.lc[1]

/-- The SEC page's fused values (R409). -/
def Mach.fused (m : Mach) (f : Fuse) : Mach :=
  let st := f.state.toNat
  let m := m.setReg Reg.secLcstat ((m.reg Reg.secLcstat &&& 0xF000#32) ||| BitVec.ofNat 32 (st + f.redeploy.toNat * 16))
  let m := m.setPair Reg.secDevidLo Reg.secDevidHi f.devid
  let m := (List.range 24).foldl (fun m k => m.setReg (Reg.secKey + 4 * k) (f.key.getD k 0)) m
  (List.range 3).foldl (fun m c =>
    let min := ((List.range 32).filter fun i => (f.min.toList.getD c 0).getLsbD i).length
    m.setFld (Reg.secPatch + 4 * c) 8 6 min) m

/-- A slice after a WARM or SOFT reset: empty arrays, its mapping and its fence kept (Table 14-6). -/
def Mach.wiped (m : Mach) (h : Nat) (z : Zer) : Slice :=
  let s := m.slice h
  { role := s.role, ls := s.ls, bank := m.banksAt h, run := if s.role = .fenced then .stopped else .on
    zeroise := if s.role = .active then some z else none }

/-- Arrays and registers return to reset, and bring-up starts again at `step` (R379). -/
def Mach.wipe (m : Mach) (f : Fuse) (soft : Bool) (step : Nat) : Mach :=
  let z : Zer := { bank3 := m.bit Reg.secPart 0, ways := m.fld Reg.crmLkcfg 0 3, slots := m.fld Reg.qobWcfg 0 11 }
  let slices := (List.range 34).foldl (fun (t : SMap Slice) h => t.set (Slice.fresh h) h (m.wiped h z)) []
  let regs := m.regs.filter fun e => m.keeps soft e.1
  let m : Mach := {
    integ := m.integ, up := true, regs, slices, doms := m.doms, due := [], sweeps := []
    ctrl := if soft then m.ctrl else []
    rcr := m.rcr, cur := m.cur, throttle := m.throttle, vmon := m.vmon, tmon := m.tmon, step
    recOff := m.recOff || m.bit Reg.recStat 6, dbgOpen := m.dbgOpen, free := m.free, cslot := m.cslot, resp := m.resp, lc := m.lc, mapped := m.mapped }
  let m := (m.clrBits Reg.glbSpsize 0x80000000).clrBits Reg.rmpCtl 1
  let m := m.setReg Reg.crmStat (m.reg Reg.crmStat &&& 0xC)
  let m := m.setReg Reg.pwrBuPct 0
  m.fused f

/-- The result and the kind of the last package reset (Table 14-11). -/
def Mach.rstResult (m : Mach) (n : Nat) : Mach := m.setFld Reg.rstStat 0 4 n

/-- RESET_DRAIN_DONE: the drain of a WARM or SOFT reset ends and the arrays are wiped. -/
def State.drainDone (s : State) : State :=
  match s.m.drain with
  | some .warm =>
    let m := (s.m.drainEnd.wipe s.fuse false 2).count Reg.rstRcnt
    { s with m := (m.setFld Reg.rstStat 24 3 1).rstResult 0 }
  | some .soft =>
    let m := (s.m.drainEnd.wipe s.fuse true 3).count Reg.rstRcnt
    { s with m := (m.setFld Reg.rstStat 24 3 2).rstResult 0 }
  | _ => s

/-- TX_WARM_N: a drain starts, or goes on as a WARM drain. A lifecycle transition is not cut short: it ends in the same
bring-up (notes/assumptions/18.md). -/
def Mach.warm (m : Mach) : Mach :=
  if !m.up || m.lc.isSome then m
  else match m.drain with
    | some _ => { m with drain := some .warm }
    | none => m.drainStart .warm

/-- RST_CMD SOFT (R376, R377). -/
def Mach.softReset (m : Mach) (w : World) (a : Nat) : Mach :=
  if w = .ns then (m.rstResult 2).refuse w a .world
  else if m.drain.isSome then (m.rstResult 1).refuse w a .busy
  else if m.safe.isSome || m.lc.isSome then (m.rstResult 1).refuse w a .state
  else (m.rstResult 0).drainStart .soft

/-- RST_CMD SLICE (R377): only a spare that PREP is not using, or a fenced slice. Its domains go OFF. -/
def Mach.sliceReset (m : Mach) (w : World) (a h : Nat) : Mach :=
  if w = .ns then (m.rstResult 2).refuse w a .world
  else if m.drain.isSome then (m.rstResult 1).refuse w a .busy
  else if (m.slice h).role = .active || (m.rehome.any fun r => r.new = h) || (m.slices.any fun e => e.2.copy.any fun c => c.old = h) then
    (m.rstResult 1).refuse w a .state
  else if 34 ≤ h then (m.rstResult 1).refuse w a .value
  else
    let s := m.slice h
    let busy := s.msp.isSome
    let par := fun (p : Nat) => m.reg (Reg.pgPar (p + h))
    let m := m.spareOff h
    let m := (((m.clearPage (0x80 + h) 0x010).clearPage (0xC0 + h) 0x010).setReg (Reg.pgPar (0x80 + h)) (par 0x80)).setReg (Reg.pgPar (0xC0 + h)) (par 0xC0)
    let m := if busy then m.setFld (hsA h Reg.hsMspStat) 0 4 3 else m
    m.rstResult 0

/-- The counters of a port page return to zero and freeze is cleared (R309, R440); PG_ERR and PG_ERRMASK are cleared (R419). -/
def portCounters : List Nat :=
  [Reg.pCrcerr, Reg.pReplay, Reg.pReplayf, Reg.pRetrain, Reg.pProterr, Reg.pLostwr, Reg.pRxflitLo, Reg.pRxflitHi, Reg.pTxflitLo,
   Reg.pTxflitHi, Reg.pUpcycLo, Reg.pUpcycHi, Reg.pRxreq, Reg.pRxrsp, Reg.pRxdat, Reg.pRxmem, Reg.pTxsnp, Reg.pTxrsp, Reg.pTxdat,
   Reg.pTxmem, Reg.pCrhold, Reg.pEgstall, Reg.pWofull, Reg.pBarcnt, Reg.pBarlost]
def Mach.clearPort (m : Mach) (p : Nat) : Mach := portCounters.foldl (fun m o => m.setReg (portA p o) 0) m

/-- RST_CMD PORT (R299, R376): either world for a port in DOWN, the S world for one in FENCED. The port goes to DOWN and
initialises again; what Tribex keeps behind a memory port's seed stays out of service until the next bring-up. -/
def Mach.portReset (m : Mach) (w : World) (a : Nat) (v : W32) (ptype num : Nat) : Mach :=
  let p := match ptype with | 0 => num | 1 => 16 + num | _ => 24 + num
  let bad := match ptype with | 0 => decide (16 ≤ num) | 1 => decide (8 ≤ num) | 2 => decide (4 ≤ num) | _ => true
  let st := (m.port p).st
  if !bad && w = .ns && st = .fenced then (m.rstResult 2).refuse w a .world
  else if m.drain.isSome then (m.rstResult 1).refuse w a .busy
  else if !bad && (!m.populated p || !(st = .down || st = .fenced)) then (m.rstResult 1).refuse w a .state
  else if bad then (m.rstResult 1).refuse w a .value
  else if w = .ns && m.claimed (portDom p) then (m.hold a v).1.rstResult 1
  else
    let seed := decide (16 ≤ p ∧ p < 24) && (List.range 4).any fun k => m.bit (Reg.rmpSeedCfg + 12 * k) 31 && m.fld (Reg.rmpSeedCfg + 12 * k) 0 3 = p - 16
    let m := if st = .fenced && seed && !m.metaDn.contains p then { m with metaDn := m.metaDn ++ [p] } else m
    let m := if st = .fenced then m.setLink p .down else m
    let m := m.setPort p {}
    let m := (((m.clearPort p).setReg (portA p Reg.pPctl) 0).setReg (portA p Reg.pRtwin) 0).clrBits (portA p Reg.pLctl) 1
    let m := (m.setReg (Reg.pgErr (0x40 + p)) 0).setReg (Reg.pgErrmask (0x40 + p)) 0
    (((m.setFld (portA p Reg.pLstat) 28 4 0).loadPage (0x40 + p)).trainGo p).rstResult 0

-- ===== zeroisation (R380) =====

/-- The entries of the longest array. -/
def Zer.total (z : Zer) : Nat := max (max (if z.bank3 then 65536 else 0) (z.ways * 1024)) (max z.slots 192)

/-- ZEROISE_ENTRY: one entry of every array of the slice is written. -/
def Mach.zeroStep (m : Mach) (h : Nat) : Mach :=
  match (m.slice h).zeroise with
  | none => m
  | some z =>
    let z' := { z with pos := z.pos + 1 }
    let m := m.modS h fun s => { s with zeroise := if z.total ≤ z'.pos then none else some z' }
    let left := (List.range 34).filterMap fun k => (m.slice k).zeroise
    let m := match left with
      | [] => (m.setReg Reg.rstZPct 10000).setReg Reg.rstZPos (BitVec.ofNat 32 (if z.bank3 then 16383 else 1023))
      | x :: r =>
        let pct := fun (y : Zer) => y.pos * 10000 / y.total
        let slow := r.foldl (fun a y => if pct y < pct a then y else a) x
        (m.setReg Reg.rstZPct (BitVec.ofNat 32 (pct slow))).setReg Reg.rstZPos (BitVec.ofNat 32 (if slow.bank3 then slow.pos / 4 else slow.pos % 1024))
    m.kick h

-- ===== POR (R376, R379, R382) =====

/-- The fuses once a transition has burned `n` of the three copies of the state, in turn. What else it burns counts as burned with
the second copy, from which on the new state is read (R405). -/
def Fuse.burn (f : Fuse) (old : Nat) (target : Fin 5) (key : List W32) (n : Nat) : Fuse :=
  let c := fun (k : Nat) => if k < n then BitVec.ofNat 3 target.val else f.lc.toList.getD k 0
  { f with
    lc := #v[c 0, c 1, c 2]
    redeploy := if 2 ≤ n ∧ old = 3 ∧ target = 2 then f.redeploy + 1 else f.redeploy
    key := if 2 ≤ n ∧ old = 0 ∧ target = 1 then key else f.key }

/-- What the running stage of a lifecycle transition burns (R404). -/
def State.burnt (s : State) (n : Nat) : Fuse :=
  match s.m.lc with
  | some l => if l.stage = 4 then s.fuse.burn s.m.lcState l.target ((List.range 24).map fun i => s.m.reg (Reg.secKey + 4 * i)) n else s.fuse
  | none => s.fuse

/-- POR: everything but fuses, counter store and record store returns to reset; the netlist's parameters stay. How many fuse copies a
transition's stage 4 had burned when the power was lost is a free value (R405; notes/assumptions/102.md). -/
def State.por (s : State) : State :=
  { s with m := { integ := s.m.integ, free := s.m.free + 1 }, fuse := s.burnt (Config.burned s.m.free).val }

/-- POR_RELEASE: bring-up starts at step 1. The island resumes OPSEC from the slot that holds the highest value and increments
PCC, and the lifecycle state is read from its fuses (R373, R382, R405). -/
def State.porRelease (s : State) : State :=
  if s.m.up then s
  else
    let sl := s.cstore.toList
    let best := (List.range 16).foldl (fun b i =>
      let x := sl.getD i (0, 0)
      let y := sl.getD b (0, 0)
      if y.1.toNat < x.1.toNat ∨ (y.1 = x.1 ∧ y.2.toNat < x.2.toNat) then i else b) 0
    let x := sl.getD best (0, 0)
    let m := ({ s.m with up := true, step := 1, cslot := (best + 1) % 16 }.setReg Reg.aonOpsec x.1).setReg Reg.aonPcc ((x.2 + 1).setWidth 32)
    { s with m := m.fused s.fuse }

end Sys2Proof.Machine
end

