-- ==== Sys2Proof/Machine/Bringup.lean ====
section
/-! DEFINITION. Bring-up: the image checks, patches, the slice mapping and the opening of credits (R11, R23 to R26, R34, R273,
R303, R305, R382, R383, R401, R406, R407, R425). -/

namespace Sys2Proof.Machine

-- ===== the image (Tables 01-12 and 16-9) =====

/-- Bits that Tribex sets and software clears (R414). -/
def eventMask (a : Nat) : W32 :=
  let off := a % 0x1000
  let p := a / 0x1000
  if off = 0x010 then 0x80000000#32
  else if a = Reg.pwrEvt then 0x7F#32
  else if a = Reg.secIrq then 0x1E#32
  else if a = Reg.qobNstat then 1#32
  else if a = Reg.crmStat then 8#32
  else if 0x80 ≤ p && p < 0xA2 && off = Reg.hsErrstat then 0x3FF#32
  else 0

/-- The credit counts of CRCFG0 that a port page has, by the classes the port receives (Tables 10-1 and 11-1); the others are
reserved. -/
def crcMask (page : Nat) : W32 :=
  if page < 0x50 then 0x00FFFFFF#32
  else if page < 0x58 then 0xFF000000#32
  else 0xFFFFFFFF#32

/-- The RO fields that CP loads from the image. -/
def imgMask (g : Integ) (a : Nat) : W32 :=
  let off := a % 0x1000
  let p := a / 0x1000
  if a = Reg.glbHbaseLo then 0xC0000000#32
  else if a = Reg.glbHbaseHi || a = Reg.glbSpbaseHi || a = Reg.qobDescBaseHi then 0xFFFFF#32
  else if a = Reg.glbHsize || a = Reg.glbSpsize then 0x3F#32
  else if a = Reg.glbSpbaseLo then 0xF0000000#32
  else if a = Reg.glbCrslc then 0x70F1F#32
  else if a = Reg.qobDescBaseLo then 0xFC000000#32
  else if a = Reg.qobWcfg then 0x07FF07FF#32
  else if p = 7 && 0x040 ≤ off && off < 0x070 then
    match off % 12 with | 4 => 0xFFF00000#32 | 8 => 0xFFFFF#32 | _ => 0x80003F07#32
  else if 0x40 ≤ p && p < 0x5C && off = Reg.pCrcfg0 then crcMask p
  else if 0x58 ≤ p && p < 0x5C && off = Reg.pCrcfg1 then 0xFF#32
  else if 0x58 ≤ p && p < 0x5C && g.cxl.getLsbD (p - 0x58) && 0x140 ≤ off && off < 0x1A0 then
    match off % 12 with | 8 => 0xF0000000#32 | 0 => 0x3FFF#32 | _ => 0x8000013F#32
  else 0

/-- Load the fields an image gives a register. -/
def Mach.imgSet (m : Mach) (a : Nat) (v : W32) : Mach :=
  match regRow m.integ a with
  | none => m
  | some r =>
    if a % 0x1000 < 0x020 || (Reg.secAuth ≤ a && a < Reg.secPatch) then m
    else
      let k := ((r.rw ||| r.rwl) &&& ~~~ eventMask a) ||| imgMask m.integ a
      m.setReg a ((m.reg a &&& ~~~ k) ||| (v &&& k))

/-- The credit counts of Table 10-1 that the image leaves at zero take their defaults, in the bytes of CRCFG0 and CRCFG1 that
apply to the port. -/
def Mach.credDefaults (m : Mach) (p : Nat) : Mach :=
  let fill := fun (m : Mach) (o lo n : Nat) => if m.fld (portA p o) lo 8 = 0 then m.setFld (portA p o) lo 8 n else m
  let dci := fun (m : Mach) => [(0, 64), (8, 128), (16, 128)].foldl (fun m x => fill m Reg.pCrcfg0 x.1 x.2) m
  if p < 16 then dci m
  else if p < 24 then fill m Reg.pCrcfg0 24 128
  else fill (fill (dci m) Reg.pCrcfg0 24 64) Reg.pCrcfg1 0 16

/-- Load the image: its RO fields afresh, every register it gives, the default partition and credit counts where it gives
none (R270, R273), and the snapshot lists (R361). Every PG_PAR clears (R421). -/
def Mach.imgLoad (m : Mach) (g : Image) : Mach :=
  let g' := m.integ
  let m : Mach := { m with regs := m.regs.filter fun e => decide (imgMask g' e.1 = 0) && decide (e.1 % 0x1000 ≠ 0x018) }
  let m := g.cfg.foldl (fun m x => m.imgSet x.1.toNat x.2) m
  let m := if m.reg Reg.glbCrslc = 0 then m.setReg Reg.glbCrslc 0x20408#32 else m
  let m := (List.range 28).foldl (fun m p => if m.populated p then m.credDefaults p else m) m
  let m := (m.setBits Reg.glbHsize 0x80000000).setBits Reg.glbCrslc 0x80000000
  let lists := g.snap.foldl (fun (l : SMap (BitVec 20)) x => l.set 0 (x.1.val * 64 + x.2.1.val) x.2.2) m.rcr.lists
  { m with rcr := { m.rcr with lists }, image := some g }

/-- Is a range of `2^s` bytes at a PA within homed space, and within one seed (R25)? -/
def Mach.inHomed (m : Mach) (b s : Nat) : Bool := decide (m.hbase ≤ b ∧ b + 2 ^ s ≤ m.hbase + 2 ^ m.hlog2)
def Mach.seed (m : Mach) (k : Nat) : Option (Nat × Nat × Nat) :=
  let cfg := m.reg (Reg.rmpSeedCfg + 12 * k)
  if cfg.getLsbD 31 then
    some ((m.pair (Reg.rmpSeedBaseLo + 12 * k) (Reg.rmpSeedBaseHi + 12 * k)).toNat, (cfg.extractLsb' 8 6).toNat, (cfg.extractLsb' 0 3).toNat)
  else none
def Mach.seeds (m : Mach) : List (Nat × Nat × Nat) := (List.range 4).filterMap m.seed
def Mach.inSeed (m : Mach) (b s : Nat) : Bool := m.seeds.any fun x => decide (x.1 ≤ b ∧ b + 2 ^ s ≤ x.1 + 2 ^ x.2.1)

/-- No two ranges of a list overlap. -/
def disjoint : List (Nat × Nat) → Bool
  | [] => true
  | x :: r => (r.all fun y => !overlap x.1 x.2 y.1 y.2) && disjoint r

/-- Item 0x05: the integration limits (R23, R24) and the frequencies of R389; the image names no port that is not there. -/
def Mach.integOk (m : Mach) (g : Image) : Bool :=
  let i := m.integ
  i.dp ≠ 0 && i.mp ≠ 0 && (i.cxl &&& ~~~ i.ip) = 0 && decide (12 ≤ i.fmax.toNat ∧ i.fmax.toNat ≤ 24) &&
  decide (30 ≤ i.homed.toNat ∧ i.homed.toNat ≤ 46) && m.freqOk (m.fld Reg.pwrFreq 0 5) && m.freqOk (m.fld Reg.pwrFreq 16 5) &&
  g.cfg.all fun x => !(let p := x.1.toNat / 0x1000; 0x40 ≤ p && p < 0x5C && !m.populated (p - 0x40))

/-- Item 0x07: the homed base and size (R26). -/
def Mach.homedOk (m : Mach) : Bool :=
  let s := m.hlog2
  decide (30 ≤ s ∧ s ≤ m.integ.homed.toNat) && aligned m.hbase s && decide (m.hbase + 2 ^ s ≤ 2 ^ 52)

/-- Item 0x08: the seed regions (R34). -/
def Mach.seedsOk (m : Mach) : Bool :=
  m.seeds ≠ [] && (m.seeds.all fun x => decide (20 ≤ x.2.1 ∧ x.2.1 ≤ 46) && aligned x.1 x.2.1 && m.inHomed x.1 x.2.1 && m.populated (16 + x.2.2)) &&
  disjoint (m.seeds.map fun x => (x.1, x.2.1))

/-- Item 0x09: the spill directory and the descriptor table (R25). -/
def Mach.placeOk (m : Mach) : Bool :=
  let b := (m.pair Reg.glbSpbaseLo Reg.glbSpbaseHi).toNat
  let z := m.fld Reg.glbSpsize 0 6
  let d := (m.pair Reg.qobDescBaseLo Reg.qobDescBaseHi).toNat
  decide (28 ≤ z ∧ z ≤ 34) && aligned b z && m.inHomed b z && m.inSeed b z && m.inHomed d 26 && m.inSeed d 26

/-- Item 0x0A: the tracker partition (R273). -/
def Mach.partOk (m : Mach) : Bool :=
  decide (2 ≤ m.dedReq ∧ m.dedReq ≤ 16) && decide (1 ≤ m.dedWr ∧ m.dedWr ≤ m.dedReq ∧ m.dedWr ≤ 8) && decide (1 ≤ m.dedMbs ∧ m.dedMbs ≤ 4) &&
  decide (m.ports1 * m.dedWr ≤ 112)

/-- Item 0x0B: the HDM ranges (R303); `g` shows a range given to a port without CXL. -/
def Mach.hdmOk (m : Mach) (g : Image) : Bool :=
  let rs := (List.range 32).filterMap fun i =>
    let a := (0x58 + i / 8) * 0x1000 + 12 * (i % 8)
    let cfg := m.reg (a + Reg.ipHdmCfg)
    if cfg.getLsbD 31 then some ((m.pair (a + Reg.ipHdmBaseLo) (a + Reg.ipHdmBaseHi)).toNat, (cfg.extractLsb' 0 6).toNat) else none
  let stray := g.cfg.any fun x =>
    let p := x.1.toNat / 0x1000
    let off := x.1.toNat % 0x1000
    0x58 ≤ p && p < 0x5C && 0x140 ≤ off && off < 0x1A0 && off % 12 = 4 && x.2.getLsbD 31 && !m.isCxl (p - 0x40)
  !stray && (rs.all fun r => decide (28 ≤ r.2 ∧ r.2 ≤ 46) && aligned r.1 r.2 && decide (r.1 + 2 ^ r.2 ≤ 2 ^ m.hlog2)) && disjoint rs

/-- The first failing item of Table 16-9, for the machine with the image loaded; `req` says that a required patch was
rejected. -/
def Mach.imgItem (m : Mach) (g : Image) (req : Bool) : Option Nat :=
  let st := m.lcState
  if !g.readOk then some 1
  else if (st = 1 || st = 2 || st = 3) && !g.sigOk then some 2
  else if req then some 3
  else if st = 4 then some 4
  else if !m.integOk g then some 5
  else if 2 < g.excl.eraseDups.length then some 6
  else if !m.homedOk then some 7
  else if !m.seedsOk then some 8
  else if !m.placeOk then some 9
  else if !m.partOk then some 10
  else if !m.hdmOk g then some 11
  else none

/-- A CONFIG record (Table 13-2). -/
def Mach.configRec (m : Mach) (accepted item what : Nat) : Mach := m.recordV 5 false (payload 5 [accepted, item, what] 16) 1

/-- The image is refused: bring-up halts (R25, R383). `what` is the port of item 0x0C. -/
def Mach.imgRefuse (m : Mach) (item : Nat) (what : Nat := 0) : Mach :=
  ({ m with halted := true }.setReg Reg.ctpImgstat (BitVec.ofNat 32 (2 ^ 31 + 2 * 2 ^ 28 + item * 2 ^ 16))).configRec 0 item what

-- ===== patches (R407, Table 15-8) =====

/-- A patch section is verified: its controller, version and required flag, and whether every condition holds. -/
def Mach.patchOk (m : Mach) (key : Nat × Nat) (b : List (BitVec 8)) : Nat × Nat × Bool × Bool :=
  let n := natLe (b.take 4)
  let c := (b.getD 4 0).toNat
  let ver := (b.getD 5 0).toNat
  let dev := natLe ((b.drop 8).take 8)
  let ok := decide (m.lcState = 1 ∨ m.lcState = 2 ∨ m.lcState = 3) && decide (c < 3) && decide (ver ≤ 32) && n % 4 = 0 && decide (n ≤ 65536) &&
    b.length = n + 128 && (dev = 0 || dev = (m.pair Reg.secDevidLo Reg.secDevidHi).toNat) && decide (m.fld (Reg.secPatch + 4 * c) 8 6 ≤ ver) &&
    sigVerify key (b.take (n + 32)) (b.drop (n + 32))
  (c, ver, (b.getD 6 0).getLsbD 0, ok)

/-- Verify the patches of an image in order: whether a required one was rejected. -/
def Mach.patches (m : Mach) (key : Nat × Nat) (ps : List (List (BitVec 8))) : Mach × Bool :=
  ps.foldl (fun (x : Mach × Bool) b =>
    let (m, bad) := x
    let (c, ver, req, ok) := m.patchOk key b
    let m := m.recordV 7 true (payload 7 [c, ver, if ok then 1 else 0] 8) 1
    if ok then
      let m := ((m.setFld (Reg.secPatch + 4 * c) 30 2 1).setFld (Reg.secPatch + 4 * c) 0 6 ver)
      (m.modC c fun s => { s with run := 2, ver := some ver }, bad)
    else
      let m := m.setBits Reg.secIrq 0x10
      let m := if c < 3 then (m.setFld (Reg.secPatch + 4 * c) 30 2 (if req then 3 else 2)).setFld (Reg.secPatch + 4 * c) 0 6 0 |>.modC c fun s =>
          { s with run := 1, ver := none }
        else m
      (m, bad || req)) (m, false)

-- ===== the steps (Table 14-8) =====

/-- Step 3 ends: the image is checked in the order of Table 16-9 and loaded, or refused. -/
def Mach.step3 (m : Mach) (key : Nat × Nat) (g : Image) : Mach :=
  let m := m.setReg Reg.ctpImglen (g.words.setWidth 32)
  if !g.readOk then m.imgRefuse 1
  else if (m.lcState = 1 || m.lcState = 2 || m.lcState = 3) && !g.sigOk then m.imgRefuse 2
  else
    let (m, req) := if m.lcState = 4 then (m, false) else m.patches key g.patches
    let m' := m.imgLoad g
    match m'.imgItem g req with
    | some k => m.imgRefuse k
    | none => (m'.setReg Reg.ctpImgstat 0x90000000).configRec 1 0 0

/-- The slice mapping after POR, with the slices an image excludes left out; RVP_SPARE names the two spares (R11). -/
def Mach.mapSlices (m : Mach) (excl : List SliceId) : Mach :=
  let out := fun (h : Nat) => excl.any fun x => x.val = h
  let use := (List.range 34).filter fun h => !out h
  ((List.range 34).foldl (fun m h =>
    if out h then m.modS h fun s => { s with role := .unusable, ls := 0 }
    else
      let ls := use.idxOf h
      if ls < 32 then
        (m.modS h fun s => { s with role := .active, ls }).setFld (Reg.glbLsmap + 4 * (ls / 4)) (8 * (ls % 4)) 6 h
      else m.modS h fun s => { s with role := .spare, ls := 0 }) m).nameSpares

/-- Step 5 ends: the mapping stands, the slice clock is set, and the active slices' domains are ON (R14, R369, R382). -/
def Mach.step5 (m : Mach) : Mach :=
  let m := if m.mapped then m else { m with mapped := true }.mapSlices ((match m.image with | some g => g.excl | none => []))
  let m := { m with cur := m.freqGoal }
  let m := m.active.foldl (fun m h =>
    let bank := m.banksAt h
    let m := m.modS h fun s => { s with bank, crmIdle := false }
    (List.range 6).foldl (fun m k =>
      let st : BankSt := if k = 0 || k = 5 then .on else bank.getD (k - 1) .on
      m.setDom (sliceDom h k) (if st = .off then .off else .on)) m) m
  m.shared

/-- Step 6 starts: adapters and Yard quadrants are powered, and the links train. -/
def Mach.step6In (m : Mach) : Mach :=
  ((List.range 28).foldl (fun m p => if m.populated p then (m.setDom (portDom p) .on).trainGo p else m) m).shared

/-- The credit counts a port advertises, by the codes of Table 11-5 (Table 10-6). -/
def Mach.imgCredits (m : Mach) (p : Nat) : List Nat :=
  let f := fun o lo => m.fld (portA p o) lo 8
  [0, f Reg.pCrcfg0 0, 0, f Reg.pCrcfg0 8, f Reg.pCrcfg0 16, f Reg.pCrcfg0 24, 0, 0, f Reg.pCrcfg1 0]

/-- Have every slice's owner sweeps for the agents behind a port ended (R326)? -/
def Mach.swept (m : Mach) (p : Nat) : Bool :=
  (portAgents p).all fun a => !m.sweeps.contains a && m.active.all fun h => !((m.slice h).osw.any fun o => o.agent = a && !o.over)

/-- A port in INIT advertises the image's counts and goes UP; its agents are unfenced (R299, R326, R382). While it is quiesced, its
REQ and MBS credits are withheld. -/
def Mach.openPort (m : Mach) (p : Nat) : Mach :=
  if (m.port p).st ≠ .init || !m.swept p then m
  else
    let cr := m.imgCredits p
    let q := m.bit (portA p Reg.pLctl) 0
    let held := fun c => q && (c = 1 || c = 8)
    let give := (List.range 9).map fun c => if held c then 0 else cr.getD c 0
    let keep := (List.range 9).map fun c => if held c then cr.getD c 0 else 0
    let m := { m with fagent := (portAgents p).foldl (fun v a => v &&& ~~~ agBit a) m.fagent }
    let m := m.modP p fun v => { v with withh := keep }
    ((m.setLink p .up).sendLink p (.ctrl 2 (cradvWord give))).pump p

/-- Step 7 starts: CP has Tamper zero-fill the spill directory (R96). -/
def Mach.step7In (m : Mach) : Mach :=
  m.tmpAsk {
    op := 4, base := m.offPa (m.pair Reg.glbSpbaseLo Reg.glbSpbaseHi).toNat, log2 := m.fld Reg.glbSpsize 0 6, il := false, all := false
    owner := .device, why := .spill }

/-- Step 7 ends: the fill has ended and the spill directory is in use, credits open, and the package is up (R96, R382). -/
def Mach.step7 (m : Mach) : Mach :=
  let m := match m.tmp with
    | some o => if o.why = TmpWhy.spill then m.fillTo (2 ^ (o.log2 - 6)) else m
    | none => m
  let m := m.setBits Reg.glbSpsize 0x80000000
  let m := (List.range 28).foldl (fun m p => m.openPort p) m
  { m with step := 8 }.setEvt 0

/-- Step 2 starts: controllers, recorder buffer and record store power up, and each controller runs from ROM. -/
def Mach.step2In (m : Mach) : Mach :=
  let m := [204, 205, 206, 212, 213].foldl (fun m d => m.setDom d .on) m
  [0, 1, 2].foldl (fun m c => if m.ctrlRuns c then m else m.modC c fun s => { s with run := 1 }) m

/-- Step `step` has ended: 1,428 for each of the steps 1 to 6 up to it (R382). A bring-up that starts or restarts later than
step 1 reads 0 until its first step ends (R5). -/
def Mach.stepEnd (m : Mach) : Mach :=
  { m with step := m.step + 1 }.setReg Reg.pwrBuPct (BitVec.ofNat 32 (1428 * m.step))

/-- A lifecycle transition ends with the bring-up of its stage 7 (Table 15-7). -/
def Mach.lcOver (m : Mach) : Mach := if m.lc.isSome then { m with lc := none }.setReg Reg.secLcPct 10000 else m

/-- A DECOMMISSIONED device erases its record store at step 2 where the erased marker is absent (R405). -/
def State.eraseStore (s : State) : State :=
  let m := s.m.clrBits Reg.recStat 0x80
  { s with store := [], storeBad := [], erased := true, m := { m with rcr := { m.rcr with index := [], ready := false } } }

/-- BRINGUP_STEP_DONE: the step that runs ends and the next one starts (R382). A power failure stops bring-up (Table 14-9). -/
def State.bringup (s : State) (g : Image) : State :=
  let m := s.m
  if !m.up || m.halted || m.rcr.closed || m.drain.isSome || (m.lc.any fun l => l.stage ≠ 7) || m.safe.isSome then s
  else match m.step with
    | 1 => { s with m := (m.stepEnd).step2In }
    | 2 =>
      let s := if m.lcState = 4 && !s.erased then s.eraseStore else s
      let s := { s with m := s.m.step2In }.headScan
      { s with m := s.m.stepEnd }
    | 3 =>
      if !m.ctrlRuns 0 then s
      else
        let m := m.step3 (keyOfWords s.fuse.key) g
        { s with m := if m.halted then m.lcOver else m.stepEnd }
    | 4 => { s with m := (m.setBits Reg.rmpCtl 1).stepEnd }
    | 5 => { s with m := (m.step5.stepEnd).step6In }
    | 6 =>
      if (List.range 28).any fun p => m.populated p && (m.port p).st = .down then s
      else
        match m.seeds.find? fun x => (m.port (16 + x.2.2)).st = .fenced with
        | some x => { s with m := (m.imgRefuse 12 (16 + x.2.2)).lcOver }
        | none => { s with m := m.stepEnd.step7In }
    -- a software operation that still runs holds the fill, and with it the step, back (R260)
    | 7 => if m.tmpq.any fun (o : TmpOp) => o.why = .spill then s else { s with m := (m.step7.setReg Reg.pwrBuPct 10000).lcOver }
    | _ => s

end Sys2Proof.Machine
end

