-- ==== Sys2Proof/Machine/Lifecycle.lean ====
section
/-! DEFINITION. Lifecycle transitions, authorisations and the fused minima (R401 to R405, R408). -/

namespace Sys2Proof.Machine

/-- A long operation's progress where the spec does not say how it counts: a free value that does not decrease and stays
below 10000 (R5). -/
def Mach.freeProgress (m : Mach) (a : Nat) : Mach :=
  { m with free := m.free + 1 }.progress a (min 9999 (Config.progress m.free).toNat)

/-- The 128 bytes of SEC_AUTH0 to SEC_AUTH31. -/
def Mach.authBlock (m : Mach) : List (BitVec 8) :=
  (List.range 32).flatMap fun k => leBytes 4 (m.reg (Reg.secAuth + 4 * k)).toNat

/-- Does the block of Table 15-6 authorise `purpose` (R403)? In BLANK no key is fused, and none verifies. -/
def State.authOk (s : State) (purpose : Nat) : Bool :=
  let b := s.m.authBlock
  s.m.lcState ≠ 0 && natLe (b.take 8) = (s.m.pair Reg.secDevidLo Reg.secDevidHi).toNat &&
  natLe ((b.drop 8).take 4) = (s.m.reg Reg.aonPcc).toNat && (b.getD 12 0).toNat = purpose &&
  ((b.drop 13).take 19).all (· = 0) && sigVerify (keyOfWords s.fuse.key) (b.take 32) (b.drop 32)

/-- A LIFECYCLE record (Table 13-2): old state, new state, wipe result. -/
def Mach.lcRec (m : Mach) (old new res : Nat) : Mach := m.recordV 4 true (payload 4 [old, new, res] 8) 1

/-- SEC_LCSTAT.result (Table 15-9). -/
def Mach.lcResult (m : Mach) (n : Nat) : Mach := m.setFld Reg.secLcstat 12 4 n

/-- A request is refused: its result, PG_ERR, and a record whose new state is the old one (R402). -/
def Mach.lcRefuse (m : Mach) (w : World) (n : Nat) : Mach :=
  ((m.lcResult n).refuse w Reg.secLccmd .state).lcRec m.lcState m.lcState 0

/-- What a transition asks for (Table 15-5): none where it is not in the table, else the purpose it needs, 0 for none. -/
def lcNeeds (state redeploy target : Nat) : Option Nat :=
  match state, target with
  | 0, 1 => some 0
  | 1, 2 => some 0
  | 1, 3 => some 1
  | 2, 3 => some 1
  | 3, 2 => if redeploy < 3 then some 2 else none
  | 0, 4 => some 0
  | 1, 4 => some 3
  | 2, 4 => some 3
  | 3, 4 => some 3
  | _, _ => none

/-- A write of SEC_LCCMD.target 1 to 4 (R402, R405). -/
def State.lcRequest (s : State) (w : World) (target : Nat) : State :=
  let m := s.m
  if w = .ns && m.lcState ≠ 0 then { s with m := (m.lcResult 2).refuse w Reg.secLccmd .world }
  else if m.lc.isSome then { s with m := m.refuse w Reg.secLccmd .busy }
  else match lcNeeds m.lcState (m.fld Reg.secLcstat 4 2) target with
    | none => { s with m := m.lcRefuse w 4 }
    | some need =>
      let k := keyOfWords ((List.range 24).map fun i => m.reg (Reg.secKey + 4 * i))
      if need ≠ 0 && !s.authOk need then { s with m := m.lcRefuse w 3 }
      else if target = 1 && !ecValid k.1 k.2 then { s with m := m.lcRefuse w 1 }
      else if m.drain.isSome then { s with m := m.lcRefuse w 1 }
      else
        let m := (m.lcResult 0).setReg Reg.secLcPct 0
        let m := m.setReg Reg.secLcPos 1
        { s with m := { m with lc := some { target := Fin.ofNat 5 target, stage := 1 } } }

/-- SEC_LCCMD.target 7: a DEBUG authorisation opens debug until the next POR (R402). -/
def State.debugAuth (s : State) (w : World) : State :=
  let m := s.m
  if w = .ns && m.lcState ≠ 0 then { s with m := (m.lcResult 2).refuse w Reg.secLccmd .world }
  else if m.lc.isSome then { s with m := m.refuse w Reg.secLccmd .busy }
  else if s.authOk 4 then { s with m := { m.lcResult 0 with dbgOpen := true } }
  else { s with m := m.lcRefuse w 3 }

/-- The next stage starts. -/
def Mach.lcStage (m : Mach) (l : LcTrans) (n : Nat) : Mach :=
  ({ m with lc := some { l with stage := n } }.setReg Reg.secLcPos (BitVec.ofNat 32 n)).freeProgress Reg.secLcPct

/-- Stage 7 starts: a LIFECYCLE record, but for DECOMMISSIONED; SEC_IRQ.lc_done; and bring-up from step 2 (Table 15-7). -/
def State.lcRestart (s : State) (l : LcTrans) (old : Nat) : State :=
  let m := if l.target = 4 then s.m else s.m.lcRec old l.target.val l.bad.toNat
  { s with m := ((m.setBits Reg.secIrq 8).lcStage l 7).step2In }

/-- LIFECYCLE_STAGE_DONE (R404): stages 1 verify, 2 drain, 3 flush, 4 fuse, 5 wipe, 6 erase; stage 7 ends with its bring-up. The
wipe result names the array that failed to read back zero. -/
def State.lcStageDone (s : State) : State :=
  match s.m.lc with
  | none => s
  | some l =>
    match l.stage with
    | 1 => { s with m := (s.m.drainStart .lifecycle).lcStage l 2 }
    | 2 =>
      let m := s.m.drainEnd
      if l.target = 4 then { s with m := m.lcStage l 4 } else { s with m := (m.lcStage l 3).startFlush }
    | 3 => let s := s.flushAll
           { s with m := s.m.lcStage l 4 }
    | 4 =>
      let f := s.burnt 3
      { s with fuse := f, m := (s.m.fused f).lcStage { l with old := s.m.lcState } 5 }
    | 5 =>
      let m := s.m
      let rcr := { m.rcr with buf := [], run := [], got := [], pend := [] }
      let l : LcTrans := { l with bad := s.stuck }
      let m := ({ m with rcr }.wipe s.fuse false 2)
      -- what the wipe of the registers does not carry over: the transition's own progress and its result
      let m := (m.setReg Reg.secLcPct (s.m.reg Reg.secLcPct)).setReg Reg.secLcPos (s.m.reg Reg.secLcPos)
      -- the locks it drops are lost (R253)
      let m := (List.range 34).foldl (fun m h => (List.range (s.m.slice h).locks).foldl (fun m _ => m.lockLost h) m) m
      let s := { s with m }
      if l.target = 4 then { s with m := s.m.lcStage l 6 } else s.lcRestart l l.old
    | 6 => s.eraseStore.lcRestart l l.old
    | _ => s

/-- SEC_PATCHCMD raise (R408): the fused minimum rises to the version of the controller's running patch. -/
def State.patchRaise (s : State) (w : World) (c : Nat) : State :=
  let m := s.m
  let r := Reg.secPatch + 4 * c
  let ver := m.fld r 0 6
  if w = .ns && m.lcState ≠ 0 then { s with m := m.refuse w Reg.secPatchcmd .world }
  else if 3 ≤ c then { s with m := m.refuse w Reg.secPatchcmd .value }
  else if (m.ctrl.get {} c).run ≠ 2 || m.fld r 30 2 ≠ 1 || ver ≤ m.fld r 8 6 then { s with m := m.refuse w Reg.secPatchcmd .state }
  else
    let f := { s.fuse with min := s.fuse.min.setIfInBounds c (BitVec.ofNat 32 (2 ^ ver - 1)) }
    { s with fuse := f, m := m.fused f }

end Sys2Proof.Machine
end

