-- ==== Sys2Proof/Machine/SelfTest.lean ====
section
/-! DEFINITION. Way-bank commands, the snoop-filter partition, and the self-tests (R108 to R114, R384 to R388). -/

namespace Sys2Proof.Machine

-- ===== way-bank commands (R111, R113) =====

/-- Is a way-bank or, with `b` 4 to 7, Crema bank `b - 4` marked bad (R386)? -/
def Mach.sfBad (m : Mach) (h b : Nat) : Bool := m.bit (Reg.tstSfbad + 4 * (h / 8)) (4 * (h % 8) + b)

/-- Would R113 refuse an evacuation? A slice whose logic is not ON has no bank ON. -/
def Mach.evacBad (m : Mach) (h b : Nat) : Bool :=
  decide ((m.slice h).role ≠ .active) || decide (m.dom (sliceDom h 0) ≠ .on) ||
  decide ((m.slice h).bank.getD b .off ≠ .on) || (m.slice h).evac.isSome || m.lastBank h b

/-- HS_SFBSTAT.result (Table 04-7). -/
def Mach.bankResult (m : Mach) (h n : Nat) : Mach := m.setFld (hsA h Reg.hsSfbstat) 10 2 n

/-- A bank command that R113 refuses (`bad`), holds for a claimed domain unless it is a power-on (Table 15-3), or carries
out with result `res`. -/
def Mach.bankCmd (m : Mach) (w : World) (h b op : Nat) (bad : Bool) (res : Nat) (go : Mach → Mach) : Mach :=
  let a := hsA h Reg.hsSfbank
  if bad then (m.bankResult h 1).refuse w a .state
  else if op ≠ 2 && w = .ns && m.claimed (sliceDom h (1 + b)) then
    let (m, ok) := m.hold a (BitVec.ofNat 32 (op * 4 + b))
    m.bankResult h (if ok then 2 else 1)
  else (go m).bankResult h res

/-- EVACUATE. -/
def Mach.bankEvac (m : Mach) (w : World) (h b : Nat) : Mach :=
  m.bankCmd w h b 1 (m.evacBad h b) 0 fun m => m.evacGo h (some b)

/-- BANK_POWER_ON: a bank marked bad is passed over (R386). Where the slice logic is not ON, the bank is ON when it starts. -/
def Mach.bankOn (m : Mach) (w : World) (h b : Nat) : Mach :=
  let bad := decide ((m.slice h).role ≠ .active) || decide ((m.slice h).bank.getD b .off ≠ .off) || m.sfBad h b ||
    (m.mbist.any fun t => t.hs = h && !t.crm && t.bank = b)
  m.bankCmd w h b 2 bad 0 fun m =>
    if m.dom (sliceDom h 0) = .on then
      (m.modS h fun s => { s with bank := s.bank.setIfInBounds b .waking }).domTo (sliceDom h (1 + b)) .waking
    else m.modS h fun s => { s with bank := s.bank.setIfInBounds b .on }

/-- EVACUATION_ABORT: the engine stops at its current set, and the bank returns to ON once the owed moves are made. An abort
with no evacuation of the bank running is refused. -/
def Mach.bankAbort (m : Mach) (w : World) (h b : Nat) : Mach :=
  m.bankCmd w h b 3 (!((m.slice h).evac.any fun e => e.bank = some b && !e.aborted)) 3 fun m =>
    m.modS h fun s => { s with evac := s.evac.map fun e => { e with aborted := true } }

-- ===== the snoop-filter partition (R114) =====

/-- May the partition be enabled: it is there, and in every active slice bank 3 and one of banks 0 to 2 are ON? -/
def Mach.partOn (m : Mach) : Bool :=
  m.integ.sfpart && m.active.all fun h =>
    let b := (m.slice h).bank
    decide (b.getD 3 .off = .on) && (decide (b.getD 0 .off = .on) || decide (b.getD 1 .off = .on) || decide (b.getD 2 .off = .on))

/-- The sort starts in every active slice, or in one that is evacuating once its engine has ended. -/
def Mach.sortGo (m : Mach) : Mach :=
  m.active.foldl (fun m h => if (m.slice h).evac.isSome then m.modS h fun s => { s with sort := true } else m.evacGo h none) m

/-- The partition is disabled: every restriction lifts, and a running sort ends. -/
def Mach.sortStop (m : Mach) : Mach :=
  m.active.foldl (fun m h => m.modS h fun s => { s with sort := false, evac := match s.evac with
    | some e => if e.bank.isNone then some { e with aborted := true } else some e
    | none => none }) m

-- ===== memory self-test (R384 to R386) =====

/-- The bit of a bank in TST_SFBADk or TST_CRBADk. -/
def badReg (crm : Bool) (h : Nat) : Nat := (if crm then Reg.tstCrbad else Reg.tstSfbad) + 4 * (h / 8)

/-- Does any way of Crema bank `j` hold a locked line? -/
def Slice.lockedBank (s : Slice) (j : Nat) : Bool :=
  s.ctag.any fun e => decide (e.1 / 1024 / 4 = j) && tgV (e.2.setWidth 48) && tgLk (e.2.setWidth 48)

/-- Why R385 refuses a memory self-test. -/
def Mach.mbWhy (m : Mach) (h : Nat) (crm : Bool) (b : Nat) : Option Cause :=
  if m.mbist.isSome || m.lbist then some .busy
  else if 34 ≤ h then some .value
  else if (m.slice h).role ≠ .active then some .state
  else if crm then
    if b = 3 || (m.slice h).lockedBank b then some .state
    else if m.lk.isSome then some .busy else none
  else if m.evacBad h b then some .state else none

/-- TST_MBCMD START. -/
def Mach.mbStart (m : Mach) (w : World) (h : Nat) (crm : Bool) (b : Nat) : Mach :=
  let a := Reg.tstMbcmd
  match m.mbWhy h crm b with
  | some c => (m.setFld Reg.tstMbstat 0 4 1).refuse w a c
  | none =>
    if w = .ns && m.claimed (sliceDom h 0) then
      let (m, ok) := m.hold a (BitVec.ofNat 32 (h * 256 + (if crm then 32 else 0) + b * 8 + 1))
      m.setFld Reg.tstMbstat 0 4 (if ok then 2 else 1)
    else
      let m := ((m.setFld Reg.tstMbstat 0 4 0).setReg Reg.tstMbPos 0).setReg Reg.tstMbPct 0
      let m := if crm then m.dropWays h fun w => decide (w / 4 = b) else m.evacGo h (some b)
      { m with mbist := some { hs := h, crm, bank := b, stage := 1 } }

/-- TST_MBCMD ABORT, written with value `v`: refused where none runs. -/
def Mach.mbAbort (m : Mach) (w : World) (v : W32) : Mach :=
  match m.mbist with
  | none => (m.setFld Reg.tstMbstat 0 4 1).refuse w Reg.tstMbcmd .state
  | some t =>
    if w = .ns && m.claimed (sliceDom t.hs 0) then
      let (m, ok) := m.hold Reg.tstMbcmd v
      m.setFld Reg.tstMbstat 0 4 (if ok then 2 else 1)
    else m.mbEnd 4

/-- MBIST_STAGE_DONE. Stage 1 of a way-bank has ended once its evacuation has; `fail` is the first failing way and set that
stage 2 found. -/
def Mach.mbStage (m : Mach) (fail : Option (Nat × Nat)) : Mach :=
  match m.mbist with
  | none => m
  | some b =>
    let stage := fun (m : Mach) (n : Nat) => { m with mbist := some { b with stage := n } }
    match b.stage with
    | 1 => if !b.crm && (m.slice b.hs).evac.isSome then m else (stage m 2).setReg Reg.tstMbPct 1000
    | 2 =>
      let m := { m with mbist := some { b with stage := 3, fail := fail.isSome } }.setReg Reg.tstMbPct 9000
      match fail with
      | some (w, s) =>
        (m.setBits (badReg b.crm b.hs) (1#32 <<< (4 * (b.hs % 8) + b.bank))).setReg Reg.tstMbPos (BitVec.ofNat 32 (w * 65536 + s))
      | none => m.setReg Reg.tstMbPos (if b.crm then 1023 else 16383)
    | _ => (m.mbEnd (if b.fail then 3 else 0)).setReg Reg.tstMbPct 10000

-- ===== logic self-test (R387) =====

/-- Do the conditions of R387 hold? -/
def Mach.lbOk (m : Mach) : Bool :=
  let portOk := fun (p : Nat) =>
    let v := m.port p
    decide (v.st = .down) || decide (v.st = .fenced) || (m.bit (portA p Reg.pLctl) 0 && m.quiet p)
  ((List.range 28).all fun p => decide (16 ≤ p ∧ p < 24) || portOk p) &&
  (m.active.all fun h =>
    let s := m.slice h
    s.busy.isEmpty && s.evac.isNone && s.swp.isNone && !(s.osw.any fun o => !o.over) && s.copy.isNone &&
    !(s.slot.any fun e => e.2.any fun v => v.out || v.vict.isSome)) &&
  m.rehome.isNone && m.tmp.isNone && m.qho.isNone && m.mbist.isNone && !m.lbist

/-- TST_LBCMD. -/
def Mach.lbStart (m : Mach) (w : World) : Mach :=
  if w = .ns then (m.setFld Reg.tstLbstat 0 4 2).refuse w Reg.tstLbcmd .world
  else if !m.lbOk then (m.setFld Reg.tstLbstat 0 4 1).refuse w Reg.tstLbcmd .busy
  else { (m.setFld Reg.tstLbstat 0 4 0).setReg Reg.tstLbPct 0 with lbist := true }

/-- LBIST_DONE: the failures are reported; a failing active slice is rehomed, a failing spare is unusable. The arrays are
kept; what the arbiters of a slice remember returns to reset. -/
def Mach.lbEnd (m : Mach) (res0 res1 : W32) : Mach :=
  if !m.lbist then m
  else
    let res1 := res1 &&& 0x7FF#32
    let m := ({ m with lbist := false }.setReg Reg.tstLbres0 res0).setReg Reg.tstLbres1 res1
    let m := (m.setReg Reg.tstLbPct 10000).setFld Reg.tstLbstat 0 4 (if res0 = 0 ∧ res1 = 0 then 0 else 3)
    let m := (List.range 34).foldl (fun m h => m.modS h fun s => { s with rr := 0 }) m
    (List.range 34).foldl (fun m h =>
      if !(if h < 32 then res0.getLsbD h else res1.getLsbD (h - 32)) then m
      else match (m.slice h).role with
        | .active =>
          let m := m.modS h fun s => { s with run := .stopped }
          let m := m.capture { src := h, code := 0x1D, cls := .f }
          { m with due := m.due ++ [.slice h true .fault] }
        | .spare => m.modS h fun s => { s with role := .unusable }
        | _ => m) m

end Sys2Proof.Machine
end

