-- ==== Sys2Proof/Machine/Read.lean ====
section
/-! DEFINITION. What a register reads: the stored fields and the RS fields computed from the state (R4, R6, R7, R21, R310, R312,
R313, R322, R396, R411, R416, R418, R422 to R428, and the register tables of `spec/`). -/

namespace Sys2Proof.Machine

/-- One bit at a place. -/
def bitAt (i : Nat) (b : Bool) : Nat := if b then 2 ^ i else 0

/-- A word from its number. -/
def w32 (n : Nat) : W32 := BitVec.ofNat 32 n

-- ===== page header (Table 16-2) =====

/-- The mnemonic bytes of a page (Table 16-1). -/
def pageName (p : Nat) : Nat :=
  match p with
  | 0 => 0x474C42 | 1 => 0x505752 | 2 => 0x525354 | 3 => 0x534543 | 4 => 0x464C54 | 5 => 0x524543 | 6 => 0x414F4E
  | 7 => 0x524D50 | 8 => 0x514F42 | 9 => 0x544D50 | 10 => 0x435450 | 11 => 0x525650 | 12 => 0x544C50 | 13 => 0x444247
  | 14 => 0x545354
  | _ => if p < 0x50 then 0x445000 else if p < 0x58 then 0x4D5000 else if p < 0x60 then 0x495000
    else if p < 0xC0 then 0x485300 else 0x485343

/-- PG_CAP.unit. -/
def pageUnit (p : Nat) : Nat :=
  if p < 0x40 then 0 else if p < 0x50 then p - 0x40 else if p < 0x58 then p - 0x50 else if p < 0x80 then p - 0x58
  else if p < 0xC0 then p - 0x80 else p - 0xC0

/-- The main domain of a page's unit, none where the page has no switched unit. -/
def pageDom (p : Nat) : Option Nat :=
  if 10 ≤ p ∧ p < 13 then some (204 + (p - 10)) else if p = 13 then some 246
  else if 0x40 ≤ p ∧ p < 0x5C then some (portDom (p - 0x40))
  else if 0x80 ≤ p ∧ p < 0xA2 then some (sliceDom (p - 0x80) 0)
  else if 0xC0 ≤ p then some (sliceDom (p - 0xC0) 0) else none

/-- Is a page's unit fenced? -/
def Mach.pageFenced (m : Mach) (p : Nat) : Bool :=
  if 0x40 ≤ p ∧ p < 0x5C then decide ((m.port (p - 0x40)).st = .fenced)
  else if 0x80 ≤ p ∧ p < 0xA2 then decide ((m.slice (p - 0x80)).role = .fenced)
  else if 0xC0 ≤ p then decide ((m.slice (p - 0xC0)).role = .fenced) else false

/-- PG_STAT. A controller is in reset while its run field reads 0 or 3. -/
def Mach.pageStat (m : Mach) (p : Nat) : Nat :=
  let rst := decide (10 ≤ p ∧ p < 13) && !m.ctrlRuns (p - 10)
  bitAt 5 (m.bit (Reg.pgLock p) 0) + bitAt 4 rst + bitAt 3 (m.pageFenced p) +
    (match pageDom p with | some d => (m.dom d).code | none => 2)

/-- A header register. -/
def Mach.readHdr (m : Mach) (p off : Nat) : W32 :=
  match off / 4 with
  | 0 => w32 (p * 2 ^ 24 + pageName p)
  | 1 => 0x4230
  | 2 => w32 (2 ^ 31 + bitAt 30 (p = 3 ∧ m.lcState ≠ 0) + bitAt 29 (p = 0) + pageUnit p)
  | 3 => w32 (m.pageStat p)
  | _ => m.reg (p * 0x1000 + off)

-- ===== fault collector (Table 12-14) =====

/-- The fields of a capture record (Table 12-5). -/
def capCls (r : BitVec 256) : Nat := (r.extractLsb' 28 2).toNat
def capSrc (r : BitVec 256) : Nat := (r.extractLsb' 22 6).toNat
def capSub (r : BitVec 256) : Nat := (r.extractLsb' 16 6).toNat
def capAuth (r : BitVec 256) : Nat := (r.extractLsb' 126 2).toNat

/-- FLT_FENCED: the fenced slices and ports. -/
def Mach.fltFenced (m : Mach) : Nat :=
  (List.range 62).foldl (fun a n => a + bitAt n
    (if n < 34 then decide ((m.slice n).role = .fenced) else decide ((m.port (n - 34)).st = .fenced))) 0

/-- FLT_LOST. -/
def Mach.fltLost (m : Mach) : Nat := (List.range 64).foldl (fun a n => a + bitAt n (m.lost.get 0 n ≠ 0)) 0

/-- FLT_STATUS (R312). An error pin is asserted only in the event's own cycle. -/
def Mach.fltStatus (m : Mach) : Nat :=
  (List.range 64).foldl (fun a n => a ||| bitAt n (m.caps.any fun r => capSrc r = n)) (m.fltFenced ||| m.fltLost)

/-- FLT_SUB63 (R313). -/
def Mach.fltSub63 (m : Mach) : Nat :=
  (List.range 13).foldl (fun a k => a + bitAt k (m.caps.any fun r => capSrc r = 63 ∧ capSub r = k)) 0

/-- Is a class among the unreleased records or the lost bits (R322)? -/
def Mach.fltHas (m : Mach) (c : Nat) : Bool := (m.caps.any fun r => capCls r = c) || m.lost.any fun e => e.2.getLsbD c

/-- FLT_PEND (R322). -/
def Mach.fltPend (m : Mach) : Nat :=
  (m.caps.length - 1) * 256 + bitAt 2 (m.fltHas 3 || m.safe.isSome) + bitAt 1 (m.fltHas 1 || m.fltHas 2) + bitAt 0 (m.fltHas 0)

/-- FLT_CAPj: word `j` of the held record; words 1 to 4 of an S record read zero to the NS world (R321). -/
def Mach.fltCap (m : Mach) (w : World) (j : Nat) : W32 :=
  match m.caps with
  | [] => 0
  | r :: _ => if w = .ns && capAuth r = 1 && decide (1 ≤ j ∧ j ≤ 4) then 0 else r.extractLsb' (32 * j) 32

-- ===== interrupt lines (R306, R409, R422) =====

/-- SEC_IRQ, with held_pend (R400). -/
def Mach.secIrqNow (m : Mach) : W32 := m.reg Reg.secIrq ||| w32 (bitAt 0 (m.heldq ≠ []))

/-- The lines TX_INT[7:0] (Table 16-4). -/
def Mach.txInt (m : Mach) : Nat :=
  let p := m.fltPend
  bitAt 0 (p.testBit 0 && m.bit Reg.fltCtl 0) + bitAt 1 (p.testBit 1 && m.bit Reg.fltCtl 1) +
  bitAt 2 (p.testBit 2 && m.bit Reg.fltCtl 2) + bitAt 3 (m.bit Reg.recStat 6 && m.bit Reg.recCtl 0 && !m.recOff) +
  bitAt 4 (m.bit Reg.qobNstat 0 && m.bit Reg.qobNstat 1) + bitAt 5 (m.bit Reg.tmpStat 30 && m.bit Reg.tmpCtl 0) +
  bitAt 6 ((m.reg Reg.pwrEvt &&& m.reg Reg.pwrEvtie) ≠ 0) + bitAt 7 ((m.secIrqNow &&& m.reg Reg.secCtl) ≠ 0)

/-- Usable spares (GLB_STAT.spares). -/
def Mach.spares (m : Mach) : Nat := ((List.range 34).filter fun h => (m.slice h).role = .spare).length

-- ===== global page =====

/-- GLB_HASH2 (R445). -/
def Mach.hash2 (m : Mach) : W32 :=
  let off := (m.reg Reg.glbHash0).toNat + m.fld Reg.glbHash1 0 14 * 2 ^ 32
  if m.hvalid && decide (off < 2 ^ m.hlog2) then
    let ls := (lsOf (BitVec.ofNat 46 off)).toNat
    w32 (m.hsOf ls * 256 + ls)
  else 0x10000#32

/-- Is an early acknowledged write outstanding (Table 07-8)? -/
def Slice.early (s : Slice) : Bool := (s.dbuf.any fun e => e.2.wr.any (·.early)) || s.wc ≠ []

/-- The registers of the GLB page that hold RS fields. -/
def Mach.readGlb (m : Mach) (w : World) (off : Nat) : W32 :=
  let a := off
  if a = Reg.glbHash2 then m.hash2
  else if a = Reg.glbAtmctl then m.reg a ||| w32 (bitAt 2 (m.active.any fun h => (m.slice h).predClr))
  else if a = Reg.glbWcctl then
    m.reg a ||| w32 (bitAt 30 (m.active.any fun h => (m.slice h).early) + bitAt 29 (m.active.any fun h => (m.slice h).wc ≠ []))
  else if a = Reg.glbStat then
    w32 (m.lcState * 2 ^ 20 + m.spares * 2 ^ 16 + bitAt 2 m.halted + bitAt 1 m.safe.isSome + bitAt 0 (m.step = 8))
  else if a = Reg.glbIntstat then w32 (bitAt 8 m.fatal + (if w = .ns then m.txInt % 128 else m.txInt))
  else if Reg.glbErrsum ≤ a && a < Reg.glbErrsum + 32 then
    let k := (a - Reg.glbErrsum) / 4
    w32 ((List.range 32).foldl (fun n j =>
      n + bitAt j ((pageRows m.integ (32 * k + j)).isSome && m.bit (Reg.pgErr (32 * k + j)) 31 && !(w = .ns && k = 0 && j = 3))) 0)
  else m.reg a

-- ===== power, reset, always-on, self-test pages =====

/-- Pages 0x01, 0x02, 0x06, 0x0D and 0x0E. -/
def Mach.readPwr (m : Mach) (a : Nat) : W32 :=
  if a = Reg.pwrFreq then m.reg a ||| w32 (bitAt 31 m.freqTo.isSome + m.cur.toNat * 256)
  else if a = Reg.pwrDomstat then m.reg a ||| w32 (bitAt 4 m.domCmd.isSome)
  else if a = Reg.pwrDomst then
    let d := m.fld Reg.pwrDomidx 0 8
    if 246 < d then 0
    else w32 (bitAt 3 (m.dom d = .off ∨ m.dom d = .waking) + bitAt 2 (m.claimed d) + (m.dom d).code)
  else if Reg.pwrOnmap ≤ a && a < Reg.pwrOnmap + 32 then
    let k := (a - Reg.pwrOnmap) / 4
    w32 ((List.range 32).foldl (fun n j => n + bitAt j (32 * k + j ≤ 246 ∧ m.dom (32 * k + j) = .on)) 0)
  else if a = Reg.pwrBuPos then w32 (bitAt 31 m.halted + min m.step 7)
  else if a = Reg.rstStat then
    m.reg a ||| w32 (bitAt 31 m.drain.isSome + bitAt 30 (m.slices.any fun e => e.2.zeroise.isSome))
  else if a = Reg.aonUsec then w32 (Config.subSecond m.free).val
  else if a = Reg.aonVstat then m.vmon.setWidth 32
  else if a = Reg.aonTstat then m.tmon.setWidth 32
  else if a = 0x0D020 then w32 (bitAt 2 m.dbgPerm + (m.dom 246).code)
  else if a = Reg.tstMbstat then m.reg a ||| w32 (bitAt 31 m.mbist.isSome)
  else if a = Reg.tstLbstat then m.reg a ||| w32 (bitAt 31 m.lbist)
  else m.reg a

-- ===== security page (Table 15-9) =====

/-- Page 0x03 to a world that may read it. -/
def Mach.readSec (m : Mach) (a : Nat) : W32 :=
  if a = Reg.secIrq then m.secIrqNow
  else if a = Reg.secHeldstat then w32 m.heldq.length
  else if a = Reg.secHeldadr then match m.heldq with | x :: _ => w32 (2 ^ 31 + x.1.toNat) | [] => 0
  else if a = Reg.secHeldval then match m.heldq with | x :: _ => x.2 | [] => 0
  else if a = Reg.secLcstat then m.reg a ||| w32 (bitAt 17 m.dbgOpen + bitAt 8 m.lc.isSome)
  else m.reg a

/-- Page 0x04. -/
def Mach.readFlt (m : Mach) (w : World) (a : Nat) : W32 :=
  if a = Reg.fltStatusLo then w32 m.fltStatus
  else if a = Reg.fltStatusHi then w32 (m.fltStatus / 2 ^ 32)
  else if a = Reg.fltLostLo then w32 m.fltLost
  else if a = Reg.fltLostHi then w32 (m.fltLost / 2 ^ 32)
  else if a = Reg.fltFencedLo then w32 m.fltFenced
  else if a = Reg.fltFencedHi then w32 (m.fltFenced / 2 ^ 32)
  else if a = Reg.fltSub63 then w32 m.fltSub63
  else if a = Reg.fltPend then w32 m.fltPend
  else if Reg.fltCap ≤ a && a < Reg.fltCap + 32 then m.fltCap w ((a - Reg.fltCap) / 4)
  else if Reg.fltCnt ≤ a && a < Reg.fltCnt + 256 then
    let n := m.win.get 0 ((a - Reg.fltCnt) / 4)
    m.reg a ||| w32 (bitAt 8 (0 < n) + min n 255)
  else m.reg a

-- ===== recorder page (Table 13-6) =====

/-- The register copy of a world (R361, R416). -/
def worldReg (w : World) (a : Nat) : Nat := if w = .s then a + 0x100000 else a

/-- Byte `i` of the record window (R357, R359). -/
def State.winByte (s : State) (w : World) (i : Nat) : BitVec 8 :=
  if s.m.bit Reg.recCtl 1 then byteAt s.store ((s.m.reg Reg.recRawaddr).toNat + i)
  else s.curByte w ((s.m.reg (worldReg w Reg.recWsel)).toNat * 64 + i)

/-- The set and index that REC_SSADR addresses. -/
def Mach.ssAt (m : Mach) : Nat := m.fld Reg.recSsidx 8 3 * 64 + m.fld Reg.recSsidx 0 6

/-- Page 0x05. -/
def State.readRec (s : State) (w : World) (a : Nat) : W32 :=
  let m := s.m
  let r := m.rcr
  if a = Reg.recStat then
    m.reg a ||| w32 (min (r.fill / 256) 1024 * 2 ^ 13 + (r.cur w).cres.toNat * 2 ^ 10 + bitAt 9 (r.curLost w) +
      bitAt 8 (s.curUerr w) + bitAt 5 r.paused + bitAt 4 r.flush + bitAt 3 r.frozen + bitAt 0 r.ready)
  else if a = Reg.recCur then match (r.cur w).at_ with | some x => x.seq | none => 0
  else if a = Reg.recSeek || a = Reg.recWsel then m.reg (worldReg w a)
  else if Reg.recWin ≤ a && a < Reg.recWin + 64 then
    w32 ((List.range 4).foldl (fun n k => n + (s.winByte w (a - Reg.recWin + k)).toNat * 2 ^ (8 * k)) 0)
  else if a = Reg.recSsadr then (r.lists.get 0 m.ssAt).setWidth 32
  else m.reg a

-- ===== region map, queue, Tamper and Crema pages =====

/-- Has an access that hit an unlocked way before the disable not completed its use (R257)? A read has its data at its lookup; a
far ATM remains until it has written its line into the copy. -/
def Mach.crmHeld (m : Mach) : Bool :=
  m.active.any fun h => (m.slice h).busy.any fun e => e.2.st = .active && e.2.kind = .atm && e.2.far && e.2.crm.use

/-- No queue is resident and no QOP is active or waiting (R232). -/
def Mach.qDrained (m : Mach) : Bool :=
  m.active.all fun h => (m.slice h).slot.isEmpty && !((m.slice h).busy.any fun e => match e.2.kind with | .qop _ => true | _ => false)

/-- TMP_STAT.owner. -/
def TmpOwner.code : TmpOwner → Nat
  | .s => 1 | .ns => 2 | .device => 3

/-- Pages 0x07, 0x08 and 0x09. -/
def Mach.readQ (m : Mach) (a : Nat) : W32 :=
  if a = Reg.rmpStat then
    w32 ((List.range 5).foldl (fun n g => n + bitAt (4 + g) ((m.group g).walks.any fun e => e.2.isSome)) (bitAt 0 m.invBusy))
  else if a = Reg.qobStat then
    m.reg a ||| w32 (bitAt 31 m.qcmd.isSome + bitAt 30 m.qho.isSome + bitAt 29 m.qDrained)
  else if a = Reg.tmpStat then
    m.reg a ||| w32 (match m.tmp with | some o => 2 ^ 31 + o.owner.code * 2 ^ 28 | none => 0)
  else if a = Reg.crmStat then m.reg a ||| w32 (bitAt 1 (m.bit Reg.crmCtl 0 || !m.crmHeld))
  else if a = Reg.crmLkcfg then m.reg a ||| w32 (bitAt 31 m.wiping)
  else if a = Reg.crmLkstat then m.reg a ||| w32 (bitAt 31 m.lk.isSome)
  else m.reg a

-- ===== controller pages (Tables 16-6, 16-8 and 12-15) =====

/-- RVP_RHSTAT.phase. SWITCH takes no time of its own. -/
def Mach.rhPhase (m : Mach) : Nat :=
  match m.rehome with
  | some r => if r.freeze then 2 else 1
  | none => if m.slices.any fun e => e.2.copy.isSome then 4 else 0

/-- Pages 0x0A to 0x0C. -/
def Mach.readCtrl (m : Mach) (a : Nat) : W32 :=
  let c := a / 0x1000 - 10
  let off := a % 0x1000
  if off = 0x020 then w32 ((m.ctrl.get {} c).run.toNat + bitAt 8 (m.bit Reg.aonWdt c))
  else if a = Reg.tlpSnapstat then
    -- RS fields of a controller in reset read zero (R21)
    if !m.ctrlRuns 2 then 0 else
    let f := fun (t : SMap (BitVec 12)) => (List.range 8).foldl (fun n k => n + bitAt k (t.get 0 k ≠ 0)) 0
    w32 (f m.rcr.run + 256 * f m.rcr.pend)
  else if a = Reg.tlpMappend then w32 m.rcr.mapPend.length
  else if a = Reg.rvpRhstat then m.reg a ||| w32 (if m.ctrlRuns 1 then m.rhPhase else 0)
  else if a = Reg.rvpSpare then
    let v := m.reg a &&& 0x3F3F#32
    let ok := fun (h : Nat) => decide (h < 34) && decide ((m.slice h).role = .spare)
    v ||| w32 (bitAt 14 (ok (v.toNat / 256)) + bitAt 6 (ok (v.toNat % 256)))
  else if a = Reg.rvpFagent then m.fagent.setWidth 32
  else m.reg a

-- ===== slice control pages =====

/-- The entries of a tracker part that satisfy `p`. -/
def Slice.countTe (s : Slice) (p : TE → Bool) : Nat := (s.busy.filter fun e => p e.2).length

/-- Does an engine of the slice run (HS_STAT.eng)? -/
def Mach.engine (m : Mach) (h : Nat) : Bool :=
  let s := m.slice h
  s.evac.isSome || s.swp.isSome || decide (0 < s.countTe fun e => e.kind = .rebuild) || (s.osw.any fun o => !o.over) || s.predClr ||
  (m.tmp.any fun o => (o.op = 1 || o.op = 2) && decide (s.tmpPos < 1024)) || s.zeroise.isSome || (m.mbist.any fun b => b.hs = h)

/-- HS_STAT (R428, Table 17-2); `live` says that the slice's RS fields are shown (R21). -/
def Mach.hsStat (m : Mach) (h : Nat) (live : Bool) : Nat :=
  let s := m.slice h
  let role := match s.role with | .active => 0 | .spare => 1 | .unusable => 2 | .fenced => 3
  (if live then bitAt 18 (m.engine h) + bitAt 17 (m.portDown m.spillPort) + bitAt 16 s.gated else 0) +
    role * 2 ^ 12 + grpOf h * 2 ^ 8 + (if role = 0 then s.ls else 0)

/-- The code of a bank state (Table 04-7). -/
def BankSt.code : BankSt → Nat
  | .off => 0 | .waking => 1 | .on => 2 | .evac => 3

/-- A page-in or page-out is in progress (Table 08-10): an operation has reached page_in and its reads have not returned (R223), or a
slot is a victim or is to be paged out, or PAGEOUT waits for a ring's region. -/
def Slice.paging (s : Slice) : Bool :=
  decide (0 < s.countTe fun e => match e.kind with
    | .qop _ => decide (e.ph = .qslot) || decide (e.ph = .qpage)
    | .qcmd 5 => decide (e.ph = .qdesc)
    | _ => false) ||
  (s.slot.any fun e => e.2.any fun v => v.out || v.vict.isSome)

/-- The counts of a slice that its control page shows as RS fields, by offset (Tables 04-7, 05-4, 06-6, 07-9, 08-10, 09-6, 10-7). -/
def Mach.hsCount (m : Mach) (h off : Nat) : Nat :=
  let s := m.slice h
  if off = Reg.hsSfbstat then
    bitAt 9 s.evac.isSome + (List.range 4).foldl (fun n k => n + (s.bank.getD k .off).code * 4 ^ k) 0
  else if off = Reg.hsSfstat then
    (s.ss.filter fun e => ssSimp (e.2.setWidth 48)).length * 2 ^ 16 + s.rbq.length * 2 ^ 8 +
      bitAt 1 (0 < s.countTe fun e => e.kind = .rebuild) + bitAt 0 s.swp.isSome
  else if Reg.hsSfbcnt ≤ off && off < Reg.hsSfbcnt + 16 then s.bankCount ((off - Reg.hsSfbcnt) / 4)
  else if off = Reg.hsSpcnt then (s.ss.map fun e => ssSpc (e.2.setWidth 48)).sum
  else if off = Reg.hsHystat0 then s.ovf.length * 2 ^ 16 + s.busy.length
  else if off = Reg.hsHystat1 then s.wl.length
  else if off = Reg.hsHyto then s.countTe fun e => e.st = .active && decide (e.tocnt ≠ 0) && decide (e.pend ≠ 0)
  else if off = Reg.hsAtmstat then
    let t := m.fld Reg.glbAtmctl 8 3
    if t = 0 then 4096 else (s.pred.filter fun e => decide (t ≤ e.2.toNat)).length
  else if off = Reg.hsMonstat then (s.mon.filter fun e => e.2.getLsbD 0).length
  else if off = Reg.hsWcstat then
    (s.wc.filter fun e => e.2.any fun v => v.wr.isSome).length * 2 ^ 16 + (s.wc.filter fun e => e.2.any fun v => v.wr.isNone).length
  else if off = Reg.hsQobstat then (s.slot.filter fun e => e.2.any (·.sec)).length * 2 ^ 16 + s.slot.length
  else if off = Reg.hsQobdb then bitAt 8 s.paging + s.dbq.length
  else if off = Reg.hsCrmstat then
    (s.ctag.filter fun e => tgLk (e.2.setWidth 48)).length * 2 ^ 16 + s.strm.length * 2 ^ 8 + s.pfq.length
  else if off = Reg.hsCrmval then (s.ctag.filter fun e => tgV (e.2.setWidth 48)).length
  else if off = Reg.hsCrstat0 then m.sharedFree h * 2 ^ 16 + (504 - (s.busy.filter fun e => decide (e.1 < 504)).length)
  else if off = Reg.hsCrstat1 then
    s.rbFree * 2 ^ 24 + (16 - s.dbUsed 176 16) * 2 ^ 16 + (48 - s.dbUsed 128 48) * 2 ^ 8 + (128 - s.dbUsed 0 128)
  else 0

/-- Does a slice show its RS fields: its logic is powered and it is not fenced (R21)? -/
def Mach.hsLive (m : Mach) (h : Nat) : Bool :=
  decide ((m.slice h).role ≠ .fenced) && (decide (m.dom (sliceDom h 0) = .on) || decide (m.dom (sliceDom h 0) = .draining))

/-- A slice control page. -/
def Mach.readHs (m : Mach) (w : World) (h off : Nat) : W32 :=
  let a := hsA h off
  let live := m.hsLive h
  if off = Reg.hsStat then w32 (m.hsStat h live)
  else if off = Reg.hsMspStat then m.reg a ||| w32 (bitAt 31 (m.slice h).msp.isSome)
  else if Reg.hsMspData ≤ off && off ≤ Reg.hsMspPar then if w = .ns then 0 else m.reg a
  else if live then m.reg a ||| w32 (m.hsCount h off) else m.reg a

-- ===== port pages =====

/-- The code of a link state (Table 11-7). -/
def LinkSt.code : LinkSt → Nat
  | .down => 0 | .init => 1 | .up => 2 | .replay => 3 | .retrain => 4 | .fenced => 5

/-- Does a port show its RS fields: its adapter is powered and it is not fenced (R21)? The state of its link is always shown. -/
def Mach.portLive (m : Mach) (p : Nat) : Bool :=
  decide ((m.port p).st ≠ .fenced) && (decide (m.dom (portDom p) = .on) || decide (m.dom (portDom p) = .draining))

/-- A port page. -/
def Mach.readPort (m : Mach) (p off : Nat) : W32 :=
  let a := portA p off
  let v := m.port p
  let live := m.portLive p
  let pr := fun c => min (v.peer.getD c 0) 255
  if off = Reg.pLstat then
    m.reg a ||| w32 (v.st.code + (if live then v.rpl.length * 2 ^ 16 + bitAt 8 (v.half && decide (p < 16)) +
      (if p < 16 && v.st ≠ .down then v.rate.toNat * 2 ^ 4 else 0) + bitAt 3 (m.quiet p) else 0))
  else if off = Reg.pRtwin then if live then m.reg a else 0
  else if !live then m.reg a
  else if off = Reg.pCrpeer0 then if p < 16 || 24 ≤ p then w32 (pr 4 * 2 ^ 16 + pr 3 * 2 ^ 8 + pr 2) else 0
  else if off = Reg.pCrpeer1 then if 16 ≤ p then w32 (pr 7 * 2 ^ 8 + pr 6) else 0
  else if off = Reg.pWostat then w32 (min v.bars.length 1023 * 2 ^ 16 + v.woUsed)
  else m.reg a

-- ===== one read =====

/-- The current value of the register at primary address `a`, as a reader of world `w` sees it. -/
def State.view (s : State) (w : World) (a : Nat) : W32 :=
  let m := s.m
  let p := a / 0x1000
  let off := a % 0x1000
  if (regRow m.integ a).isNone then 0
  else if p = 3 && w = .ns && m.lcState ≠ 0 then 0
  else if off < 0x020 then m.readHdr p off
  else match p with
    | 0 => m.readGlb w off
    | 1 | 2 | 6 | 13 | 14 => m.readPwr a
    | 3 => m.readSec a
    | 4 => m.readFlt w a
    | 5 => s.readRec w a
    | 7 | 8 | 9 => m.readQ a
    | 10 | 11 | 12 => m.readCtrl a
    | _ => if p < 0x80 then m.readPort (p - 0x40) off else if p < 0xC0 then m.readHs w (p - 0x80) off else m.reg a

/-- The primary address of an address in any window; the low two bits select no register (R411). -/
def primary (a : Nat) : Nat := a / 0x1000 * 0x1000 + a % 0x400 / 4 * 4

/-- Is a register a _LO or a _HI register of a pair (R4): 1, 2, or 0? -/
def Mach.half (m : Mach) (a : Nat) : Nat := match regRow m.integ a with | some r => r.half | none => 0

/-- What a read at address `a` returns, and the latch it leaves (R4, R411, R416). The sub-second count is a new free value at
each read. -/
def State.readReg (s : State) (w : World) (a : Nat) : State × W32 :=
  let a := primary a
  let k := worldReg w a
  match s.m.half a with
  | 1 => ({ s with m := { s.m with latch := s.m.latch.set 0 (k + 4) (s.view w (a + 4)) } }, s.view w a)
  | 2 => (s, if a / 0x1000 = 3 && w = .ns && s.m.lcState ≠ 0 then 0 else s.m.latch.get 0 k)
  | _ => if a = Reg.aonUsec then ({ s with m := { s.m with free := s.m.free + 1 } }, s.view w a) else (s, s.view w a)

/-- A read request on the management port (R20, R304). -/
def State.mgmtRead (s : State) (w : World) (a : Nat) : State :=
  if !s.m.up then { s with m := { s.m with resp := (.unavail, 0) } }
  else
    let (s, v) := s.readReg w a
    { s with m := { s.m with resp := (.ok, v) } }

end Sys2Proof.Machine
end

