-- ==== Sys2Proof/Machine/Control.lean ====
section
/-! DEFINITION. The control commands of the management plane: writes that start something. Each checks its own world, busy, state and
value rules in the order of Table 16-3, records a refusal, and acts (`spec/` chapters 02, 06 to 09, 11 to 17). The value `v`
is the register's new value, its WO bits included; `x` is the address as written and `raw` the word as written, for the
records. -/

namespace Sys2Proof.Machine

/-- Refuse an NS write to a register of the S world. -/
def Mach.sOnly (m : Mach) (w : World) (x : Nat) (f : Mach → Mach) : Mach := if w = .ns then m.refuse w x .world else f m

-- ===== GLB =====

/-- GLB_ATMCTL, with pred_clr (R182). -/
def Mach.atmctl (m : Mach) (w : World) (x : Nat) (v : W32) : Mach :=
  let busy := m.active.any fun h => (m.slice h).predClr
  if v.getLsbD 1 && busy then m.refuse w x .busy
  else
    let m := m.setReg Reg.glbAtmctl (v &&& 0x10701#32)
    if v.getLsbD 1 then m.active.foldl (fun m h => m.modS h fun s => { s with predClr := true, hist := [] }) m else m

/-- The predictor clear ends: every counter reads 0 (R182). -/
def Mach.predDone (m : Mach) : Mach :=
  (List.range 34).foldl (fun m h =>
    if (m.slice h).predClr then m.modS h fun s => { s with predClr := false, pred := [] } else m) m

/-- GLB_WCCTL: clearing wc_en or setting eack_off closes every open buffer (R197, R199). -/
def Mach.wcctl (m : Mach) (v : W32) : Mach :=
  let old := m.reg Reg.glbWcctl
  let m := m.setReg Reg.glbWcctl (v &&& 0x1FFF0003#32)
  -- a write whose turn has begun is not combined after wc_en has been cleared, though it be set again (R199)
  let m := if v.getLsbD 0 then m
    else m.active.foldl (fun m h => m.modS h fun s => { s with te := s.te.map fun e => (e.1, { e.2 with wcEn := false }) }) m
  if (old.getLsbD 0 && !v.getLsbD 0) || (!old.getLsbD 1 && v.getLsbD 1) then m.active.foldl (fun m h => m.wcCloseAll h) m else m

/-- PG_LOCK.lock (R420). -/
def Mach.lockPage (m : Mach) (w : World) (x : Nat) (on : Bool) : Mach :=
  if on then m.setReg (Reg.pgLock 0) 1
  else if m.bit (Reg.pgLock 0) 0 then m.refuse w x .locked else m

-- ===== region map =====

/-- RMP_CTL.rc_en: clearing it empties the five region caches (R40). -/
def Mach.rcEnable (m : Mach) (w : World) (x : Nat) (on : Bool) : Mach :=
  m.sOnly w x fun m =>
    let m := m.setFld Reg.rmpCtl 1 1 (if on then 1 else 0)
    if on then m else (List.range 5).foldl (fun m g => m.modG g fun v => { v with rc := [] }) m

/-- Is a range of 2^s bytes at a PA aligned to its size and wholly inside homed space? -/
def Mach.rangeOk (m : Mach) (base s : Nat) : Bool := aligned base s && (m.homed base).isSome && (m.homed (base + 2 ^ s - 1)).isSome

/-- RMP_INV (R42, R43): busy stays while a marked walk is in flight. -/
def Mach.invalidate (m : Mach) (w : World) (x : Nat) (all : Bool) (s : Nat) : Mach :=
  m.sOnly w x fun m =>
    let b := (m.pair Reg.rmpInvBaseLo Reg.rmpInvBaseHi).toNat
    if m.invBusy then m.refuse w x .busy
    else if !all && !(decide (12 ≤ s ∧ s ≤ 46) && m.rangeOk b s) then m.refuse w x .value
    else
      let m := m.rcInvalidate (m.offPa b).toNat s all false
      { m with invBusy := m.markedWalk }

-- ===== queue objects =====

/-- QOB_CTL.en: clearing it pages out every resident queue (R232). -/
def Mach.qobEnable (m : Mach) (on : Bool) : Mach :=
  let m := m.setFld Reg.qobCtl 0 1 (if on then 1 else 0)
  if on then m else m.active.foldl (fun m h => Mach.fin (m.pageOutAll h)) m

/-- The descriptor that CREATE would write (Table 08-5). -/
def Mach.createLine (m : Mach) (q : BitVec 20) : Line :=
  let cfg := m.reg Reg.qobArgcfg
  lineOf [descW0 1 (m.qidSec q) (cfg.getLsbD 3) false (cfg.extractLsb' 8 5) 0 q, m.pair Reg.qobRingLo Reg.qobRingHi, 0, 0, 0, 0,
    m.pair Reg.qobDbaLo Reg.qobDbaHi, m.pair Reg.qobDbvLo Reg.qobDbvHi]

/-- The home slice takes the entry of the queue command that waits for one (R229). -/
def Mach.qcmdTry (m : Mach) : Mach :=
  match m.qcmd with
  | none => m
  | some c =>
    let h := m.qidHs c.qid
    if c.going || !m.serving h then m
    else match m.freeOwn h with
      | none => m
      | some t =>
        Mach.fin ({ m with qcmd := some { c with going := true } }.accepted h t
          { kind := .qcmd c.op, key := c.qid.setWidth 40, sec := c.sec })

/-- QOB_CMD (R228): QOB_STAT.result 1 is REFUSED, 2 WORLD. -/
def Mach.queueCmd (m : Mach) (w : World) (x : Nat) (op : BitVec 4) : Mach :=
  let q : BitVec 20 := BitVec.ofNat 20 (m.fld Reg.qobQid 0 20)
  let sec := m.qidSec q
  let res := fun (m : Mach) (n : Nat) => m.setFld Reg.qobStat 0 4 n
  if sec && decide (w = .ns) then (if m.qcmd.isSome then m else res m 2).refuse w x .world
  else if m.qcmd.isSome then m.refuse w x .busy
  else if m.qidMoving q then (res m 1).refuse w x .state
  else if op = 0 || 6 ≤ op.toNat then m.refuse w x .value
  else { m with qcmd := some { op, qid := q, sec, arg := m.createLine q } }.qcmdTry

/-- QOB_HO (R237): `n` is the new boundary in units of 1,024 QIDs. -/
def Mach.handOver (m : Mach) (w : World) (x n : Nat) : Mach :=
  m.sOnly w x fun m =>
    let cur := m.fld Reg.qobWcfg 16 11
    if m.qho.isSome then m.refuse w x .busy
    else if 1024 < n then m.refuse w x .value
    else if n = cur then (m.setReg Reg.qobHoPct 10000).setBits Reg.secIrq 2
    else
      let first := min n cur * 1024
      { (m.setReg Reg.qobHoPct 0).setReg Reg.qobHoPos (BitVec.ofNat 32 first) with
        qho := some { cur := first, first, last := max n cur * 1024, newFirst := n } }

/-- HAND_OVER_QID: the current QID's home slice takes an entry for it (R237). -/
def Mach.qhoStep (m : Mach) : Mach :=
  match m.qho with
  | none => m
  | some o =>
    let q : BitVec 20 := BitVec.ofNat 20 o.cur
    let h := m.qidHs q
    if o.going || !m.serving h then m
    else match m.freeOwn h with
      | none => m
      | some t =>
        let m := { m with qho := some { o with going := true } }.setReg Reg.qobHoPos (BitVec.ofNat 32 o.cur)
        Mach.fin (m.accepted h t { kind := .qho, key := q.setWidth 40, sec := m.qidSec q })

/-- The read-modify-writes of nlost that wait for an entry (R227). -/
def Mach.nlostTry (m : Mach) : Mach :=
  m.active.foldl (fun m h =>
    match (m.slice h).nlq with
    | [] => m
    | q :: r =>
      if !m.serving h then m
      else match m.freeOwn h with
        | none => m
        | some t => Mach.fin ((m.modS h fun s => { s with nlq := r }).accepted h t { kind := .qnlost, key := q.setWidth 40, sec := m.qidSec q })) m

-- ===== Tamper =====

/-- TMP_STAT.result of a refused command (R261). -/
def Mach.tmpRefuse (m : Mach) (w : World) (x n : Nat) (c : Cause) : Mach := (m.setFld Reg.tmpStat 0 4 n).refuse w x c

/-- Is a queue whose ring or descriptor lies in a range resident (R261)? -/
def Mach.queueIn (m : Mach) (b s : Nat) : Bool :=
  m.active.any fun h => (m.slice h).slot.any fun e => e.2.any fun v =>
    overlap b s v.ring.toNat (v.cap.toNat + 3) || inRange b s (m.descPa v.qid)

/-- Is the range of a Tamper command one that R261 refuses? `b` is the PA of its base. -/
def Mach.tmpBad (m : Mach) (op : BitVec 4) (all il : Bool) (b s : Nat) : Bool :=
  let sp := (m.pair Reg.glbSpbaseLo Reg.glbSpbaseHi).toNat
  let z := m.fld Reg.glbSpsize 0 6
  (il && op ≠ 1) || (!all && !(decide (12 ≤ s ∧ s ≤ 46) && m.rangeOk b s)) ||
  (decide (op = 4) && (all || overlap b s sp z || overlap b s (m.descPa 0) 26)) ||
  (decide (op = 5) && !all && !decide (sp ≤ b ∧ b + 2 ^ s ≤ sp + 2 ^ z))

/-- TMP_CMD (R260 to R262, R265). -/
def Mach.tamper (m : Mach) (w : World) (x : Nat) (op : BitVec 4) (all il : Bool) (s : Nat) : Mach :=
  let b := (m.pair Reg.tmpBaseLo Reg.tmpBaseHi).toNat
  if op = 15 then
    match m.tmp with
    | some o => if o.owner = .device then m.refuse w x .state else { m with tmp := some { o with abort := true } }.tmpCheck
    | none => m.refuse w x .state
  else if op = 0 || 6 ≤ op.toNat then m.refuse w x .value
  else if decide (w = .ns) && (op = 3 || op = 5) then m.tmpRefuse w x (if m.tmp.isSome then 1 else 2) .world
  else if m.tmp.isSome then m.tmpRefuse w x 1 .busy
  else if il && decide (op = 1) && (all || decide (12 ≤ s ∧ s ≤ 46)) && m.queueIn (if all then m.hbase else b) (if all then m.hlog2 else s) then
    m.tmpRefuse w x 4 .state
  else if m.tmpBad op all il b s then m.tmpRefuse w x 3 .value
  else m.tmpStart { op, base := m.offPa b, log2 := s, il, all, owner := if w = .s then .s else .ns }

/-- TMP_CTL: ie, and ack, which clears TMP_STAT.done (R265). -/
def Mach.tmpCtl (m : Mach) (v : W32) : Mach :=
  let m := m.setReg Reg.tmpCtl (v &&& 1)
  if v.getLsbD 1 then m.clrBits Reg.tmpStat 0x40000000 else m

/-- A tracker entry of Tribex's own for a line, at the line's home slice: none while the slice does not serve or has no free
entry (R229). -/
def Mach.ownLine (m : Mach) (off : Off) : Option (Nat × Nat) :=
  let h := m.hsOf (lsOf off).toNat
  if m.serving h then (m.freeOwn h).map fun t => (h, t) else none

/-- ZERO_LINE: the next line of a ZERO goes to its home slice, or for the fill of the spill directory straight to its port (R263). -/
def Mach.zeroNext (m : Mach) : Mach :=
  match m.tmp with
  | none => m
  | some o =>
    if o.op ≠ 4 || o.abort || 2 ^ o.log2 ≤ o.sent * 64 then m
    else
      let off : Off := o.base + BitVec.ofNat 46 (o.sent * 64)
      if o.why = .spill then m.fillTo (o.sent + 1)
      else match m.ownLine off with
      | none => m
      | some (h, t) =>
        let m := { m with tmp := some { o with sent := o.sent + 1, busy := o.busy + 1 } }
        let m := m.setPair Reg.tmpPosLo Reg.tmpPosHi (BitVec.ofNat 64 (m.hbase + off.toNat))
        let m := m.setReg Reg.tmpPct (BitVec.ofNat 32 (min 9999 ((o.sent + 1) * 64 * 10000 / 2 ^ o.log2)))
        Mach.fin (m.accepted h t { kind := .zero, key := keyOf off })

-- ===== Crema =====

/-- CRM_CTL (R256 to R259). A write of en = 1 while stale is 1 has effect only with force from the S world. -/
def Mach.crmCtl (m : Mach) (w : World) (x : Nat) (v : W32) : Mach :=
  let en := v.getLsbD 0
  let stale := m.bit Reg.crmStat 0
  if en && stale && decide (w = .ns) then m.refuse w x .world
  else if en && stale && !v.getLsbD 1 then m.refuse w x .state
  else
    let m := if en && stale then ((m.clrBits Reg.crmStat 1).setBits Reg.crmStat 4).recordV 8 true (payload 8 [1] 8) 1 else m
    let m := if en then { m with tmp := m.tmp.map fun (o : TmpOp) => { o with enOff := false } } else m
    let m := m.setFld Reg.crmCtl 0 1 (if en then 1 else 0)
    if v.getLsbD 2 then m.setBits Reg.crmCtl 4 else m.pfOff

/-- CRM_LKCFG.s_ways (R251): a change starts a wipe. -/
def Mach.lockWays (m : Mach) (w : World) (x n : Nat) : Mach :=
  m.sOnly w x fun m =>
    if n = m.fld Reg.crmLkcfg 0 3 then m
    else if m.wiping then m.refuse w x .busy
    else if 6 < n then m.refuse w x .value
    else m.wipeStart n

/-- CRM_LKCMD (R252): CRM_LKSTAT.result 1 is REFUSED, 3 BADRANGE. -/
def Mach.lockCmd (m : Mach) (w : World) (x op s : Nat) : Mach :=
  let b := (m.pair Reg.crmLkbaseLo Reg.crmLkbaseHi).toNat
  let no := fun (m : Mach) (n : Nat) (c : Cause) => (m.setFld Reg.crmLkstat 0 4 n).refuse w x c
  if op ≠ 1 && op ≠ 2 then m.refuse w x .value
  else if m.lk.isSome || m.wiping then no m 1 .busy
  else if op = 1 && !m.bit Reg.crmCtl 0 then no m 1 .state
  else if !(decide (12 ≤ s ∧ s ≤ 34) && m.rangeOk b s) then no m 3 .value
  else
    let m := (((m.setFld Reg.crmLkstat 0 4 0).setReg Reg.crmLkfail 0).setReg Reg.crmLkskip 0).setReg Reg.crmLkPct 0
    let m := m.setPair Reg.crmLkPosLo Reg.crmLkPosHi 0
    { m with lk := some { lock := decide (op = 1), base := m.offPa b, log2 := s, sec := decide (w = .s) } }

/-- LOCK_LINE and UNLOCK_LINE: the engine sends the next line to its home slice (R252). -/
def Mach.lkNext (m : Mach) (lock : Bool) : Mach :=
  match m.lk with
  | none => m
  | some k =>
    if (k.lock != lock) || decide (2 ^ k.log2 ≤ k.sent * 64) then m
    else
      let off : Off := k.base + BitVec.ofNat 46 (k.sent * 64)
      match m.ownLine off with
      | none => m
      | some (h, t) =>
        let m := { m with lk := some { k with sent := k.sent + 1, busy := k.busy + 1 } }
        let m := m.setPair Reg.crmLkPosLo Reg.crmLkPosHi (BitVec.ofNat 64 (m.hbase + off.toNat))
        let m := m.setReg Reg.crmLkPct (BitVec.ofNat 32 (min 9999 ((k.sent + 1) * 64 * 10000 / 2 ^ k.log2)))
        Mach.fin (m.accepted h t { kind := if lock then .lock else .unlock, key := keyOf off, sec := k.sec })

/-- HS_CRMCTL.way_dis: a way newly withdrawn loses its lines (R250). -/
def Mach.wayDis (m : Mach) (h : Nat) (v : BitVec 8) : Mach :=
  let old : BitVec 8 := (m.reg (hsA h Reg.hsCrmctl)).setWidth 8
  let new := v &&& ~~~ old
  let m := m.setReg (hsA h Reg.hsCrmctl) (v.setWidth 32)
  if new = 0 then m else m.dropWays h fun w => new.getLsbD w

-- ===== ports =====

/-- LCTL (R299, R296, R399): fence is S only, and quiescing or retraining a claimed adapter is held. -/
def Mach.lctl (m : Mach) (w : World) (x : Nat) (raw v : W32) (p : Nat) : Mach :=
  if !m.populated p then m
  else
    let q := m.bit (portA p Reg.pLctl) 0
    let cut := (v.getLsbD 0 && !q) || v.getLsbD 2
    if v.getLsbD 3 && decide (w = .ns) then m.refuse w x .world
    else if cut && decide (w = .ns) && m.claimed (portDom p) then (m.hold x raw).1
    else
      let m := if v.getLsbD 0 == q then m else m.quiesce p (v.getLsbD 0)
      let m := if v.getLsbD 2 then m.retrain p else m
      if v.getLsbD 3 then m.fencePort p 3 true else m

/-- A control register of a counter page: clr zeroes every counter of the page, freeze stops them (R435, R440). -/
def Mach.counterCtl (m : Mach) (ctl : Nat) (counters : List Nat) (v : W32) : Mach :=
  let m := m.setReg ctl (v &&& 1)
  if v.getLsbD 1 then counters.foldl (fun m a => m.setReg a 0) m else m

/-- HSC_CTL. -/
def Mach.hscCtl (m : Mach) (h : Nat) (v : W32) : Mach :=
  m.counterCtl (hscA h Reg.hscCtl) ((hscRows.filter fun r => r.off ≠ Reg.hscCtl).map fun r => hscA h r.off) v

/-- PCTL. -/
def Mach.pctl (m : Mach) (p : Nat) (v : W32) : Mach :=
  if m.populated p then m.counterCtl (portA p Reg.pPctl) (portCounters.map fun o => portA p o) v else m

-- ===== recovery =====

/-- RVP_RHCMD (R328, R339). -/
def Mach.rehomeWrite (m : Mach) (w : World) (x : Nat) (go : Bool) (h : Nat) : Mach :=
  m.sOnly w x fun m =>
    if m.rehome.isSome || (m.slices.any fun e => e.2.copy.isSome) then m.refuse w x .busy
    else if !go || 34 ≤ h then m.refuse w x .value
    else if (m.slice h).role ≠ .active || !m.ctrlRuns 1 then m.refuse w x .state
    else m.rehomeDue h false .cmd

-- ===== recorder =====

/-- REC_CMD (R345, R350, R357, R358, R361): op and the sets of SNAP. -/
def Mach.recCmd (m : Mach) (w : World) (x : Nat) (op : Nat) (sets : BitVec 8) : Mach :=
  let cur := fun (f : RecSt → RecSt) => { m with rcr := f m.rcr }
  match op with
  | 1 => m.startFlush
  | 2 => m.freezeRec w
  | 3 => m.unfreezeRec (some w)
  | 4 => cur (·.first w)
  | 5 => cur (·.last w)
  | 6 => cur (·.next w)
  | 7 => cur (·.prev w)
  | 8 => cur (·.seek w (m.reg (worldReg w Reg.recSeek)))
  | 9 => m.clrBits Reg.recStat 0x40
  | 10 => m.snapSets sets
  | _ => m.refuse w x .value

/-- REC_SSCFGk: a change of world hands the set over (R347). -/
def Mach.snapCfg (m : Mach) (k : Nat) (v : W32) : Mach :=
  let m := m.snapHandover k (v.getLsbD 30)
  m.setReg (Reg.recSscfg + 4 * k) (v &&& 0xC000007F#32)

-- ===== slices =====

/-- HS_EINJ (R430). -/
def Mach.einj (m : Mach) (w : World) (x h : Nat) (v : W32) : Mach :=
  let lc := m.lcState
  let tgt := (v.extractLsb' 0 4).toNat
  let byte := (v.extractLsb' 8 4).toNat
  let ok := match tgt with
    | 1 => decide (byte < 8)
    | 2 | 3 | 6 => decide (byte < 6)
    | 4 | 7 => true
    | _ => false
  m.sOnly w x fun m =>
    if !(lc = 0 || lc = 1 || lc = 3 || m.dbgOpen) then m.refuse w x .state
    else if v.getLsbD 31 && !ok then m.refuse w x .value
    else m.setReg (hsA h Reg.hsEinj) (v &&& 0x80000F0F#32)

/-- Is an array, chunk and index in Table 17-4? -/
def mspOk (a : BitVec 4) (c : BitVec 2) (i : Nat) : Bool :=
  match a.toNat with
  | 1 => decide (c = 0)
  | 2 | 3 => decide (c = 0) && decide (i < 16384)
  | 4 => decide (c ≠ 3) && decide (i < 16384)
  | 5 => decide (c = 0) && decide (i < 512)
  | 6 => decide (c = 0) && decide (i < 12288)
  | 7 => decide (c.toNat < 2) && decide (i < 1024)
  | 8 => decide (c = 0) && decide (i < 4096)
  | 9 => decide (c = 0) && decide (i ≤ 64)
  | _ => false

/-- The domain that holds an array entry (Table 14-1). -/
def mspDom (h : Nat) (a : BitVec 4) (i : Nat) : Nat :=
  match a.toNat with
  | 1 => sliceDom h (1 + i / 16384 / 4)
  | 3 | 4 => sliceDom h 5
  | _ => sliceDom h 0

/-- A side-port read of an array that has no power ends OFF with zero data (R431). -/
def Mach.mspEnd (m : Mach) (h : Nat) (result : Nat) (valid : Bool) (data : Nat) (par : Nat) : Mach :=
  let m := m.setReg (hsA h Reg.hsMspStat) (BitVec.ofNat 32 (result + bitAt 30 valid))
  let m := (List.range 8).foldl (fun m j => m.setReg (hsA h (Reg.hsMspData + 4 * j)) (BitVec.ofNat 32 (data >>> (32 * j)))) m
  (m.modS h fun s => { s with msp := none }).setReg (hsA h Reg.hsMspPar) (BitVec.ofNat 32 par)

/-- Does RVP hold the side-port of a slice (R431)? -/
def Mach.rvpHolds (m : Mach) (h : Nat) : Bool :=
  (m.rehome.any fun r => r.old = h || r.new = h) || (m.slices.any fun e => e.2.copy.any fun c => e.1 = h || c.old = h)

/-- Is a domain OFF or WAKING? -/
def Mach.unpowered (m : Mach) (d : Nat) : Bool := decide (m.dom d = .off) || decide (m.dom d = .waking)

/-- HS_MSP_CMD (R431). -/
def Mach.mspStart (m : Mach) (w : World) (x h : Nat) (a : BitVec 4) (c : BitVec 2) : Mach :=
  let i := m.fld (hsA h Reg.hsMspIdx) 0 18
  let res := fun (n : Nat) => m.setFld (hsA h Reg.hsMspStat) 0 4 n
  if w = .ns then (res 2).refuse w x .world
  else if (m.slice h).msp.isSome || m.rvpHolds h then (res 1).refuse w x .busy
  else if !mspOk a c i then (res 4).refuse w x .value
  else if m.unpowered (mspDom h a i) then m.mspEnd h 3 false 0 0
  else (m.ungate h).modS h fun s => { s with msp := some { array := a, chunk := c, idx := BitVec.ofNat 18 i } }

/-- The stored bits of one chunk, its valid indication, and whether the model lays the entry out (R433, Table 17-4): the data and
the check bits. Entries that the spec does not lay out read as free values with the parity they carry. -/
def Mach.mspRead (m : Mach) (h : Nat) (r : Msp) : Bool × Nat × Nat :=
  let s := m.slice h
  let i := r.idx.toNat
  let c := r.chunk.toNat
  let split := fun (n : Nat) (v : Nat) => (v % 2 ^ (8 * n), v / 2 ^ (8 * n))
  match r.array.toNat with
  | 1 => let (d, p) := split 8 (s.sf.get 0 i).toNat
         (ssValid (m.ss h (i % 16384)) (i / 16384), d, p)
  | 2 => let (d, p) := split 6 (s.ss.get 0 i).toNat
         (true, d, p)
  | 3 => let (d, p) := split 6 (s.ctag.get 0 i).toNat
         (tgV (m.ctag h (i % 1024) (i / 1024)), d, p)
  | 4 =>
    let win : Option (Line × BitVec 32) := if i / 1024 < 14 then none else match s.slot.get none (i % 1024) with
      | some v => if i / 1024 = 14 then some (v.twin, v.tcrc) else some (v.hwin, v.hcrc)
      | none => none
    let v := match win with | some (d, k) => k.toNat * 2 ^ 512 + d.toNat | none => (s.cdat.get 0 i).toNat
    (tgV (m.ctag h (i % 1024) (i / 1024)), v >>> (256 * c) % 2 ^ (if c = 2 then 32 else 256), 0)
  | 5 =>
    let e := s.ent i
    let d := (Config.trackerWord m.free).toNat
    (decide (e.st ≠ .free), d, if e.badId || e.badPr then (Config.trackerWord (m.free + 1)).toNat % 2 ^ 32 else parBits 32 d)
  | 6 => let (d, p) := split 6 (s.mon.get 0 i).toNat
         ((s.mon.get 0 i).getLsbD 0, d, p)
  | 7 =>
    let d := (Config.slotWord m.free).toNat >>> (256 * c) % 2 ^ 256
    let v := s.slot.get none i
    let bad := match v with | some x => (match x.bad with | some b => bitAt (b - 32 * c) (decide (b / 32 = c)) | none => 0) | none => 0
    (v.isSome, d, Nat.xor (parBits 32 d) bad)
  | 8 => (true, (s.pred.get 0 i).toNat, 0)
  | _ => let d := (Config.waitWord m.free).toNat
         (if i = 64 then s.ovf ≠ [] else decide (i < s.wl.length), d, parBits 16 d)

/-- MSP_READ_DONE: the read takes its slot and returns; a domain that went OFF meanwhile ends it OFF (R432, Table 17-9). -/
def Mach.mspDone (m : Mach) (h : Nat) : Mach :=
  match (m.slice h).msp with
  | none => m
  | some r =>
    if m.unpowered (mspDom h r.array r.idx.toNat) then m.mspEnd h 3 false 0 0
    else
      let (v, d, p) := m.mspRead h r
      { m with free := m.free + 2 }.mspEnd h 0 v d p

end Sys2Proof.Machine
end

