-- ==== Sys2Proof/Machine/Mgmt.lean ====
section
/-! DEFINITION. Requests on the management port: a write in any window, its checks in the order of Table 16-3, pairs, event bits,
locks, and the held queue's GRANT and DENY (R4, R6 to R8, R20, R304, R400, R411 to R420). -/

namespace Sys2Proof.Machine

/-- A request that is answered: "unavailable" while the management plane is in POR (R20, R304). -/
def State.mgmt (s : State) (f : State → State) : State :=
  if !s.m.up then { s with m := { s.m with resp := (.unavail, 0) } }
  else
    let s := f s
    { s with m := { s.m with resp := (.ok, 0) } }

/-- A request that changes no more than the machine. -/
def State.ctl (s : State) (f : Mach → Mach) : State := s.mgmt fun s => { s with m := f s.m }

/-- Is an NS write refused by the world rule of its register (Table 16-1)? `v` is the value it would store; a command register
judges its own primary writes. -/
def Mach.worldBad (m : Mach) (a : Nat) (prim : Bool) (v : W32) : Bool :=
  let p := a / 0x1000
  let off := a % 0x1000
  let flips := fun (i : Nat) => m.bit a i != v.getLsbD i
  if p = 3 then decide (m.lcState ≠ 0) && !(prim && (a = Reg.secLccmd || a = Reg.secPatchcmd))
  else if p = 7 then decide (0x020 ≤ off)
  else if p = 4 then a = Reg.fltCtl || a = Reg.fltSnpto || (decide (Reg.fltCfg ≤ a) && decide (a < Reg.fltCfg + 256))
  else if p = 6 then decide (Reg.aonVcfg ≤ a) && decide (a ≤ Reg.aonTcfg)
  else if p = 5 then
    let k := (off % 0x20) / 4
    if a = Reg.recVfilt || a = Reg.recRawaddr then true
    else if a = Reg.recCtl then flips 1
    else if Reg.recSscfg ≤ a && a < Reg.recSscfg + 32 then m.bit a 30 || v.getLsbD 30
    else if a = Reg.recSsadr then m.bit (Reg.recSscfg + 4 * m.fld Reg.recSsidx 8 3) 30
    else if Reg.recTrg ≤ a && a < Reg.recTrg + 32 then m.bit (Reg.recSscfg + 4 * k) 30
    else false
  else if a = Reg.qobHo || a = Reg.crmLkcfg || a = Reg.rvpRhcmd then true
  else if a = Reg.tstLbcmd then !prim
  else if Reg.tstSfbad ≤ a && a < Reg.tstCrbad + 20 then decide (m.reg a &&& ~~~ v ≠ 0)
  else if 0x80 ≤ p && p < 0xC0 then off = Reg.hsEinj || (off = Reg.hsMspCmd && !prim)
  else false

/-- The value a write makes of a register's RW and RWL fields `k`: the window's operation, event bits only cleared (R411, R414). -/
def mergeWrite (win : Nat) (k ev old v : W32) : W32 :=
  let x := match win with
    | 0 => v
    | 1 => old ||| v
    | 2 => old &&& ~~~ v
    | _ => old ^^^ v
  let e := match win with
    | 0 => old &&& v
    | 2 => old &&& ~~~ v
    | _ => old
  (old &&& ~~~ k) ||| (x &&& k &&& ~~~ ev) ||| (e &&& k &&& ev)

/-- Store the fields of a register that has no more to it; the write of _HI commits the pair (R4). -/
def Mach.storeReg (m : Mach) (w : World) (a : Nat) (prim : Bool) (half : Nat) (k raw v : W32) : Mach :=
  let c := worldReg w a
  if half = 1 && prim then { m with heldLo := m.heldLo.set none c (some raw) }
  else if half = 2 && prim then
    let m' := match m.heldLo.get none (c - 4) with
      | some lo =>
        let kl := match regRow m.integ (a - 4) with | some r => r.rw ||| r.rwl | none => 0
        m.setReg (a - 4) ((m.reg (a - 4) &&& ~~~ kl) ||| (lo &&& kl))
      | none => m
    { m' with heldLo := m'.heldLo.set none (c - 4) none }.setReg a ((m'.reg a &&& ~~~ k) ||| (v &&& k))
  else if a = Reg.recSeek || a = Reg.recWsel then m.setReg c v
  else m.setReg a v

/-- RST_CMD (Table 14-11). -/
def Mach.resetCmd (m : Mach) (w : World) (x : Nat) (raw v : W32) : Mach :=
  match (v.extractLsb' 0 4).toNat with
  | 1 => m.softReset w x
  | 2 => m.sliceReset w x (v.extractLsb' 8 6).toNat
  | 3 => m.portReset w x raw (v.extractLsb' 4 2).toNat (v.extractLsb' 8 6).toNat
  | _ => m.refuse w x .value

/-- SEC_PART (R114): sf_en is ignored where the package has no partition, and refused while a bank it needs is not ON. -/
def Mach.partWrite (m : Mach) (w : World) (x : Nat) (v : W32) : Mach :=
  let was := m.bit Reg.secPart 0
  let on := v.getLsbD 0
  if w = .ns && m.lcState ≠ 0 then m.refuse w x .world
  else if !m.integ.sfpart then m.setFld Reg.secPart 1 1 (v.extractLsb' 1 1).toNat
  else if on && !was && !m.partOn then m.refuse w x .state
  else
    let m := m.setFld Reg.secPart 0 2 (v.extractLsb' 0 2).toNat
    if on && !was then m.sortGo else if was && !on then m.sortStop else m

/-- PWR_DOMCMD (R365). -/
def Mach.domWrite (m : Mach) (w : World) (x : Nat) (v : W32) : Mach :=
  let d := (v.extractLsb' 0 8).toNat
  match (v.extractLsb' 8 2).toNat with
  | 1 => m.domCommand w x d true
  | 2 => m.domCommand w x d false
  | _ => m.refuse w x .value

/-- FLT_RELEASE (R321). -/
def Mach.releaseWrite (m : Mach) (w : World) (x : Nat) (v : W32) : Mach :=
  if !v.getLsbD 0 && !v.getLsbD 8 then m.refuse w x .value
  else m.fltRelease w (v.getLsbD 0) (v.getLsbD 8) (v.extractLsb' 9 6).toNat

/-- TST_MBCMD (R385). -/
def Mach.mbWrite (m : Mach) (w : World) (x : Nat) (raw v : W32) : Mach :=
  match (v.extractLsb' 0 2).toNat with
  | 1 => m.mbStart w (v.extractLsb' 8 6).toNat (v.getLsbD 5) (v.extractLsb' 3 2).toNat
  | 3 => m.mbAbort w raw
  | _ => m.refuse w x .value

/-- HS_SFBANK (R111, R113). -/
def Mach.bankWrite (m : Mach) (w : World) (x h : Nat) (v : W32) : Mach :=
  let b := (v.extractLsb' 0 2).toNat
  match (v.extractLsb' 2 2).toNat with
  | 1 => m.bankEvac w h b
  | 2 => m.bankOn w h b
  | 3 => m.bankAbort w h b
  | _ => m.refuse w x .value

/-- The effect of a write on a register that does more than store its fields; none where it only stores them. `v` is the new
value with the WO bits written, `store` the machine with the fields stored. -/
def Mach.applyGlobal (m : Mach) (w : World) (x a : Nat) (raw v : W32) (store : Mach) : Mach :=
  let n := fun (lo k : Nat) => (v.extractLsb' lo k).toNat
  match a / 0x1000 with
  | 0 =>
    if a = Reg.glbAtmctl then m.atmctl w x v
    else if a = Reg.glbWcctl then m.wcctl v
    else if Reg.glbFwid ≤ a && a < Reg.glbFwid + 16 && m.bit (Reg.pgLock 0) 0 then m.refuse w x .locked else store
  | 1 => if a = Reg.pwrFreq then m.freqSet w x raw v else if a = Reg.pwrDomcmd then m.domWrite w x v else store
  | 2 => if a = Reg.rstCmd then m.resetCmd w x raw v else store
  | 3 =>
    if a = Reg.secPart then m.partWrite w x v
    else if a = Reg.secClaim + 28 then store.setReg a (v &&& 0x7FFFFF#32)
    else if Reg.secKey ≤ a && a < Reg.secKey + 96 && m.lcState ≠ 0 then m.refuse w x .state else store
  | 4 => if a = Reg.fltRelease then m.releaseWrite w x v else store
  | 5 =>
    if a = Reg.recCmd then m.recCmd w x (n 0 4) (BitVec.ofNat 8 (n 8 8))
    else if Reg.recSscfg ≤ a && a < Reg.recSscfg + 32 then m.snapCfg ((a - Reg.recSscfg) / 4) v
    else if a = Reg.recSsadr then { m with rcr := { m.rcr with lists := m.rcr.lists.set 0 m.ssAt (v.setWidth 20) } }
    else store
  | 6 => if a = Reg.aonVcfg + 12 then store.setBits a 0x80000000 else store
  | 7 =>
    if a = Reg.rmpCtl then m.rcEnable w x (v.getLsbD 1)
    else if a = Reg.rmpInv then m.invalidate w x (v.getLsbD 8) (n 0 6) else store
  | 8 =>
    if a = Reg.qobCtl then m.qobEnable (v.getLsbD 0)
    else if a = Reg.qobHo then m.handOver w x (n 16 11)
    else if a = Reg.qobCmd then m.queueCmd w x (BitVec.ofNat 4 (n 0 3)) else store
  | 9 =>
    if a = Reg.tmpCtl then m.tmpCtl v
    else if a = Reg.tmpCmd then m.tamper w x (BitVec.ofNat 4 (n 0 4)) (v.getLsbD 15) (v.getLsbD 14) (n 8 6)
    else if a = Reg.crmCtl then m.crmCtl w x v
    else if a = Reg.crmLkcfg then m.lockWays w x (n 0 3)
    else if a = Reg.crmLkcmd then m.lockCmd w x (n 0 2) (n 8 6) else store
  | 11 => if a = Reg.rvpRhcmd then m.rehomeWrite w x (v.getLsbD 31) (n 0 6) else store
  | 14 =>
    if a = Reg.tstMbcmd then m.mbWrite w x raw v
    else if a = Reg.tstLbcmd then if v.getLsbD 0 then m.lbStart w else m.refuse w x .value
    else store
  | _ => store

/-- The same for a register of a port's or a slice's page. -/
def Mach.applyUnit (m : Mach) (w : World) (x a : Nat) (raw v : W32) (store : Mach) : Mach :=
  let p := a / 0x1000
  let off := a % 0x1000
  if p < 0x80 then
    let k := p - 0x40
    if off = Reg.pLctl then m.lctl w x raw v k
    else if off = Reg.pLcfg && !([0, 1, 2, 3, 4, 6, 8].contains (v.extractLsb' 0 4).toNat) then m.refuse w x .value
    else if off = Reg.pPctl then m.pctl k v
    else store
  else if p < 0xC0 then
    let h := p - 0x80
    if off = Reg.hsSfbank then m.bankWrite w x h v
    else if off = Reg.hsCrmctl then m.wayDis h (v.setWidth 8)
    else if off = Reg.hsEinj then m.einj w x h v
    else if off = Reg.hsMspCmd then m.mspStart w x h (v.extractLsb' 0 4) (v.extractLsb' 4 2)
    else store
  else if off = Reg.hscCtl then m.hscCtl (p - 0xC0) v else store

/-- The SEC page's commands that reach the fuses (R402, R408). -/
def State.applyFuse (s : State) (w : World) (x a : Nat) (v : W32) (other : Unit → State) : State :=
  if a = Reg.secLccmd then
    match (v.extractLsb' 0 3).toNat with
    | 7 => s.debugAuth w
    | n => if 1 ≤ n ∧ n ≤ 4 then s.lcRequest w n
           else if w = .ns && s.m.lcState ≠ 0 then { s with m := s.m.refuse w x .world } else { s with m := s.m.refuse w x .value }
  else if a = Reg.secPatchcmd then
    if v.getLsbD 8 then s.patchRaise w (v.extractLsb' 0 2).toNat
    else if w = .ns && s.m.lcState ≠ 0 then { s with m := s.m.refuse w x .world } else { s with m := s.m.refuse w x .value }
  else other ()

/-- A write of value `raw` at address `x` from world `w`. `held` is what a write of SEC_HELDCMD does. A reserved page records
nothing (R7); a refused write changes no more than PG_ERR and a result field (R8, R415, R419). -/
def State.writeWith (s : State) (held : State → World → Nat → W32 → State) (w : World) (x : Nat) (raw : W32) : State :=
  let m := s.m
  let a := primary x
  let win := x % 0x1000 / 0x400
  let no := fun (c : Cause) => { s with m := m.refuse w x c }
  if (pageRows m.integ (x / 0x1000)).isNone then s
  else match regRow m.integ a with
    | none => if w = .ns && a / 0x1000 = 3 && m.lcState ≠ 0 then no .world else no .resvd
    | some r =>
      let k := r.rw ||| r.rwl
      let ssadr := (m.rcr.lists.get 0 m.ssAt).setWidth 32
      let old := if a = Reg.recSsadr then ssadr
        else m.reg (if a = Reg.recSeek || a = Reg.recWsel then worldReg w a else a)
      let v := mergeWrite win k (eventMask a) old raw
      let vw := if win = 0 then (v &&& ~~~ r.wo) ||| (raw &&& r.wo) else v &&& ~~~ r.wo
      if w = .ns && m.worldBad a (win = 0) v then no .world
      else if k ||| r.wo = 0 then no .nowrite
      else if k = 0 && win ≠ 0 then no .alias_
      else
        let store := m.storeReg w a (win = 0) r.half k raw v
        let off := a % 0x1000
        if off = 0x010 then if v.getLsbD 31 then s else { s with m := m.setReg a 0 }
        else if off = 0x014 then { s with m := store }
        else if off = 0x01C then { s with m := m.lockPage w x (v.getLsbD 0) }
        else if a = Reg.secHeldcmd then held s w x raw
        else if a < 0x40000 then
          s.applyFuse w x a vw fun _ => { s with m := m.applyGlobal w x a raw vw store }
        else { s with m := m.applyUnit w x a raw vw store }

/-- SEC_HELDCMD (R400): GRANT applies the oldest held write as an S write, DENY discards it. -/
def State.heldCmd (s : State) (w : World) (x op : Nat) : State :=
  if w = .ns && s.m.lcState ≠ 0 then { s with m := s.m.refuse w x .world }
  else if op ≠ 1 && op ≠ 2 then { s with m := s.m.refuse w x .value }
  else match s.m.heldq with
    | [] => { s with m := s.m.refuse w x .state }
    | h :: r =>
      let s := { s with m := { s.m with heldq := r } }
      if op = 1 then s.writeWith (fun s _ _ _ => s) .s h.1.toNat h.2 else s

/-- A write request that the management port carries out. -/
def State.write (s : State) (w : World) (x : Nat) (v : W32) : State :=
  s.writeWith (fun s w x v => s.heldCmd w x (v.extractLsb' 0 2).toNat) w x v

/-- A write request on the management port. -/
def State.mgmtWrite (s : State) (w : World) (x : Nat) (v : W32) : State := s.mgmt fun s => s.write w x v

/-- A management request whose parity fails has no effect (R304). -/
def State.parityError (s : State) : State := { s with m := { s.m with resp := (if s.m.up then .perr else .unavail, 0) } }

end Sys2Proof.Machine
end

