-- ==== Sys2Proof/Machine/Settle.lean ====
section
/-! DEFINITION. What follows a command of its own accord, and the engines whose commands name no
register: evacuation moves, snapshots, controller restarts (R111, R112, R228, R274, R314, R316, R335, R343, R346, R347, R370). -/

namespace Sys2Proof.Machine

-- ===== what follows of its own accord =====

/-- Has a gated slice something to do (R370)? -/
def Mach.gatedWork (m : Mach) (h : Nat) : Bool := (m.slice h).gated && !m.idle h

/-- May the running Tamper operation have ended: it was aborted, or it waits for work in progress (R43, R265)? -/
def Mach.tmpEnding (m : Mach) : Bool := m.tmp.any fun o => o.abort || decide (3 ≤ o.op.toNat)

/-- Is nothing left that follows of its own accord? -/
def Mach.settled (m : Mach) : Bool :=
  m.due.isEmpty && (m.ports.all fun e => e.2.heldq.isEmpty && !(m.step = 8 && decide (e.2.st = .init))) &&
  (m.slices.all fun e => e.2.nlq.isEmpty && !(e.2.slot.any fun v => v.2.any (·.out)) && !m.gatedWork e.1) &&
  !(m.active.any fun h => (m.wakeNext h).isSome) &&
  !(m.active.any fun h => (m.slice h).run = .on && (m.slice h).busy.any fun e => e.2.badId || e.2.badPr) &&
  !(m.ports.any fun e => (e.2.fwdq.any fun f => m.egressOk f.target || m.agFenced f.msg.agent.toNat)) &&
  !(m.qcmd.any fun c => !c.going) && !m.tmpEnding && !(m.tmp.any (·.bad)) && (m.tmp.isSome || m.tmpq.isEmpty) &&
  !(m.mbist.any fun b => (m.slice b.hs).role ≠ .active)

/-- Is nothing left to follow, and no credit either that waits to go back? -/
def Mach.still (m : Mach) : Bool := m.settled && m.ports.all fun e => e.2.crq.all (· = 0)

/-- Page out what is marked for it and held by nothing (R232, R233). -/
def Mach.pageOuts (m : Mach) : Mach :=
  m.active.foldl (fun m h =>
    ((m.slice h).slot.filter fun v => v.2.any (·.out)).foldl (fun m v => Mach.fin (m.pageOutTry h v.1)) m) m

/-- One round of what follows: reactions that are due (R314, R318), a self-test whose slice was rehomed, entries that wait for
a queue command or an nlost, page-outs, requests held at the ports (R274), ports ready to open, and gated slices with work. -/
def Mach.follow (m : Mach) : Mach :=
  let m := Mach.reactAll 64 m
  let m := if m.mbist.any fun b => (m.slice b.hs).role ≠ .active then m.mbFenced else m
  let m := m.tmpParity.teParity
  let m := if m.tmpEnding then m.tmpCheck else m
  let m := m.tmpNext.nlostTry.qcmdTry.pageOuts
  let m := Mach.fin m.passHeld
  let m := (List.range 28).foldl (fun m p => if (m.port p).fwdq = [] then m else m.fwdGo p) m
  let m := m.active.foldl (fun m h => m.autoWake h) m
  let m := if m.step = 8 then (List.range 28).foldl (fun m p => m.openPort p) m else m
  (List.range 34).foldl (fun m h => if m.gatedWork h then m.ungate h else m) m

/-- Follow until nothing is left, in at most `n` rounds. -/
def Mach.settleN : Nat → Mach → Mach
  | 0, m => m
  | n + 1, m => if m.settled then m else Mach.settleN n m.follow

/-- What a command leaves to follow takes place with it. -/
def Mach.settle (m : Mach) : Mach :=
  let m := m.settleN 3
  -- credits go back last, in the flits that leave or in IDLE flits
  m.ports.foldl (fun m e => if e.2.crq.all (· = 0) then m else m.sendCredits e.1) m

-- ===== engines =====

/-- EVACUATION_MOVE (R111, R112): where the sector's world is not in the region cache, the engine walks for it. -/
def Mach.evacMove (m : Mach) (h : Nat) : Mach :=
  let (m, need) := m.evacStep h fun sec => (m.rcFind h (secOff sec)).map atSec
  match need with
  | some sec => if m.walking (.evac h) then m else Mach.fin (m.startWalk h (.evac h) (secOff sec))
  | none => m

/-- EVICT_VICTIM (R97): a victim whose world is not known first gets it from its region (R114). -/
def Mach.evictVictim (m : Mach) (h : Nat) (sec : BitVec 39) : Mach :=
  match (m.slice h).victim sec with
  | none => m
  | some v =>
    if v.w.isSome || m.spillDown then m.evict h sec
    else if m.walking (.vict h sec) then m
    else Mach.fin (m.rcLook h (.vict h sec) (secOff sec))

/-- SNAPSHOT_DONE: TLP has read the registers of a set's list, with the set's world, or, with `first`, only the first of them
(R343, R346, R347). -/
def State.snapDone (s : State) (k : Nat) (first : Bool) : State :=
  if s.m.rcr.run.get 0 k = 0 || !s.m.ctrlRuns 2 then s
  else
    let cfg := s.m.reg (Reg.recSscfg + 4 * k)
    let w : World := if cfg.getLsbD 30 then .s else .ns
    let n := min 64 (cfg.extractLsb' 0 7).toNat
    let read := fun (s : State) (l : List Nat) => l.foldl (fun (x : State × List (BitVec 20 × W32)) i =>
      let a := x.1.m.rcr.lists.get 0 (k * 64 + i)
      let (s, v) := x.1.readReg w a.toNat
      (s, x.2 ++ [(a, v)])) (s, [])
    match s.m.rcr.got.get none k with
    | none =>
      if first then
        let (s, vals) := read s ((List.range n).take 1)
        { s with m := { s.m with rcr := { s.m.rcr with got := s.m.rcr.got.set none k vals.head? } } }
      else
        let (s, vals) := read s (List.range n)
        { s with m := s.m.snapPlace k vals }
    | some x =>
      if first then s
      else
        let (s, vals) := read s ((List.range n).drop 1)
        { s with m := s.m.snapPlace k (x :: vals) }

/-- CONTROLLER_RESTART: the controller leaves its reset and runs from ROM, with its patch where one is verified (R335). TLP then
writes the map copies that waited for it (R356), RVP reports a copy that went on (Table 12-9), CP switches the domains that waited
(Table 12-12) and goes back to step 2 of a bring-up it was carrying out, and a second such
restart refuses the image (R383). -/
def State.ctrlRestart (s : State) (c : Nat) : State :=
  if (s.m.ctrl.get {} c).run ≠ 3 then s
  else
    let m := s.m
    let now := (m.reg Reg.aonOpsec).toNat * 1000000 + (Config.subSecond m.free).val
    let run : BitVec 2 := if m.fld (Reg.secPatch + 4 * c) 30 2 = 1 then 2 else 1
    let m := ({ m with free := m.free + 1 }.modC c fun x => { x with run, since := some now }).count (Reg.ctpRcnt + 0x1000 * c)
    if c = 2 then
      let due := m.rcr.mapPend
      let s := due.foldl (fun s b => s.mapWrite b) { s with m := { m with rcr := { m.rcr with mapPend := [] } } }
      { s with m := s.m.recorderRec 5 3 }
    else if c = 1 then { s with m := m.active.foldl (fun m h => m.rhReport h) m }
    else if c = 0 && decide (m.step < 8) && !m.halted && decide (0 < m.cpFails) then
      if m.cpFails = 1 then { s with m := { m with step := 2 }.setReg Reg.pwrBuPct 0 } else { s with m := m.imgRefuse 0 }
    else { s with m := m.domResume }

end Sys2Proof.Machine
end

