-- ==== Sys2Proof/Machine/Exec.lean ====
section
/-! DEFINITION. The shapes of the commands' meanings: every command of the block answers a next state, in which what follows of its
own accord has taken place. -/

namespace Sys2Proof.Machine

/-- What a command answers. -/
abbrev Out := Host.Outcome State Fault Refusal

/-- A state once what follows of its own accord has taken place. -/
def State.settle (s : State) : State := { s with m := s.m.settle }

/-- An event: nothing happens to a block held in POR (R376). -/
def State.event (s : State) (f : State → State) : Out := .next (if s.m.up then (f s).settle else s)

/-- An event that changes no store. -/
def State.run (s : State) (f : Mach → Mach) : Out := s.event fun s => { s with m := f s.m }

/-- A request on the management port (R20, R304). -/
def State.request (s : State) (f : State → State) : Out := .next (s.mgmt f).settle

/-- A register write that changes no store. -/
def State.command (s : State) (f : Mach → Mach) : Out := .next (s.ctl f).settle

/-- The number of a controller's page among the three. -/
def ctrlNum : Ctrl → Nat
  | .cp => 0 | .rvp => 1 | .tlp => 2

/-- LCTL with a command bit and quiesce as it stands. -/
def Mach.lctlCmd (m : Mach) (w : World) (p : Nat) (bit : Nat) : Mach :=
  let v := w32 (bit + bitAt 0 (m.bit (portA p Reg.pLctl) 0))
  m.lctl w (portA p Reg.pLctl) v v p

/-- REC_PERIOD_TRIGGER: REC_PERIOD 0 triggers nothing (R345). -/
def Mach.periodic (m : Mach) : Mach := if m.reg Reg.recPeriod = 0 then m else m.trigger 10

/-- A write of REC_SSCFGk that gives the set a world and keeps its other fields (R347). -/
def Mach.setWorld (m : Mach) (w : World) (k : Nat) (to_ : World) : Mach :=
  let a := Reg.recSscfg + 4 * k
  m.sOnly w a fun m => m.snapCfg k ((m.reg a &&& 0x8000007F#32) ||| (if to_ = .s then 0x40000000 else 0))

/-- SAFE_STATE_FLUSH_DONE: what is buffered is in the store (R337). -/
def State.safeFlush (s : State) : State :=
  if s.m.safe.any fun x => x.step = 4 then
    let s := s.flushAll
    { s with m := s.m.safeFlushed }
  else s

end Sys2Proof.Machine
end

