-- ==== Sys2Proof/Machine/CmdFault.lean ====
section
/-! DEFINITION. The meanings of the commands: faults and recovery (chapter 12). -/

namespace Sys2Proof.Machine

/-- FAULT_WINDOW_EXPIRY: of a source's events, or with `retrain` of its port's retrains (R297, R317). -/
def execFaultWindowExpiry (win : FaultWin) (s : State) : Out := s.run fun m => m.windowEnd win

/-- FLT_RELEASE_HEAD (R321). -/
def execFltReleaseHead (w : World) (s : State) : Out := s.command fun m => m.fltRelease w true false 0

/-- FLT_CLEAR_LOST (R321). -/
def execFltClearLost (w : World) (src : Fin 64) (s : State) : Out := s.command fun m => m.fltRelease w false true src.val

/-- SAFE_STATE_DEADLINE (R337). -/
def execSafeStateDeadline (s : State) : Out := s.run fun m => m.safeDeadline

/-- SAFE_STATE_WRITES_DONE (R337). -/
def execSafeStateWritesDone (s : State) : Out := s.run fun m => m.safeWrites

/-- SAFE_STATE_FLUSH_DONE (R306, R337). -/
def execSafeStateFlushDone (s : State) : Out := s.event fun s => s.safeFlush

/-- REHOME_CMD (R328, R339). -/
def execRehomeCmd (w : World) (hs : BitVec 6) (s : State) : Out :=
  s.command fun m => m.rehomeWrite w Reg.rvpRhcmd true hs.toNat

/-- REHOME_PREP_DONE (R330). -/
def execRehomePrepDone (s : State) : Out := s.run fun m => m.rhFreeze

/-- REHOME_FREEZE_DONE (R330). -/
def execRehomeFreezeDone (s : State) : Out := s.run fun m => m.rhSwitch

/-- REHOME_COPY_SET (R331). -/
def execRehomeCopySet (s : State) : Out := s.run fun m => m.rhCopy

/-- OWNER_SWEEP_SET (R324). -/
def execOwnerSweepSet (hs : SliceId) (s : State) : Out := s.run fun m => m.sweepSet hs.val

end Sys2Proof.Machine
end

