-- ==== Sys2Proof/Machine/CmdFilter.lean ====
section
/-! DEFINITION. The meanings of the commands: the snoop filter (chapter 04). -/

namespace Sys2Proof.Machine

/-- EVICT_VICTIM: `off` lies in the victim sector (R97). -/
def execEvictVictim (hs : SliceId) (off : Off) (s : State) : Out := s.run fun m => m.evictVictim hs.val (secOf off)

/-- COPY_REMOVAL: `off` lies in the sector (R99). -/
def execCopyRemoval (hs : SliceId) (off : Off) (s : State) : Out := s.run fun m => m.copyRemove hs.val (secOf off)

/-- RECOUNT (R442). -/
def execRecount (hs : SliceId) (s : State) : Out := s.run fun m => m.recount hs.val

/-- REBUILD_START (R103). -/
def execRebuildStart (hs : SliceId) (s : State) : Out := s.run fun m => m.rebuildStart hs.val

/-- SET_SWEEP_TAG (R106). -/
def execSetSweepTag (hs : SliceId) (s : State) : Out := s.run fun m => m.sweepTag hs.val

/-- BANK_AUTO_OFF (R110). -/
def execBankAutoOff (hs : SliceId) (bank : Fin 4) (s : State) : Out := s.run fun m => m.bankAutoOff hs.val bank.val

/-- EVACUATE (R111, R113). -/
def execEvacuate (w : World) (hs : SliceId) (bank : Fin 4) (s : State) : Out :=
  s.command fun m => m.bankEvac w hs.val bank.val

/-- BANK_POWER_ON (R113). -/
def execBankPowerOn (w : World) (hs : SliceId) (bank : Fin 4) (s : State) : Out :=
  s.command fun m => m.bankOn w hs.val bank.val

/-- EVACUATION_ABORT (R113). -/
def execEvacuationAbort (w : World) (hs : SliceId) (bank : Fin 4) (s : State) : Out :=
  s.command fun m => m.bankAbort w hs.val bank.val

/-- EVACUATION_MOVE (R112). -/
def execEvacuationMove (hs : SliceId) (s : State) : Out := s.run fun m => m.evacMove hs.val

/-- SF_PARTITION_ENABLE: a write of SEC_PART (R114). -/
def execSfPartitionEnable (w : World) (data : W32) (s : State) : Out := s.command fun m => m.partWrite w Reg.secPart data

end Sys2Proof.Machine
end

