-- ==== Sys2Proof/Machine/CmdLifecycle.lean ====
section
/-! DEFINITION. The meanings of the commands: self-test, held requests, lifecycle, patches (chapters 14, 15). -/

namespace Sys2Proof.Machine

/-- MBIST_START (R384, R385). -/
def execMbistStart (w : World) (hs : BitVec 6) (tgt : Bool) (bank : Fin 4) (s : State) : Out :=
  s.command fun m => m.mbStart w hs.toNat tgt bank.val

/-- MBIST_ABORT (R385). -/
def execMbistAbort (w : World) (s : State) : Out := s.command fun m => m.mbAbort w 3

/-- MBIST_STAGE_DONE (R384). -/
def execMbistStageDone (fail : Option (Fin 16 × Fin 16384)) (s : State) : Out :=
  s.run fun m => m.mbStage (fail.map fun x => (x.1.val, x.2.val))

/-- LBIST_START (R387). -/
def execLbistStart (w : World) (s : State) : Out := s.command fun m => m.lbStart w

/-- LBIST_DONE (R387, R388). -/
def execLbistDone (res0 res1 : W32) (s : State) : Out := s.run fun m => m.lbEnd res0 res1

/-- GRANT (R400). -/
def execGrant (w : World) (s : State) : Out := s.request fun s => s.heldCmd w Reg.secHeldcmd 1

/-- DENY (R400). -/
def execDeny (w : World) (s : State) : Out := s.request fun s => s.heldCmd w Reg.secHeldcmd 2

/-- LC_PROVISION (R402 to R405). -/
def execLcProvision (w : World) (s : State) : Out := s.request fun s => s.lcRequest w 1

/-- LC_DEPLOY (R402 to R405). -/
def execLcDeploy (w : World) (s : State) : Out := s.request fun s => s.lcRequest w 2

/-- LC_RMA (R402 to R405). -/
def execLcRma (w : World) (s : State) : Out := s.request fun s => s.lcRequest w 3

/-- LC_DECOMMISSION (R402 to R405). -/
def execLcDecommission (w : World) (s : State) : Out := s.request fun s => s.lcRequest w 4

/-- DEBUG_AUTH_CHECK (R402). -/
def execDebugAuthCheck (w : World) (s : State) : Out := s.request fun s => s.debugAuth w

/-- LIFECYCLE_STAGE_DONE (R404); `bad` is the wipe result where the wipe ends. -/
def execLifecycleStageDone (s : State) : Out := s.event fun s => s.lcStageDone

/-- PATCH_RAISE (R408). -/
def execPatchRaise (w : World) (ctrl : BitVec 2) (s : State) : Out := s.request fun s => s.patchRaise w ctrl.toNat

end Sys2Proof.Machine
end

