-- ==== Sys2Proof/Machine/CmdLink.lean ====
section
/-! DEFINITION. The meanings of the commands: link-level events (chapter 11). -/

namespace Sys2Proof.Machine

/-- MESSAGE_FLIT_RECEIVE: the link-level effect of a flit (R294), and its message's (notes/assumptions/16.md). -/
def execMessageFlitReceive (port : PortId) (flit : BitVec 640) (s : State) : Out := s.run fun m => m.flitIn port flit

/-- FLIT_CRC_FAIL (R294, R295). -/
def execFlitCrcFail (flit : BadFlit) (s : State) : Out := s.run fun m => m.crcFail flit.port.val flit.seq

/-- NAK (R294). -/
def execNak (flit : CtrlFlit) (ackSeq : Seq) (s : State) : Out := s.run fun m => m.nakFlit flit.port.val ackSeq flit.ack

/-- IDLE (R288). -/
def execIdle (port : PortId) (ack : AckField) (s : State) : Out := s.run fun m => m.idleIn port.val ack

/-- INIT: the port type and the version it carries select nothing (R288). -/
def execInit (flit : CtrlFlit) (_ptype : BitVec 2) (_ver : BitVec 8) (s : State) : Out :=
  s.run fun m => m.initIn flit.port.val flit.ack

/-- CRADV (R289). -/
def execCradv (flit : CtrlFlit) (cr : BitVec 64) (s : State) : Out := s.run fun m => m.cradvIn flit.port.val cr flit.ack

/-- RESUME (R296). -/
def execResume (flit : CtrlFlit) (lastSeq : Seq) (valid : Bool) (s : State) : Out :=
  s.run fun m => m.resumeIn flit.port.val lastSeq valid flit.ack

/-- REPLAY_TIMEOUT (R295). -/
def execReplayTimeout (port : PortId) (s : State) : Out := s.run fun m => m.replayTimeout port.val

/-- TX_REPLAY_TIMER (R294). -/
def execTxReplayTimer (port : PortId) (s : State) : Out := s.run fun m => m.txTimer port.val

/-- RETRAIN_REQUEST (R296). -/
def execRetrainRequest (port : PortId) (s : State) : Out := s.run fun m => m.retrain port.val

/-- RETRAIN_COMPLETE (R296, R297, R301). -/
def execRetrainComplete (port : PortId) (rate : BitVec 4) (lanes : BitVec 7) (s : State) : Out :=
  s.run fun m => m.retrainDone port.val rate lanes

/-- RETRAIN_TIMEOUT (R296). -/
def execRetrainTimeout (port : PortId) (s : State) : Out := s.run fun m => m.retrainTimeout port.val

/-- LINK_TRAINED (R301, R382). -/
def execLinkTrained (port : PortId) (rate : BitVec 4) (lanes : BitVec 7) (s : State) : Out :=
  s.run fun m => m.linkTrained port.val rate lanes

/-- LINK_TRAIN_TIMEOUT (R383). -/
def execLinkTrainTimeout (port : PortId) (s : State) : Out := s.run fun m => m.trainTimeout port.val

/-- L1_ENTRY (R371, R399). -/
def execL1Entry (port : PortId) (s : State) : Out := s.run fun m => m.l1Entry port.val

/-- L1_EXIT (R371). -/
def execL1Exit (port : PortId) (s : State) : Out := s.run fun m => m.l1Exit port.val

/-- SNOOP_RESPONSE_TIMEOUT (R129). -/
def execSnoopResponseTimeout (hs : SliceId) (te : Fin 512) (s : State) : Out := s.run fun m => m.snpTimeout hs.val te.val

end Sys2Proof.Machine
end

