-- ==== Sys2Proof/Machine/CmdMessage.lean ====
section
/-! DEFINITION. The meanings of the commands: answers, data, memory returns and notes (chapters 03, 07, 10, 11). -/

namespace Sys2Proof.Machine

/-- SRI: no copy (R67). -/
def execSri (r : Rsp) (s : State) : Out := s.run fun m => m.viaYard fun m => m.answer (.sri r) .sri r

/-- SRS: a copy kept shared (R67). -/
def execSrs (r : Rsp) (s : State) : Out := s.run fun m => m.viaYard fun m => m.answer (.srs r) .srs r

/-- SRF: the data was forwarded (R67). -/
def execSrf (r : Rsp) (s : State) : Out := s.run fun m => m.viaYard fun m => m.answer (.srf r) .srf r

/-- SRFO: dirty data and ownership passed on (R67). -/
def execSrfo (r : Rsp) (s : State) : Out := s.run fun m => m.viaYard fun m => m.answer (.srfo r) .srfo r

/-- DTW: write or snoop data takes its reserved place (R271). -/
def execDtw (d : Dtw) (s : State) : Out := s.run fun m => m.viaYard fun m => m.data d

/-- FORWARDED_DAT: data crosses from one agent to another (R57). -/
def execForwardedDat (port : PortId) (op : DatOp) (agent : BitVec 5) (tid : Tid) (psn : Bool) (data : Line) (s : State) : Out :=
  s.run fun m => m.viaYard fun m => m.fwdDat port.val op agent tid psn data

/-- FORWARDER_RSP_RELEASE: answers held behind a forward go on (R57). -/
def execForwarderRspRelease (port : PortId) (s : State) : Out := s.run fun m => m.rspGo port.val

/-- MRT: a memory read returns (R276). -/
def execMrt (port : PortId) (htag : BitVec 14) (psn ue : Bool) (data : Line) (s : State) : Out :=
  s.run fun m => m.viaYard fun m => m.memIn port.val htag (.mrt port htag psn ue data)

/-- MWC: a memory write has completed (R188). -/
def execMwc (port : PortId) (htag : BitVec 14) (s : State) : Out :=
  s.run fun m => m.viaYard fun m => m.memIn port.val htag (.mwc port htag)

/-- BISNP: a device snoops back; each form invalidates (R303). -/
def execBisnp (port : PortId) (_form : BiForm) (len : BitVec 2) (off : Off) (biId biTag : BitVec 12) (s : State) : Out :=
  s.run fun m => m.biSnp port.val len off biId biTag

/-- MBS: the oldest back-invalidate snoop of a port reaches its slice (R78). -/
def execMbs (port : PortId) (s : State) : Out := s.run fun m => m.viaYard fun m => m.mbsIn port.val

/-- MBR: a back-invalidate is done (R78). -/
def execMbr (port : PortId) (s : State) : Out := s.run fun m => m.viaYard fun m => m.mbrIn port.val

/-- RETIRE_NOTE: a write-order entry retires (R190). -/
def execRetireNote (port : PortId) (s : State) : Out := s.run fun m => m.viaYard fun m => m.noteIn port.val

/-- MCL_CLEAR_NOTICE: a slice has cleared a monitor (R79). -/
def execMclClearNotice (port : PortId) (s : State) : Out := s.run fun m => m.viaYard fun m => m.mclNote port.val

end Sys2Proof.Machine
end

