-- ==== Sys2Proof/Machine/CmdPort.lean ====
section
/-! DEFINITION. The meanings of the commands: port controls (chapter 11). -/

namespace Sys2Proof.Machine

/-- QUIESCE: a write of LCTL.quiesce (R299, R399). -/
def execQuiesce (w : World) (port : PortId) (on : Bool) (s : State) : Out :=
  s.command fun m => m.lctl w (portA port.val Reg.pLctl) (w32 (bitAt 0 on)) (w32 (bitAt 0 on)) port.val

/-- PORT_FENCE_CMD: LCTL.fence, quiesce as it stands (R299). -/
def execPortFenceCmd (w : World) (port : PortId) (s : State) : Out := s.command fun m => m.lctlCmd w port.val 8

/-- LCTL_RETRAIN: LCTL.retrain, quiesce as it stands (R296). -/
def execLctlRetrain (w : World) (port : PortId) (s : State) : Out := s.command fun m => m.lctlCmd w port.val 4

end Sys2Proof.Machine
end

