-- ==== Sys2Proof/Machine/CmdPower.lean ====
section
/-! DEFINITION. The meanings of the commands: power, clocks and comparators (chapter 14). -/

namespace Sys2Proof.Machine

/-- DOMAIN_ON (R365). -/
def execDomainOn (w : World) (dom : BitVec 8) (s : State) : Out :=
  s.command fun m => m.domCommand w Reg.pwrDomcmd dom.toNat true

/-- DOMAIN_OFF (R365, R399). -/
def execDomainOff (w : World) (dom : BitVec 8) (s : State) : Out :=
  s.command fun m => m.domCommand w Reg.pwrDomcmd dom.toNat false

/-- DOMAIN_WAKE_DONE (R363). -/
def execDomainWakeDone (dom : BitVec 8) (s : State) : Out := s.run fun m => m.wakeDone dom.toNat

/-- DOMAIN_DRAIN_DONE (R363). -/
def execDomainDrainDone (dom : BitVec 8) (s : State) : Out := s.run fun m => m.drainDone dom.toNat

/-- SLICE_POWER_DOWN (R367). -/
def execSlicePowerDown (hs : SliceId) (s : State) : Out := s.run fun m => m.sliceDownStart hs.val

/-- SLICE_WAKE (R367). -/
def execSliceWake (hs : SliceId) (s : State) : Out := s.run fun m => m.sliceWake hs.val

/-- SLICE_CLOCK_GATE (R370). -/
def execSliceClockGate (hs : SliceId) (s : State) : Out := s.run fun m => m.gate hs.val

/-- SLICE_CLOCK_RESTART (R370). -/
def execSliceClockRestart (hs : SliceId) (s : State) : Out := s.run fun m => m.ungate hs.val

/-- FREQ_SET: a write of PWR_FREQ (R369, R372, R399). -/
def execFreqSet (w : World) (data : W32) (s : State) : Out := s.command fun m => m.freqSet w Reg.pwrFreq data data

/-- FREQ_RELOCK_DONE (R369). -/
def execFreqRelockDone (s : State) : Out := s.run fun m => m.freqDone

/-- TMON0_TRIP (R372). -/
def execTmon0Trip (s : State) : Out := s.run fun m => m.tmon0

/-- TMON0_CLEAR (R372). -/
def execTmon0Clear (s : State) : Out := s.run fun m => m.tmon0Off

/-- TMON1_TRIP (R374). -/
def execTmon1Trip (s : State) : Out := s.event fun s => s.tmon1

/-- VMON_TRIP (R374). -/
def execVmonTrip (k : Vmon) (s : State) : Out := s.event fun s => s.vmonTrip k.val

/-- WATCHDOG_EXPIRY (R334). -/
def execWatchdogExpiry (k : Ctrl) (s : State) : Out := s.run fun m => m.watchdog (ctrlNum k)

/-- CONTROLLER_RESTART (R335). -/
def execControllerRestart (k : Ctrl) (s : State) : Out := s.event fun s => s.ctrlRestart (ctrlNum k)

/-- OPSEC_TICK (R373). -/
def execOpsecTick (s : State) : Out := s.event fun s => s.opsecTick

/-- CONFIG_PARITY_SCAN (R336, R421). -/
def execConfigParityScan (addr : BitVec 20) (bytes : BitVec 4) (s : State) : Out :=
  s.run fun m => m.cfgParity addr.toNat bytes

end Sys2Proof.Machine
end

