-- ==== Sys2Proof/Machine/CmdQueue.lean ====
section
/-! DEFINITION. The meanings of the commands: queue commands and hand-over (chapter 08). -/

namespace Sys2Proof.Machine

/-- CREATE (R228, R229). -/
def execCreate (w : World) (s : State) : Out := s.command fun m => m.queueCmd w Reg.qobCmd 1

/-- DESTROY (R228, R229). -/
def execDestroy (w : World) (s : State) : Out := s.command fun m => m.queueCmd w Reg.qobCmd 2

/-- RESET (R228, R229). -/
def execReset (w : World) (s : State) : Out := s.command fun m => m.queueCmd w Reg.qobCmd 3

/-- INFO (R228, R229). -/
def execInfo (w : World) (s : State) : Out := s.command fun m => m.queueCmd w Reg.qobCmd 4

/-- PAGEOUT (R228, R229). -/
def execPageout (w : World) (s : State) : Out := s.command fun m => m.queueCmd w Reg.qobCmd 5

/-- QOB_DISABLE, from either world (R232). -/
def execQobDisable (_w : World) (s : State) : Out := s.command fun m => m.qobEnable false

/-- QUEUE_HAND_OVER (R237). -/
def execQueueHandOver (w : World) (newFirst : BitVec 11) (s : State) : Out :=
  s.command fun m => m.handOver w Reg.qobHo newFirst.toNat

/-- HAND_OVER_QID (R237). -/
def execHandOverQid (s : State) : Out := s.run fun m => m.qhoStep

end Sys2Proof.Machine
end

