-- ==== Sys2Proof/Machine/CmdRecorder.lean ====
section
/-! DEFINITION. The meanings of the commands: the event recorder (chapter 13). -/

namespace Sys2Proof.Machine

/-- RECORD_FLUSH_WRITE (R349, R355, R356). -/
def execRecordFlushWrite (bufErr writeErr : Bool) (s : State) : Out := s.event fun s => s.flushWrite bufErr writeErr

/-- FLUSH_BUDGET_RESUME (R352). -/
def execFlushBudgetResume (s : State) : Out := s.run fun m => m.flushResume

/-- RECORDER_HEAD_SCAN_DONE (R354). -/
def execRecorderHeadScanDone (s : State) : Out := s.event fun s => s.headScan

/-- SNAPSHOT_DONE (R346): with `first`, only the first register of the list has been read. -/
def execSnapshotDone (read : SnapRead) (s : State) : Out := s.event fun s => s.snapDone read.set.val read.first

/-- REC_PERIOD_TRIGGER (R345). -/
def execRecPeriodTrigger (s : State) : Out := s.run fun m => m.periodic

/-- FREEZE_TIMEOUT (R358). -/
def execFreezeTimeout (s : State) : Out := s.run fun m => m.unfreezeRec none

/-- REC_CMD FLUSH (R350). -/
def execFlush (w : World) (s : State) : Out := s.command fun m => m.recCmd w Reg.recCmd 1 0

/-- REC_CMD FREEZE (R358). -/
def execFreeze (w : World) (s : State) : Out := s.command fun m => m.recCmd w Reg.recCmd 2 0

/-- REC_CMD UNFREEZE (R358). -/
def execUnfreeze (w : World) (s : State) : Out := s.command fun m => m.recCmd w Reg.recCmd 3 0

/-- REC_CMD FIRST (R357). -/
def execFirst (w : World) (s : State) : Out := s.command fun m => m.recCmd w Reg.recCmd 4 0

/-- REC_CMD LAST (R357). -/
def execLast (w : World) (s : State) : Out := s.command fun m => m.recCmd w Reg.recCmd 5 0

/-- REC_CMD NEXT (R357). -/
def execNext (w : World) (s : State) : Out := s.command fun m => m.recCmd w Reg.recCmd 6 0

/-- REC_CMD PREV (R357). -/
def execPrev (w : World) (s : State) : Out := s.command fun m => m.recCmd w Reg.recCmd 7 0

/-- REC_CMD SEEK (R357). -/
def execSeek (w : World) (s : State) : Out := s.command fun m => m.recCmd w Reg.recCmd 8 0

/-- REC_CMD ACK (R361). -/
def execAck (w : World) (s : State) : Out := s.command fun m => m.recCmd w Reg.recCmd 9 0

/-- REC_CMD SNAP (R345). -/
def execSnap (w : World) (sets : BitVec 8) (s : State) : Out := s.command fun m => m.recCmd w Reg.recCmd 10 sets

/-- SNAPSET_HANDOVER: a write of REC_SSCFGk.world (R347). -/
def execSnapsetHandover (w : World) (set : Fin 8) (world : World) (s : State) : Out :=
  s.command fun m => m.setWorld w set.val world

end Sys2Proof.Machine
end

