-- ==== Sys2Proof/Machine/CmdRegion.lean ====
section
/-! DEFINITION. The meanings of the commands: the region map, the predictor and write combining (chapters 02, 06, 07). -/

namespace Sys2Proof.Machine

/-- RMP_INV (R42, R43, R45). -/
def execRmpInv (w : World) (all : Bool) (sizeLog2 : BitVec 6) (s : State) : Out :=
  s.command fun m => m.invalidate w Reg.rmpInv all sizeLog2.toNat

/-- RC_DISABLE (R40). -/
def execRcDisable (w : World) (s : State) : Out := s.command fun m => m.rcEnable w Reg.rmpCtl false

/-- PRED_CLR: a write of GLB_ATMCTL (R182). -/
def execPredClr (w : World) (data : W32) (s : State) : Out := s.command fun m => m.atmctl w Reg.glbAtmctl data

/-- PRED_CLEAR_DONE (R182). -/
def execPredClearDone (s : State) : Out := s.run fun m => m.predDone

/-- WC_EN_CLEAR: a write of GLB_WCCTL, from either world (R199). -/
def execWcEnClear (_w : World) (data : W32) (s : State) : Out := s.command fun m => m.wcctl data

/-- EACK_OFF_SET: a write of GLB_WCCTL, from either world (R189). -/
def execEackOffSet (_w : World) (data : W32) (s : State) : Out := s.command fun m => m.wcctl data

/-- WC_BUFFER_TIMEOUT (R197). -/
def execWcBufferTimeout (hs : SliceId) (buf : Fin 16) (s : State) : Out := s.run fun m => m.wcClose hs.val buf.val true

end Sys2Proof.Machine
end

