-- ==== Sys2Proof/Machine/CmdRegister.lean ====
section
/-! DEFINITION. The meanings of the commands: register pages and the management port (chapters 00, 11, 16, 17). -/

namespace Sys2Proof.Machine

/-- HS_EINJ (R430). -/
def execHsEinj (w : World) (hs : SliceId) (data : W32) (s : State) : Out :=
  s.command fun m => m.einj w (hsA hs.val Reg.hsEinj) hs.val data

/-- MSP_READ (R431). -/
def execMspRead (w : World) (hs : SliceId) (array : BitVec 4) (chunk : BitVec 2) (s : State) : Out :=
  s.command fun m => m.mspStart w (hsA hs.val Reg.hsMspCmd) hs.val array chunk

/-- MSP_READ_DONE (R432, R433). -/
def execMspReadDone (hs : SliceId) (s : State) : Out := s.run fun m => m.mspDone hs.val

/-- HSC_CLR, from either world, with the freeze bit of the same write (R435). -/
def execHscClr (_w : World) (hs : SliceId) (freeze : Bool) (s : State) : Out :=
  s.command fun m => m.hscCtl hs.val (w32 (2 + bitAt 0 freeze))

/-- HSC_FREEZE, from either world (R435). -/
def execHscFreeze (_w : World) (hs : SliceId) (on : Bool) (s : State) : Out :=
  s.command fun m => m.hscCtl hs.val (w32 (bitAt 0 on))

/-- PCTL_CLR, from either world (R440). -/
def execPctlClr (_w : World) (port : PortId) (freeze : Bool) (s : State) : Out :=
  s.command fun m => m.pctl port.val (w32 (2 + bitAt 0 freeze))

/-- PCTL_FREEZE, from either world (R440). -/
def execPctlFreeze (_w : World) (port : PortId) (on : Bool) (s : State) : Out :=
  s.command fun m => m.pctl port.val (w32 (bitAt 0 on))

/-- PG_LOCK: a write of 1 to PG_LOCK.lock (R420). -/
def execPgLock (w : World) (page : BitVec 8) (s : State) : Out := s.request fun s => s.write w (Reg.pgLock page.toNat) 1

/-- LO_READ: a read request; a _LO register latches its _HI partner (R4, R20). -/
def execLoRead (w : World) (addr : BitVec 20) (s : State) : Out := .next (s.mgmtRead w addr.toNat)

/-- PAIR_HI_WRITE: a write request that commits a pair (R4). -/
def execPairHiWrite (w : World) (addr : BitVec 20) (data : W32) (s : State) : Out :=
  s.request fun s => s.write w addr.toNat data

/-- REGISTER_WRITE: a write request (R415). -/
def execRegisterWrite (w : World) (addr : BitVec 20) (data : W32) (s : State) : Out :=
  s.request fun s => s.write w addr.toNat data

/-- MGMT_PERR (R304). -/
def execMgmtPerr (s : State) : Out := .next (s.parityError)

/-- CONTROLLER_FAULT (R334). -/
def execControllerFault (k : Ctrl) (trap : Bool) (pc : W32) (s : State) : Out :=
  s.run fun m => m.ctrlFault (ctrlNum k) (if trap then 3 else 2) pc

/-- SLICE_CONTROL_LOGIC_FAULT (R328). -/
def execSliceControlLogicFault (hs : SliceId) (s : State) : Out := s.run fun m => m.logicFault hs.val

end Sys2Proof.Machine
end

