-- ==== Sys2Proof/Machine/CmdRequest.lean ====
section
/-! DEFINITION. The meanings of the commands: requests at a port (chapters 03, 06, 07, 08). -/

namespace Sys2Proof.Machine

/-- RDS: a read for a shared copy (R71, R80). -/
def execRds (r : Req) (s : State) : Out := s.run fun m => m.viaYard fun m => m.request (.rds r) r

/-- RDO: a read for ownership (R71, R80). -/
def execRdo (r : Req) (s : State) : Out := s.run fun m => m.viaYard fun m => m.request (.rdo r) r

/-- RDC: a read of the current line without an installed copy (R80). -/
def execRdc (r : Req) (s : State) : Out := s.run fun m => m.viaYard fun m => m.request (.rdc r) r

/-- UPG: an upgrade of a shared copy, served as RDO where the copy has gone (R75). -/
def execUpg (r : Req) (s : State) : Out := s.run fun m => m.viaYard fun m => m.request (.upg r) r

/-- WRL: a write of a full line (R76). -/
def execWrl (r : Req) (s : State) : Out := s.run fun m => m.viaYard fun m => m.request (.wrl r) r

/-- WRP: a masked write (R76). -/
def execWrp (r : Req) (mask : Mask) (s : State) : Out := s.run fun m => m.viaYard fun m => m.request (.wrp r mask) r

/-- WBD: a dirty writeback (R71). -/
def execWbd (r : Req) (s : State) : Out := s.run fun m => m.viaYard fun m => m.request (.wbd r) r

/-- EVH: a clean-eviction hint (R72). -/
def execEvh (r : Req) (s : State) : Out := s.run fun m => m.viaYard fun m => m.request (.evh r) r

/-- ATM: an atomic, placed near or far at its turn (R159 to R166). -/
def execAtm (r : Req) (aop : BitVec 8) (a b : BitVec 128) (s : State) : Out :=
  s.run fun m => m.viaYard fun m => m.request (.atm r aop a b) r

/-- RSL: a reserved load (R174). -/
def execRsl (r : Req) (s : State) : Out := s.run fun m => m.viaYard fun m => m.request (.rsl r) r

/-- SCD: a store-conditional (R175). -/
def execScd (r : Req) (s : State) : Out := s.run fun m => m.viaYard fun m => m.request (.scd r) r

/-- BAR: a barrier, answered by its port; it does not cross the Yard (R192). -/
def execBar (r : Req) (s : State) : Out := s.run fun m => m.request (.bar r) r

/-- MCL: a monitor clear for every active slice (R79). -/
def execMcl (r : Req) (s : State) : Out := s.run fun m => m.viaYard fun m => m.request (.mcl r) r

/-- QENQ: one word joins a queue (R212). -/
def execQenq (r : Req) (qid : BitVec 20) (n : BitVec 4) (word : W64) (s : State) : Out :=
  s.run fun m => m.viaYard fun m => m.request (.qenq r qid n word) r

/-- QENQ8: one to eight words of its DTW join a queue (R212). -/
def execQenq8 (r : Req) (qid : BitVec 20) (n : BitVec 4) (s : State) : Out :=
  s.run fun m => m.viaYard fun m => m.request (.qenq8 r qid n) r

/-- QDEQ: the word at read leaves the queue (R212). -/
def execQdeq (r : Req) (qid : BitVec 20) (n : BitVec 4) (s : State) : Out :=
  s.run fun m => m.viaYard fun m => m.request (.qdeq r qid n) r

/-- QPEEK: the word at read stays (R212). -/
def execQpeek (r : Req) (qid : BitVec 20) (n : BitVec 4) (s : State) : Out :=
  s.run fun m => m.viaYard fun m => m.request (.qpeek r qid n) r

/-- QMARK: mark takes read (R212). -/
def execQmark (r : Req) (qid : BitVec 20) (n : BitVec 4) (s : State) : Out :=
  s.run fun m => m.viaYard fun m => m.request (.qmark r qid n) r

/-- QREWIND: read takes mark (R212). -/
def execQrewind (r : Req) (qid : BitVec 20) (n : BitVec 4) (s : State) : Out :=
  s.run fun m => m.viaYard fun m => m.request (.qrewind r qid n) r

/-- QRELEASE: release takes read (R212). -/
def execQrelease (r : Req) (qid : BitVec 20) (n : BitVec 4) (s : State) : Out :=
  s.run fun m => m.viaYard fun m => m.request (.qrelease r qid n) r

end Sys2Proof.Machine
end

