-- ==== Sys2Proof/Machine/CmdReset.lean ====
section
/-! DEFINITION. The meanings of the commands: resets and bring-up (chapters 11, 14). -/

namespace Sys2Proof.Machine

/-- SOFT_RESET (R376, R378). -/
def execSoftReset (w : World) (s : State) : Out := s.command fun m => m.softReset w Reg.rstCmd

/-- SLICE_RESET (R377). -/
def execSliceReset (w : World) (hs : BitVec 6) (s : State) : Out := s.command fun m => m.sliceReset w Reg.rstCmd hs.toNat

/-- PORT_RESET (R299, R376). -/
def execPortReset (w : World) (ptype : BitVec 2) (num : BitVec 6) (s : State) : Out :=
  s.command fun m => m.portReset w Reg.rstCmd (w32 (num.toNat * 256 + ptype.toNat * 16 + 3)) ptype.toNat num.toNat

/-- WARM_RESET (R378). -/
def execWarmReset (s : State) : Out := s.run fun m => m.warm

/-- RESET_DRAIN_DONE (R378, R379). -/
def execResetDrainDone (s : State) : Out := s.event fun s => s.drainDone

/-- ZEROISE_ENTRY (R380). -/
def execZeroiseEntry (hs : SliceId) (s : State) : Out := s.run fun m => m.zeroStep hs.val

/-- POR (R376); `burned` is how many fuse copies a transition had burned when the power was lost (R405). -/
def execPor (s : State) : Out := .next s.por

/-- POR_RELEASE (R382). -/
def execPorRelease (s : State) : Out := .next (s.porRelease)

/-- BRINGUP_STEP_DONE (R382). -/
def execBringupStepDone (img : Image) (s : State) : Out := s.event fun s => s.bringup img

end Sys2Proof.Machine
end

