-- ==== Sys2Proof/Machine/CmdTamper.lean ====
section
/-! DEFINITION. The meanings of the commands: Tamper and Crema (chapter 09). -/

namespace Sys2Proof.Machine

/-- INVCRM (R260 to R265, Table 09-3). -/
def execInvcrm (w : World) (all il : Bool) (sizeLog2 : BitVec 6) (s : State) : Out :=
  s.command fun m => m.tamper w Reg.tmpCmd 1 all il sizeLog2.toNat

/-- FLUSHQW (R260 to R265, Table 09-3). -/
def execFlushqw (w : World) (all il : Bool) (sizeLog2 : BitVec 6) (s : State) : Out :=
  s.command fun m => m.tamper w Reg.tmpCmd 2 all il sizeLog2.toNat

/-- INVRC (R260 to R265, Table 09-3). -/
def execInvrc (w : World) (all il : Bool) (sizeLog2 : BitVec 6) (s : State) : Out :=
  s.command fun m => m.tamper w Reg.tmpCmd 3 all il sizeLog2.toNat

/-- ZERO (R260 to R265, Table 09-3). -/
def execZero (w : World) (all il : Bool) (sizeLog2 : BitVec 6) (s : State) : Out :=
  s.command fun m => m.tamper w Reg.tmpCmd 4 all il sizeLog2.toNat

/-- SCRUBSP (R260 to R265, Table 09-3). -/
def execScrubsp (w : World) (all il : Bool) (sizeLog2 : BitVec 6) (s : State) : Out :=
  s.command fun m => m.tamper w Reg.tmpCmd 5 all il sizeLog2.toNat

/-- ABORT (R265). -/
def execAbort (w : World) (s : State) : Out := s.command fun m => m.tamper w Reg.tmpCmd 15 false false 0

/-- TMP_ACK: a write of TMP_CTL, from either world (R265). -/
def execTmpAck (_w : World) (data : W32) (s : State) : Out := s.command fun m => m.tmpCtl data

/-- INVCRM_SET (R262). -/
def execInvcrmSet (hs : SliceId) (s : State) : Out := s.run fun m => m.invSet hs.val

/-- FLUSHQW_SLOT (R235). -/
def execFlushqwSlot (hs : SliceId) (s : State) : Out := s.run fun m => Mach.fin (m.flushSlot hs.val)

/-- ZERO_LINE (R263). -/
def execZeroLine (s : State) : Out := s.run fun m => m.zeroNext

/-- SCRUBSP_BUCKET (R264). -/
def execScrubspBucket (s : State) : Out := s.run fun m => m.scrubNext

/-- CRM_DISABLE: a write of CRM_CTL (R257). -/
def execCrmDisable (w : World) (data : W32) (s : State) : Out := s.command fun m => m.crmCtl w Reg.crmCtl data

/-- CRM_ENABLE: a write of CRM_CTL (R259). -/
def execCrmEnable (w : World) (data : W32) (s : State) : Out := s.command fun m => m.crmCtl w Reg.crmCtl data

/-- PF_DISABLE: a write of CRM_CTL (R256). -/
def execPfDisable (w : World) (data : W32) (s : State) : Out := s.command fun m => m.crmCtl w Reg.crmCtl data

/-- PREFETCH_ISSUE (R255). -/
def execPrefetchIssue (hs : SliceId) (s : State) : Out := s.run fun m => m.pfIssue hs.val

/-- PREFETCH_EXPIRY (R255). -/
def execPrefetchExpiry (hs : SliceId) (s : State) : Out := s.run fun m => m.pfExpire hs.val

/-- WAY_DISABLE, from either world (R250). -/
def execWayDisable (_w : World) (hs : SliceId) (wayDis : BitVec 8) (s : State) : Out :=
  s.command fun m => m.wayDis hs.val wayDis

/-- LOCK (R252). -/
def execLock (w : World) (sizeLog2 : BitVec 6) (s : State) : Out :=
  s.command fun m => m.lockCmd w Reg.crmLkcmd 1 sizeLog2.toNat

/-- UNLOCK (R252). -/
def execUnlock (w : World) (sizeLog2 : BitVec 6) (s : State) : Out :=
  s.command fun m => m.lockCmd w Reg.crmLkcmd 2 sizeLog2.toNat

/-- LOCK_LINE (R252). -/
def execLockLine (s : State) : Out := s.run fun m => m.lkNext true

/-- UNLOCK_LINE (R252). -/
def execUnlockLine (s : State) : Out := s.run fun m => m.lkNext false

/-- LOCK_WAY_HANDOVER (R251). -/
def execLockWayHandover (w : World) (sWays : BitVec 3) (s : State) : Out :=
  s.command fun m => m.lockWays w Reg.crmLkcfg sWays.toNat

/-- LOCK_WAY_WIPE_SET (R251). -/
def execLockWayWipeSet (hs : SliceId) (s : State) : Out := s.run fun m => m.wipeSet hs.val

end Sys2Proof.Machine
end

