-- ==== Sys2Proof/Machine/CmdTurn.lean ====
section
/-! DEFINITION. The meanings of the commands: turns that start or go on (chapters 04, 05, 10). -/

namespace Sys2Proof.Machine

/-- TURN_START: the next waiter on a key starts its turn (R122, R125). -/
def execTurnStart (hs : SliceId) (te : Fin 512) (s : State) : Out := s.run fun m => Mach.fin (m.turnStart hs.val te.val)

/-- TURN_RESUME: a turn that waited for room goes on (R275). -/
def execTurnResume (hs : SliceId) (te : Fin 512) (s : State) : Out := s.run fun m => Mach.fin (m.resume hs.val te.val false)

/-- WAY_CHOICE_RETRY: a turn that waited for a way chooses again (R91). -/
def execWayChoiceRetry (hs : SliceId) (te : Fin 512) (s : State) : Out :=
  s.run fun m => Mach.fin (m.resume hs.val te.val true)

end Sys2Proof.Machine
end

