-- ==== Sys2Proof/Machine/Dispatch.lean ====
section
/-! DEFINITION. The effect of a command on everything but the queue: one arm per constructor of `Instr`. -/

namespace Sys2Proof.Machine

def exec (i : Instr) (s : State) : Host.Outcome State Fault Refusal :=
  match i with
  | .rds r => Sys2Proof.Machine.execRds r s
  | .rdo r => Sys2Proof.Machine.execRdo r s
  | .rdc r => Sys2Proof.Machine.execRdc r s
  | .upg r => Sys2Proof.Machine.execUpg r s
  | .wrl r => Sys2Proof.Machine.execWrl r s
  | .wrp r mask => Sys2Proof.Machine.execWrp r mask s
  | .wbd r => Sys2Proof.Machine.execWbd r s
  | .evh r => Sys2Proof.Machine.execEvh r s
  | .atm r aop a b => Sys2Proof.Machine.execAtm r aop a b s
  | .rsl r => Sys2Proof.Machine.execRsl r s
  | .scd r => Sys2Proof.Machine.execScd r s
  | .bar r => Sys2Proof.Machine.execBar r s
  | .mcl r => Sys2Proof.Machine.execMcl r s
  | .qenq r qid n word => Sys2Proof.Machine.execQenq r qid n word s
  | .qenq8 r qid n => Sys2Proof.Machine.execQenq8 r qid n s
  | .qdeq r qid n => Sys2Proof.Machine.execQdeq r qid n s
  | .qpeek r qid n => Sys2Proof.Machine.execQpeek r qid n s
  | .qmark r qid n => Sys2Proof.Machine.execQmark r qid n s
  | .qrewind r qid n => Sys2Proof.Machine.execQrewind r qid n s
  | .qrelease r qid n => Sys2Proof.Machine.execQrelease r qid n s
  | .turnStart hs te => Sys2Proof.Machine.execTurnStart hs te s
  | .turnResume hs te => Sys2Proof.Machine.execTurnResume hs te s
  | .wayChoiceRetry hs te => Sys2Proof.Machine.execWayChoiceRetry hs te s
  | .sri r => Sys2Proof.Machine.execSri r s
  | .srs r => Sys2Proof.Machine.execSrs r s
  | .srf r => Sys2Proof.Machine.execSrf r s
  | .srfo r => Sys2Proof.Machine.execSrfo r s
  | .dtw d => Sys2Proof.Machine.execDtw d s
  | .forwardedDat port op agent tid psn data => Sys2Proof.Machine.execForwardedDat port op agent tid psn data s
  | .forwarderRspRelease port => Sys2Proof.Machine.execForwarderRspRelease port s
  | .mrt port htag psn ue data => Sys2Proof.Machine.execMrt port htag psn ue data s
  | .mwc port htag => Sys2Proof.Machine.execMwc port htag s
  | .bisnp port form len off biId biTag => Sys2Proof.Machine.execBisnp port form len off biId biTag s
  | .mbs port => Sys2Proof.Machine.execMbs port s
  | .mbr port => Sys2Proof.Machine.execMbr port s
  | .retireNote port => Sys2Proof.Machine.execRetireNote port s
  | .mclClearNotice port => Sys2Proof.Machine.execMclClearNotice port s
  | .messageFlitReceive port flit => Sys2Proof.Machine.execMessageFlitReceive port flit s
  | .flitCrcFail flit => Sys2Proof.Machine.execFlitCrcFail flit s
  | .nak flit ackSeq => Sys2Proof.Machine.execNak flit ackSeq s
  | .idle port ack => Sys2Proof.Machine.execIdle port ack s
  | .init flit ptype ver => Sys2Proof.Machine.execInit flit ptype ver s
  | .cradv flit cr => Sys2Proof.Machine.execCradv flit cr s
  | .resume flit lastSeq valid => Sys2Proof.Machine.execResume flit lastSeq valid s
  | .replayTimeout port => Sys2Proof.Machine.execReplayTimeout port s
  | .txReplayTimer port => Sys2Proof.Machine.execTxReplayTimer port s
  | .retrainRequest port => Sys2Proof.Machine.execRetrainRequest port s
  | .retrainComplete port rate lanes => Sys2Proof.Machine.execRetrainComplete port rate lanes s
  | .retrainTimeout port => Sys2Proof.Machine.execRetrainTimeout port s
  | .linkTrained port rate lanes => Sys2Proof.Machine.execLinkTrained port rate lanes s
  | .linkTrainTimeout port => Sys2Proof.Machine.execLinkTrainTimeout port s
  | .l1Entry port => Sys2Proof.Machine.execL1Entry port s
  | .l1Exit port => Sys2Proof.Machine.execL1Exit port s
  | .snoopResponseTimeout hs te => Sys2Proof.Machine.execSnoopResponseTimeout hs te s
  | .evictVictim hs off => Sys2Proof.Machine.execEvictVictim hs off s
  | .copyRemoval hs off => Sys2Proof.Machine.execCopyRemoval hs off s
  | .recount hs => Sys2Proof.Machine.execRecount hs s
  | .rebuildStart hs => Sys2Proof.Machine.execRebuildStart hs s
  | .setSweepTag hs => Sys2Proof.Machine.execSetSweepTag hs s
  | .bankAutoOff hs bank => Sys2Proof.Machine.execBankAutoOff hs bank s
  | .evacuate w hs bank => Sys2Proof.Machine.execEvacuate w hs bank s
  | .bankPowerOn w hs bank => Sys2Proof.Machine.execBankPowerOn w hs bank s
  | .evacuationAbort w hs bank => Sys2Proof.Machine.execEvacuationAbort w hs bank s
  | .evacuationMove hs => Sys2Proof.Machine.execEvacuationMove hs s
  | .sfPartitionEnable w data => Sys2Proof.Machine.execSfPartitionEnable w data s
  | .rmpInv w all sizeLog2 => Sys2Proof.Machine.execRmpInv w all sizeLog2 s
  | .rcDisable w => Sys2Proof.Machine.execRcDisable w s
  | .predClr w data => Sys2Proof.Machine.execPredClr w data s
  | .predClearDone => Sys2Proof.Machine.execPredClearDone s
  | .wcEnClear w data => Sys2Proof.Machine.execWcEnClear w data s
  | .eackOffSet w data => Sys2Proof.Machine.execEackOffSet w data s
  | .wcBufferTimeout hs buf => Sys2Proof.Machine.execWcBufferTimeout hs buf s
  | .create w => Sys2Proof.Machine.execCreate w s
  | .destroy w => Sys2Proof.Machine.execDestroy w s
  | .reset w => Sys2Proof.Machine.execReset w s
  | .info w => Sys2Proof.Machine.execInfo w s
  | .pageout w => Sys2Proof.Machine.execPageout w s
  | .qobDisable w => Sys2Proof.Machine.execQobDisable w s
  | .queueHandOver w newFirst => Sys2Proof.Machine.execQueueHandOver w newFirst s
  | .handOverQid => Sys2Proof.Machine.execHandOverQid s
  | .invcrm w all il sizeLog2 => Sys2Proof.Machine.execInvcrm w all il sizeLog2 s
  | .flushqw w all il sizeLog2 => Sys2Proof.Machine.execFlushqw w all il sizeLog2 s
  | .invrc w all il sizeLog2 => Sys2Proof.Machine.execInvrc w all il sizeLog2 s
  | .zero w all il sizeLog2 => Sys2Proof.Machine.execZero w all il sizeLog2 s
  | .scrubsp w all il sizeLog2 => Sys2Proof.Machine.execScrubsp w all il sizeLog2 s
  | .abort w => Sys2Proof.Machine.execAbort w s
  | .tmpAck w data => Sys2Proof.Machine.execTmpAck w data s
  | .invcrmSet hs => Sys2Proof.Machine.execInvcrmSet hs s
  | .flushqwSlot hs => Sys2Proof.Machine.execFlushqwSlot hs s
  | .zeroLine => Sys2Proof.Machine.execZeroLine s
  | .scrubspBucket => Sys2Proof.Machine.execScrubspBucket s
  | .crmDisable w data => Sys2Proof.Machine.execCrmDisable w data s
  | .crmEnable w data => Sys2Proof.Machine.execCrmEnable w data s
  | .pfDisable w data => Sys2Proof.Machine.execPfDisable w data s
  | .prefetchIssue hs => Sys2Proof.Machine.execPrefetchIssue hs s
  | .prefetchExpiry hs => Sys2Proof.Machine.execPrefetchExpiry hs s
  | .wayDisable w hs wayDis => Sys2Proof.Machine.execWayDisable w hs wayDis s
  | .lock w sizeLog2 => Sys2Proof.Machine.execLock w sizeLog2 s
  | .unlock w sizeLog2 => Sys2Proof.Machine.execUnlock w sizeLog2 s
  | .lockLine => Sys2Proof.Machine.execLockLine s
  | .unlockLine => Sys2Proof.Machine.execUnlockLine s
  | .lockWayHandover w sWays => Sys2Proof.Machine.execLockWayHandover w sWays s
  | .lockWayWipeSet hs => Sys2Proof.Machine.execLockWayWipeSet hs s
  | .quiesce w port on => Sys2Proof.Machine.execQuiesce w port on s
  | .portFenceCmd w port => Sys2Proof.Machine.execPortFenceCmd w port s
  | .lctlRetrain w port => Sys2Proof.Machine.execLctlRetrain w port s
  | .softReset w => Sys2Proof.Machine.execSoftReset w s
  | .sliceReset w hs => Sys2Proof.Machine.execSliceReset w hs s
  | .portReset w ptype num => Sys2Proof.Machine.execPortReset w ptype num s
  | .warmReset => Sys2Proof.Machine.execWarmReset s
  | .resetDrainDone => Sys2Proof.Machine.execResetDrainDone s
  | .zeroiseEntry hs => Sys2Proof.Machine.execZeroiseEntry hs s
  | .por => Sys2Proof.Machine.execPor s
  | .porRelease => Sys2Proof.Machine.execPorRelease s
  | .bringupStepDone img => Sys2Proof.Machine.execBringupStepDone img s
  | .domainOn w dom => Sys2Proof.Machine.execDomainOn w dom s
  | .domainOff w dom => Sys2Proof.Machine.execDomainOff w dom s
  | .domainWakeDone dom => Sys2Proof.Machine.execDomainWakeDone dom s
  | .domainDrainDone dom => Sys2Proof.Machine.execDomainDrainDone dom s
  | .slicePowerDown hs => Sys2Proof.Machine.execSlicePowerDown hs s
  | .sliceWake hs => Sys2Proof.Machine.execSliceWake hs s
  | .sliceClockGate hs => Sys2Proof.Machine.execSliceClockGate hs s
  | .sliceClockRestart hs => Sys2Proof.Machine.execSliceClockRestart hs s
  | .freqSet w data => Sys2Proof.Machine.execFreqSet w data s
  | .freqRelockDone => Sys2Proof.Machine.execFreqRelockDone s
  | .tmon0Trip => Sys2Proof.Machine.execTmon0Trip s
  | .tmon0Clear => Sys2Proof.Machine.execTmon0Clear s
  | .tmon1Trip => Sys2Proof.Machine.execTmon1Trip s
  | .vmonTrip k => Sys2Proof.Machine.execVmonTrip k s
  | .watchdogExpiry k => Sys2Proof.Machine.execWatchdogExpiry k s
  | .controllerRestart k => Sys2Proof.Machine.execControllerRestart k s
  | .opsecTick => Sys2Proof.Machine.execOpsecTick s
  | .configParityScan addr bytes => Sys2Proof.Machine.execConfigParityScan addr bytes s
  | .faultWindowExpiry win => Sys2Proof.Machine.execFaultWindowExpiry win s
  | .fltReleaseHead w => Sys2Proof.Machine.execFltReleaseHead w s
  | .fltClearLost w src => Sys2Proof.Machine.execFltClearLost w src s
  | .safeStateDeadline => Sys2Proof.Machine.execSafeStateDeadline s
  | .safeStateWritesDone => Sys2Proof.Machine.execSafeStateWritesDone s
  | .safeStateFlushDone => Sys2Proof.Machine.execSafeStateFlushDone s
  | .rehomeCmd w hs => Sys2Proof.Machine.execRehomeCmd w hs s
  | .rehomePrepDone => Sys2Proof.Machine.execRehomePrepDone s
  | .rehomeFreezeDone => Sys2Proof.Machine.execRehomeFreezeDone s
  | .rehomeCopySet => Sys2Proof.Machine.execRehomeCopySet s
  | .ownerSweepSet hs => Sys2Proof.Machine.execOwnerSweepSet hs s
  | .recordFlushWrite bufErr writeErr => Sys2Proof.Machine.execRecordFlushWrite bufErr writeErr s
  | .flushBudgetResume => Sys2Proof.Machine.execFlushBudgetResume s
  | .recorderHeadScanDone => Sys2Proof.Machine.execRecorderHeadScanDone s
  | .snapshotDone read => Sys2Proof.Machine.execSnapshotDone read s
  | .recPeriodTrigger => Sys2Proof.Machine.execRecPeriodTrigger s
  | .freezeTimeout => Sys2Proof.Machine.execFreezeTimeout s
  | .flush w => Sys2Proof.Machine.execFlush w s
  | .freeze w => Sys2Proof.Machine.execFreeze w s
  | .unfreeze w => Sys2Proof.Machine.execUnfreeze w s
  | .first w => Sys2Proof.Machine.execFirst w s
  | .last w => Sys2Proof.Machine.execLast w s
  | .next w => Sys2Proof.Machine.execNext w s
  | .prev w => Sys2Proof.Machine.execPrev w s
  | .seek w => Sys2Proof.Machine.execSeek w s
  | .ack w => Sys2Proof.Machine.execAck w s
  | .snap w sets => Sys2Proof.Machine.execSnap w sets s
  | .snapsetHandover w set world => Sys2Proof.Machine.execSnapsetHandover w set world s
  | .mbistStart w hs tgt bank => Sys2Proof.Machine.execMbistStart w hs tgt bank s
  | .mbistAbort w => Sys2Proof.Machine.execMbistAbort w s
  | .mbistStageDone fail => Sys2Proof.Machine.execMbistStageDone fail s
  | .lbistStart w => Sys2Proof.Machine.execLbistStart w s
  | .lbistDone res0 res1 => Sys2Proof.Machine.execLbistDone res0 res1 s
  | .grant w => Sys2Proof.Machine.execGrant w s
  | .deny w => Sys2Proof.Machine.execDeny w s
  | .lcProvision w => Sys2Proof.Machine.execLcProvision w s
  | .lcDeploy w => Sys2Proof.Machine.execLcDeploy w s
  | .lcRma w => Sys2Proof.Machine.execLcRma w s
  | .lcDecommission w => Sys2Proof.Machine.execLcDecommission w s
  | .debugAuthCheck w => Sys2Proof.Machine.execDebugAuthCheck w s
  | .lifecycleStageDone => Sys2Proof.Machine.execLifecycleStageDone s
  | .patchRaise w ctrl => Sys2Proof.Machine.execPatchRaise w ctrl s
  | .hsEinj w hs data => Sys2Proof.Machine.execHsEinj w hs data s
  | .mspRead w hs array chunk => Sys2Proof.Machine.execMspRead w hs array chunk s
  | .mspReadDone hs => Sys2Proof.Machine.execMspReadDone hs s
  | .hscClr w hs freeze => Sys2Proof.Machine.execHscClr w hs freeze s
  | .hscFreeze w hs on => Sys2Proof.Machine.execHscFreeze w hs on s
  | .pctlClr w port freeze => Sys2Proof.Machine.execPctlClr w port freeze s
  | .pctlFreeze w port on => Sys2Proof.Machine.execPctlFreeze w port on s
  | .pgLock w page => Sys2Proof.Machine.execPgLock w page s
  | .loRead w addr => Sys2Proof.Machine.execLoRead w addr s
  | .pairHiWrite w addr data => Sys2Proof.Machine.execPairHiWrite w addr data s
  | .registerWrite w addr data => Sys2Proof.Machine.execRegisterWrite w addr data s
  | .mgmtPerr => Sys2Proof.Machine.execMgmtPerr s
  | .controllerFault k trap pc => Sys2Proof.Machine.execControllerFault k trap pc s
  | .sliceControlLogicFault hs => Sys2Proof.Machine.execSliceControlLogicFault hs s

end Sys2Proof.Machine
end

