-- ==== Sys2Proof/Safety.lean ====
section
/-! DEFINITION. What the statements speak of: the canonical form of the record store, the state a command leaves, what an agent may
send, and the classes of commands that reach the stores outside the machine. -/

namespace Sys2Proof.Machine

-- ===== stores in canonical form =====

/-- The canonical form of a store: addresses strictly rising, no byte equal to what an unlisted address reads as. -/
def Memory.wf (b : Bytes) : Bool := SMap.wf (0 : BitVec 8) b

/-- The invariant of every step: the record store is in canonical form. -/
def State.StoreCanonical (s : State) : Prop := Memory.wf s.store = true

/-- A run of ones from bit 0: how many bits of a fuse word are burned (R408). -/
def thermometer (v : W32) : Prop := ∃ k, k ≤ 32 ∧ v.toNat = 2 ^ k - 1

/-- The invariant of every step: each copy of the lifecycle state is one of the five states of Table 15-4, and each minimum is a
thermometer (R401, R405, R408). -/
def State.FusesLegal (s : State) : Prop :=
  (∀ c : Fin 3, s.fuse.lc[c].toNat ≤ 4) ∧ ∀ c : Fin 3, thermometer s.fuse.min[c]

-- ===== the bytes a flush write stores (R354, R355) =====

/-- Where in its block the next record starts: after the header of a block that is entered now. -/
def State.writeOff (s : State) : Nat := if s.m.rcr.off = 0 then 64 else s.m.rcr.off

/-- The block a record goes on in. -/
def State.nextOf (s : State) : Nat :=
  let t := if s.m.rcr.off = 0 then s.enterBlk s.m.rcr.blk s.m.rcr.lap 64 else s
  (nextBlk t.badBlk s.m.rcr.blk s.m.rcr.lap).1

/-- Is byte `a` one that writing a record of `n` bytes stores? -/
def State.writesByte (s : State) (n a : Nat) : Prop :=
  let b := s.m.rcr.blk * 4096
  (s.m.rcr.off = 0 ∧ b ≤ a ∧ a < b + 64) ∨
  (b + s.writeOff ≤ a ∧ a < b + s.writeOff + min n (4096 - s.writeOff)) ∨
  (4096 - s.writeOff < n ∧ s.nextOf * 4096 ≤ a ∧ a < s.nextOf * 4096 + 64 + (n - (4096 - s.writeOff)))

-- ===== the state a command leaves =====

/-- The state with the machine as the command leaves it, once what follows of its own accord has taken place. -/
def State.after (s : State) (m : Mach) : State := { s with m }.settle

/-- The same for a request that the management port answers OK (R304). -/
def State.replied (s : State) (m : Mach) : State := s.after { m with resp := (.ok, 0) }

/-- The same for a request that reaches the stores outside the machine. -/
def State.answered (s : State) : State := { s with m := { s.m with resp := (.ok, 0) } }.settle

-- ===== what an agent may send =====

/-- A port takes message flits from an agent behind it that is not fenced (R50, R285). -/
def Mach.hears (m : Mach) (p : PortId) (a : BitVec 5) : Bool :=
  m.portIn p.val && !(decide (16 ≤ p.val) && decide (p.val < 24)) && behind p.val a.toNat && !m.agFenced a.toNat

/-- A REQ that its port takes: its layout is right, its tid is free, and Tribex is in service (R48, R51, R337, R378). -/
def Mach.takesReq (m : Mach) (i : Instr) (r : Req) : Bool :=
  m.hears r.port r.agent && !badReq i r && !((m.port r.port.val).outs.any fun o => o.agent = r.agent && o.tid = r.tid && !o.ended) &&
  m.safe.isNone && m.drain.isNone

/-- The agent has no other request outstanding on the line (R53). -/
def Mach.lineFree (m : Mach) (r : Req) (off : Off) : Bool :=
  !((m.port r.port.val).outs.any fun o => o.agent = r.agent && o.key = some (keyOf off) && !o.ended)

/-- A request joins the queue of its port, and the requests outstanding there. -/
def Mach.joins (m : Mach) (q : Held) (o : List Outst) : Mach :=
  m.modP q.r.port.val fun v => { v with heldq := v.heldq ++ [q], outs := v.outs ++ o }

/-- A line request as its port holds it: the logical slice is the fold of its offset (R28). -/
def lineHeld (i : Instr) (r : Req) (off : Off) (wr : Bool) : Held :=
  { req := i, r, ls := (lsOf off).toNat, key := keyOf off, wrk := wr, qid := false }

/-- A line request outstanding at its port; `wr` where its DTW is still to come. -/
def lineOut (r : Req) (off : Off) (wr : Bool) : List Outst := [{ agent := r.agent, tid := r.tid, key := some (keyOf off), dtw := wr, at_ := none }]

/-- A queue operation as its port holds it: the logical slice is QID[4:0] (R29). -/
def queueHeld (i : Instr) (r : Req) (qid : BitVec 20) (wr : Bool) : Held :=
  { req := i, r, ls := qid.toNat % 32, key := qid.setWidth 40, wrk := wr, qid := true }

/-- A request without an address, outstanding at its port. -/
def plainOut (r : Req) (wr : Bool) : List Outst := [{ agent := r.agent, tid := r.tid, key := none, dtw := wr, at_ := none }]

/-- BAR and MCL go to no slice (R79). -/
def barHeld (i : Instr) (r : Req) : Held := { req := i, r, ls := 32, key := 0, wrk := false, qid := true }

/-- What waits at the ports passes on as far as it can. -/
def Mach.passOn (m : Mach) : Mach := Mach.fin m.passHeld

-- ===== classes of commands =====

/-- Commands that may write the record store. -/
def storesRecords : Instr → Bool
  | .recordFlushWrite _ _ | .controllerRestart _ | .safeStateFlushDone | .lifecycleStageDone | .bringupStepDone _ => true
  | _ => false

/-- Commands that may burn fuses. -/
def burnsFuses : Instr → Bool
  | .lifecycleStageDone | .por | .patchRaise _ _ | .grant _ | .registerWrite _ _ _ | .pairHiWrite _ _ _ => true
  | _ => false

/-- Commands that may write the counter store of the always-on island (R373). -/
def writesCounters : Instr → Bool
  | .opsecTick | .tmon1Trip | .vmonTrip _ => true
  | _ => false

end Sys2Proof.Machine
end

