-- ==== Sys2Proof/Certificates/Slice0/Obligations.lean ====
section
/-! DEFINITION. The statements for the provers. -/

open Sys2Proof Sys2Proof.Machine

/-- A write to a reserved page has no effect and leaves no record. A write of PWR_CTL, PWR_LPIDLE, GLB_ATMFAR or FLT_CTL (the last from the
S world) in any window stores the RW fields as the operation of the window gives. A write of TMP_BASE_HI or CRM_LKBASE_HI commits both
halves with the held _LO of its world, or its own half where none is held; a write of their _LO is held. A read of a _LO register
returns it and latches its _HI partner for its world; a read of _HI returns that latch; another register returns its value. A request
whose parity fails answers PERR with no effect. Each answers at once. (R4, R7, R20, R304, R411.) -/
def Obligations.ManagementRequestsAreServed : Prop :=
  (∀ (s : State) (w : World) (addr : BitVec 20) (data : W32),
    s.m.up = true → (pageRows s.m.integ (addr.toNat / 0x1000)).isNone = true →
    exec (.registerWrite w addr data) s =
      .next (s.replied (s.m))) ∧
  (∀ (s : State) (w : World) (win : Fin 4) (a : Nat) (data : W32),
    s.m.up = true → (a = Reg.pwrCtl ∨ a = Reg.pwrLpidle ∨ a = Reg.glbAtmfar ∨ a = Reg.fltCtl ∧ w = .s) →
    exec (.registerWrite w (BitVec.ofNat 20 (a + win.val * 0x400)) data) s =
      .next (s.replied (s.m.setReg a (mergeWrite win.val (match regRow s.m.integ a with | some r => r.rw | none => 0) 0 (s.m.reg a) data)))) ∧
  (∀ (s : State) (w : World) (a : Nat) (lo data : W32),
    s.m.up = true → (a = Reg.tmpBaseLo ∨ a = Reg.crmLkbaseLo) → s.m.heldLo.get none (worldReg w (a + 4) - 4) = some lo →
    exec (.pairHiWrite w (BitVec.ofNat 20 (a + 4)) data) s =
      .next (s.replied (let k := fun (a : Nat) => match regRow s.m.integ a with | some r => r.rw ||| r.rwl | none => 0; let m := s.m.setReg a ((s.m.reg a &&& ~~~ k a) ||| (lo &&& k a)); ({ m with heldLo := m.heldLo.set none (worldReg w (a + 4) - 4) none } : Mach).setReg (a + 4) ((m.reg (a + 4) &&& ~~~ k (a + 4)) ||| (mergeWrite 0 (k (a + 4)) 0 (s.m.reg (a + 4)) data &&& k (a + 4)))))) ∧
  (∀ (s : State) (w : World) (a : Nat) (data : W32),
    s.m.up = true → (a = Reg.tmpBaseLo ∨ a = Reg.crmLkbaseLo) →
    exec (.registerWrite w (BitVec.ofNat 20 a) data) s =
      .next (s.replied ({ s.m with heldLo := s.m.heldLo.set none (worldReg w a) (some data) }))) ∧
  (∀ (s : State) (w : World) (addr : BitVec 20),
    s.m.up = true → s.m.half (primary addr.toNat) = 1 →
    exec (.loRead w addr) s =
      .next ({ s with m := { s.m with latch := s.m.latch.set 0 (worldReg w (primary addr.toNat) + 4) (s.view w (primary addr.toNat + 4)), resp := (.ok, s.view w (primary addr.toNat)) } })) ∧
  (∀ (s : State) (w : World) (addr : BitVec 20),
    s.m.up = true → s.m.half (primary addr.toNat) = 2 →
    exec (.loRead w addr) s =
      .next ({ s with m := { s.m with resp := (.ok, if primary addr.toNat / 0x1000 = 3 ∧ w = .ns ∧ s.m.lcState ≠ 0 then 0 else s.m.latch.get 0 (worldReg w (primary addr.toNat))) } })) ∧
  (∀ (s : State) (w : World) (addr : BitVec 20),
    s.m.up = true → s.m.half (primary addr.toNat) = 0 → primary addr.toNat ≠ Reg.aonUsec →
    exec (.loRead w addr) s =
      .next ({ s with m := { s.m with resp := (.ok, s.view w (primary addr.toNat)) } })) ∧
  (∀ (s : State),
    s.m.up = true →
    exec .mgmtPerr s =
      .next ({ s with m := { s.m with resp := (.perr, 0) } }))

/-- SOFT and SLICE resets, the QID and lock-way hand-overs, RMP_INV, clearing rc_en, RVP_RHCMD, the logic self-test, HS_EINJ, the side port
and REC_SSCFGk.world: from the NS world the write has no effect but its record in the PG_ERR of its page with cause WORLD and, where the
register has one, its result field. (R43, R45, R237, R251, R339, R347, R376, R387, R419, R430, R431.) -/
def Obligations.SecureCommandsRefuseTheNormalWorld : Prop :=
  (∀ (s : State),
    s.m.up = true →
    exec (.softReset .ns) s =
      .next (s.replied ((s.m.setFld Reg.rstStat 0 4 2).refuse .ns Reg.rstCmd .world))) ∧
  (∀ (s : State) (hs : BitVec 6),
    s.m.up = true →
    exec (.sliceReset .ns hs) s =
      .next (s.replied ((s.m.setFld Reg.rstStat 0 4 2).refuse .ns Reg.rstCmd .world))) ∧
  (∀ (s : State) (n : BitVec 11),
    s.m.up = true →
    exec (.queueHandOver .ns n) s =
      .next (s.replied (s.m.refuse .ns Reg.qobHo .world))) ∧
  (∀ (s : State) (n : BitVec 3),
    s.m.up = true →
    exec (.lockWayHandover .ns n) s =
      .next (s.replied (s.m.refuse .ns Reg.crmLkcfg .world))) ∧
  (∀ (s : State) (all : Bool) (n : BitVec 6),
    s.m.up = true →
    exec (.rmpInv .ns all n) s =
      .next (s.replied (s.m.refuse .ns Reg.rmpInv .world))) ∧
  (∀ (s : State),
    s.m.up = true →
    exec (.rcDisable .ns) s =
      .next (s.replied (s.m.refuse .ns Reg.rmpCtl .world))) ∧
  (∀ (s : State) (hs : BitVec 6),
    s.m.up = true →
    exec (.rehomeCmd .ns hs) s =
      .next (s.replied (s.m.refuse .ns Reg.rvpRhcmd .world))) ∧
  (∀ (s : State),
    s.m.up = true →
    exec (.lbistStart .ns) s =
      .next (s.replied ((s.m.setFld Reg.tstLbstat 0 4 2).refuse .ns Reg.tstLbcmd .world))) ∧
  (∀ (s : State) (hs : SliceId) (data : W32),
    s.m.up = true →
    exec (.hsEinj .ns hs data) s =
      .next (s.replied (s.m.refuse .ns (hsA hs.val Reg.hsEinj) .world))) ∧
  (∀ (s : State) (hs : SliceId) (a : BitVec 4) (c : BitVec 2),
    s.m.up = true →
    exec (.mspRead .ns hs a c) s =
      .next (s.replied ((s.m.setFld (hsA hs.val Reg.hsMspStat) 0 4 2).refuse .ns (hsA hs.val Reg.hsMspCmd) .world))) ∧
  (∀ (s : State) (k : Fin 8) (w : World),
    s.m.up = true →
    exec (.snapsetHandover .ns k w) s =
      .next (s.replied (s.m.refuse .ns (Reg.recSscfg + 4 * k.val) .world)))

/-- For every state, command and rest of the queue: where the command stands at the front, step answers what exec answers on the same state
with only the rest waiting. (spec/opcode_table.json, Architecture and Planes.) -/
def Obligations.StepRunsTheFrontCommand : Prop :=
  ∀ (s : State) (c : Instr) (rest : List Instr), step { s with pending := c :: rest } = exec c { s with pending := rest }

/-- For every state whose queue is empty, step answers that state. That the block does nothing of its own between commands is the choice of
the model, log entry 1. (spec/opcode_table.json, Architecture and Planes.) -/
def Obligations.EmptyQueueIdles : Prop :=
  ∀ s : State, s.pending = [] → step s = .next s

/-- For every command and state there is a state that exec answers next. A command that a rule refuses answers the state with its refusal in
it. (R8, R20, R415.) -/
def Obligations.EveryCommandAnswers : Prop :=
  ∀ (c : Instr) (s : State), ∃ t : State, exec c s = .next t

/-- State.reset: the management plane is in POR, HSn serves LSn for n up to 31, HS32 and HS33 are spares, GLB_LSMAP0-7 give that mapping,
PWR_CTL reads 2, PWR_FREQ holds thr 12 and set fmax, the comparator thresholds are those of Table 14-4, every domain is OFF, every port
is DOWN with no credits, the queue is empty and no table lists anything. (R11, R361, R376, R389.) -/
def Obligations.ResetMapsAndClears : Prop :=
  (∀ h : Fin 32, (State.reset.m.slice h.val).role = .active ∧ (State.reset.m.slice h.val).ls = h.val ∧ State.reset.m.hsOf h.val = h.val) ∧
  (State.reset.m.slice 32).role = .spare ∧ (State.reset.m.slice 33).role = .spare ∧
  State.reset.m.reg Reg.pwrCtl = 2 ∧ State.reset.m.fld Reg.pwrFreq 16 5 = 12 ∧ State.reset.m.fld Reg.pwrFreq 0 5 = State.reset.m.integ.fmax.toNat ∧
  (State.reset.m.fld Reg.aonVcfg 0 10, State.reset.m.fld (Reg.aonVcfg + 4) 0 10, State.reset.m.fld (Reg.aonVcfg + 8) 0 10, State.reset.m.fld (Reg.aonVcfg + 12) 0 10) = (680, 680, 720, 600) ∧
  (∀ d : Fin 247, State.reset.m.dom d.val = .off) ∧ (∀ p : Fin 28, State.reset.m.port p.val = {}) ∧
  State.reset.m.up = false ∧ State.reset.pending = [] ∧ State.reset.store = [] ∧ State.reset.m.caps = [] ∧ State.reset.m.step = 0

/-- For every state whose record store lists its addresses strictly rising and no byte equal to what an unlisted address reads as, and every
next state of step from it, the record store of that state is in the same form. (R354, R355, R356, R405.) -/
def Obligations.StepKeepsStoreCanonical : Prop :=
  ∀ s t : State, s.StoreCanonical → step s = .next t → t.StoreCanonical

/-- For every state whose three lifecycle copies are each one of the five states of Table 15-4 and whose three security-version minima are
each a run of ones from bit 0, and every next state of step from it, the fuses of that state have the same properties. (R405, R408.) -/
def Obligations.StepKeepsFusesLegal : Prop :=
  ∀ s t : State, s.FusesLegal → step s = .next t → t.FusesLegal

/-- State.reset meets the invariants of StepKeepsStoreCanonical and StepKeepsFusesLegal. (R354, R405, R408.) -/
def Obligations.ResetMeetsTheInvariants : Prop :=
  State.reset.StoreCanonical ∧ State.reset.FusesLegal

/-- For every command, state and next state: the queue of waiting commands is unchanged. Unless the command is a flush write, a controller
restart, the end of the safe-state flush, a lifecycle stage or a bring-up step, the record store, its bad words and its erased marker
are unchanged. Unless it is a lifecycle stage, a POR (which may cut one short), PATCH_RAISE, GRANT or a register write, the fuses are.
Unless it is OPSEC_TICK, TMON1_TRIP or VMON_TRIP, the counter store is. POR keeps the queue and the other three stores. (R354, R373,
R376, R405, R408.) -/
def Obligations.CommandsLeaveOtherStoresAlone : Prop :=
  ∀ (c : Instr) (s t : State), exec c s = .next t →
  t.pending = s.pending ∧
  (storesRecords c = false → t.store = s.store ∧ t.storeBad = s.storeBad ∧ t.erased = s.erased) ∧
  (burnsFuses c = false → t.fuse = s.fuse) ∧
  (writesCounters c = false → t.cstore = s.cstore)

/-- For every command but POR and POR_RELEASE and every state held in POR in which nothing is left to follow and no credit waits: exec
answers the same state, but for the response of the management port. A management request is answered UNAVAIL. (R20, R304, R376.) -/
def Obligations.CommandsInPorDoNothing : Prop :=
  ∀ (c : Instr) (s : State), c ≠ .por → c ≠ .porRelease → s.m.up = false → s.m.still = true → ∃ r : MgmtSt × W32, exec c s = .next { s with m := { s.m with resp := r } } ∧ (r = s.m.resp ∨ r = (.unavail, 0))

/-- For every state whose machine is settled and whose ports have no credit to return, settling answers the same state; so the next states
of the other statements are exactly the machine they name wherever that machine is so. (R16, R314.) -/
def Obligations.SettledStatesStay : Prop :=
  ∀ s : State, s.m.still = true → s.settle = s

/-- For TMP_ACK, ACK, PG_LOCK, HS_EINJ, HSC_CLR, HSC_FREEZE, PCTL_CLR and PCTL_FREEZE, with any operands from either world, refused or not,
in every settled state out of POR with no credit to return: the next state differs from the state in registers and in the response OK of
the management port only. Every port, slice, domain, table, queue, buffer, engine, fuse and byte of a store is unchanged. (R265, R361,
R420, R430, R435, R440.) -/
def Obligations.CounterAndControlWritesTouchRegistersOnly : Prop :=
  ∀ (s : State) (w : World) (data : W32) (page : BitVec 8) (hs : SliceId) (port : PortId) (on : Bool) (c : Instr),
  s.m.up = true → s.m.still = true →
  c ∈ [.tmpAck w data, .ack w, .pgLock w page, .hsEinj w hs data, .hscClr w hs on, .hscFreeze w hs on, .pctlClr w port on, .pctlFreeze w port on] →
  ∃ regs : SMap W32, exec c s = .next { s with m := { s.m with regs, resp := (.ok, 0) } }

/-- For every table in canonical form with its default: after a write the key reads as the value written, and every other key reads as
before; two tables in canonical form that read the same everywhere are the same data. (R354.) -/
def Obligations.TablesReadBackWhatWasWritten : Prop :=
  (∀ (m : SMap (BitVec 8)) (d : BitVec 8) (n : Nat) (v : BitVec 8), SMap.wf d m = true →
    (SMap.set m d n v).get d n = v ∧ (∀ k, k ≠ n → (SMap.set m d n v).get d k = m.get d k)) ∧
  (∀ (m m' : SMap (BitVec 8)) (d : BitVec 8), SMap.wf d m = true → SMap.wf d m' = true → (∀ k, m.get d k = m'.get d k) → m = m')

/-- For a flush write that commits the oldest record, in a state with a canonical store: every byte of the record that fits in the block
reads at its place from the write position on (64 where the block is entered now); and every byte outside the record, the header of the
block entered now and, where the record goes on in the next block, that block's header and the rest of the record, reads as before.
(R350, R354, R355.) -/
def Obligations.FlushWritesOnlyItsRecord : Prop :=
  ∀ (s : State) (x : Rcd) (rest : List Rcd), s.m.up = true → s.StoreCanonical → s.m.rcr.buf = x :: rest → s.m.rcr.writes = true →
  (s.m.rcr.exempt = true ∨ s.m.rcr.spent + s.flushCost x.len ≤ flushBudget) → s.m.rcr.off ≤ 4096 →
  ∃ t : State, exec (.recordFlushWrite false false) s = .next t ∧
    (x.bytes.length ≤ 4096 - s.writeOff → ∀ i (h : i < x.bytes.length), byteAt t.store (s.m.rcr.blk * 4096 + s.writeOff + i) = x.bytes[i]) ∧
    (∀ a, ¬ s.writesByte x.bytes.length a → byteAt t.store a = byteAt s.store a)

/-- For every homed offset and each output bit j from 0 to 4, bit j of the logical slice is the exclusive-or of the offset bits 7 + j + 5k
for k from 0 upward while that is at most 45. (R28.) -/
def Obligations.LogicalSliceFoldsTheOffset : Prop :=
  ∀ off : Off,
  (lsOf off).getLsbD 0 = (off.getLsbD 7 ^^ off.getLsbD 12 ^^ off.getLsbD 17 ^^ off.getLsbD 22 ^^ off.getLsbD 27 ^^ off.getLsbD 32 ^^ off.getLsbD 37 ^^ off.getLsbD 42) ∧
  (lsOf off).getLsbD 1 = (off.getLsbD 8 ^^ off.getLsbD 13 ^^ off.getLsbD 18 ^^ off.getLsbD 23 ^^ off.getLsbD 28 ^^ off.getLsbD 33 ^^ off.getLsbD 38 ^^ off.getLsbD 43) ∧
  (lsOf off).getLsbD 2 = (off.getLsbD 9 ^^ off.getLsbD 14 ^^ off.getLsbD 19 ^^ off.getLsbD 24 ^^ off.getLsbD 29 ^^ off.getLsbD 34 ^^ off.getLsbD 39 ^^ off.getLsbD 44) ∧
  (lsOf off).getLsbD 3 = (off.getLsbD 10 ^^ off.getLsbD 15 ^^ off.getLsbD 20 ^^ off.getLsbD 25 ^^ off.getLsbD 30 ^^ off.getLsbD 35 ^^ off.getLsbD 40 ^^ off.getLsbD 45) ∧
  (lsOf off).getLsbD 4 = (off.getLsbD 11 ^^ off.getLsbD 16 ^^ off.getLsbD 21 ^^ off.getLsbD 26 ^^ off.getLsbD 31 ^^ off.getLsbD 36 ^^ off.getLsbD 41)

/-- For every homed offset: bit i of the set index is the exclusive-or of offset bits 7 + i, 21 + i and, for i up to 10, 35 + i; the tag is
offset[45:21]; and the sector of that index and tag is the sector of the offset, for every offset. (R82.) -/
def Obligations.SetIndexAndTagGiveBackTheSector : Prop :=
  ∀ off : Off,
  (∀ i, i < 11 → (setOf (secOf off)).getLsbD i = (off.getLsbD (7 + i) ^^ off.getLsbD (21 + i) ^^ off.getLsbD (35 + i))) ∧
  (∀ i, 11 ≤ i → i < 14 → (setOf (secOf off)).getLsbD i = (off.getLsbD (7 + i) ^^ off.getLsbD (21 + i))) ∧
  tagOf (secOf off) = off.extractLsb' 21 25 ∧
  off.extractLsb' 7 14 = (setOf (secOf off) ^^^ off.extractLsb' 21 14 ^^^ (off.extractLsb' 35 11).setWidth 14) ∧
  sectorOf (setOf (secOf off)) (tagOf (secOf off)) = secOf off

/-- For every word of up to 8 bytes: as written it has no bad byte; with one data bit i flipped exactly byte i / 8 is bad; with the parity
bit of byte k flipped exactly byte k is bad. (R85.) -/
def Obligations.ParityFindsEverySingleFlip : Prop :=
  ∀ n w, n ≤ 8 → w < 2 ^ (8 * n) →
  badBytes n (withPar n w) = [] ∧
  (∀ i, i < 8 * n → badBytes n (withPar n w ^^^ 2 ^ i) = [i / 8]) ∧
  (∀ k, k < n → badBytes n (withPar n w ^^^ 2 ^ (8 * n + k)) = [k])

/-- For every spill size 2^z with z from 28 to 34 and every sector: the bucket index is below the 2^(z-11) buckets of a share; its upper 14
bits are the set index and its lower z - 25 bits the fold of the tag, so that two sectors share a bucket only if both agree. (R93.) -/
def Obligations.BucketsLieInTheirShare : Prop :=
  ∀ (z : Nat) (a b : BitVec 39), 28 ≤ z → z ≤ 34 →
  bucketIdx z a < 2 ^ (z - 11) ∧ bucketIdx z a / 2 ^ (z - 25) = (setOf a).toNat ∧ bucketIdx z a % 2 ^ (z - 25) = thOf (z - 25) (tagOf a) ∧
  (bucketIdx z a = bucketIdx z b ↔ setOf a = setOf b ∧ thOf (z - 25) (tagOf a) = thOf (z - 25) (tagOf b))

/-- For every homed offset: the counter index is offset[17:6] xor offset[29:18] xor offset[41:30] xor offset[45:42], the Crema set
offset[15:6] xor offset[25:16] xor offset[35:26] xor offset[45:36]; and the two lines of any sector have different counters and
different sets. (R167, R242.) -/
def Obligations.LinesOfASectorHaveTheirOwnCounters : Prop :=
  (∀ off : Off, predIdx (keyOf off) = (off.extractLsb' 6 12 ^^^ off.extractLsb' 18 12 ^^^ off.extractLsb' 30 12 ^^^ (off.extractLsb' 42 4).setWidth 12).toNat ∧
    crmSet (keyOf off) = (off.extractLsb' 6 10 ^^^ off.extractLsb' 16 10 ^^^ off.extractLsb' 26 10 ^^^ off.extractLsb' 36 10).toNat) ∧
  (∀ sec : BitVec 39, predIdx (lineKey sec false) ≠ predIdx (lineKey sec true) ∧ crmSet (lineKey sec false) ≠ crmSet (lineKey sec true))

/-- For every state out of POR and either world, a read of PG_VER of the GLB page answers OK with 0x0000_4230, so that bits [15:8] hold "B",
bits [7:0] hold "0" and bits [31:16] are zero, and changes nothing else. (R1.) -/
def Obligations.GlobalVersionRegisterReads : Prop :=
  ∀ (s : State) (w : World), s.m.up = true → exec (.loRead w 0x4) s = .next { s with m := { s.m with resp := (.ok, 0x00004230) } }

/-- Where the port takes an RDS, RDO, RDC, UPG or RSL for a homed line, no request is held at any port, the home slice serves, has an entry
free and grants the port one: the request leaves the port at once, the port records the entry it is in, its REQ slot frees, the slice
has served the port last, and the lowest free entry of the slice accepts the request under its line key, with what acceptance releases.
(R118, R122, R271, R274.) -/
def Obligations.ReadAtIdlePortsTakesAnEntry : Prop :=
  ∀ (s : State) (r : Req) (off : Off) (c : Instr) (h t : Nat) (pool : Pool), c ∈ [.rds r, .rdo r, .rdc r, .upg r, .rsl r] →
  s.m.up = true → s.m.yard = none → s.m.takesReq c r = true → s.m.homed r.pa.toNat = some off → s.m.lineFree r off = true →
  (∀ p < 28, (s.m.port p).heldq = []) → h = s.m.hsOf (lsOf off).toNat → (s.m.slice h).ls = (lsOf off).toNat → s.m.serving h = true →
  s.m.grant h r.port.val false = some pool → (s.m.slice h).freeTe = some t →
  exec c s = .next (s.after (Mach.fin ((((s.m.modS h fun v => { v with rr := r.port.val }).modP r.port.val fun v => { v with
    outs := v.outs ++ [{ agent := r.agent, tid := r.tid, key := some (keyOf off), dtw := false, at_ := some ((lsOf off).toNat, t) }] }).credit r.port.val 1).accepted h t
      { tmpl c with pool, port := r.port.val, key := keyOf off })))

/-- For every state: a register write of REC_CMD, QOB_CMD, CRM_LKCMD, TMP_CMD (ABORT), PWR_DOMCMD, RST_CMD (SOFT), TST_LBCMD, RVP_RHCMD,
SEC_HELDCMD, SEC_LCCMD or FLT_RELEASE (head), with the value that names a command, answers exactly what that command answers: its
effect, its refusals and its records. (R228, R252, R265, R321, R339, R350, R357, R358, R365, R376, R400, R415.) -/
def Obligations.CommandRegisterWritesAreTheCommands : Prop :=
  ∀ (s : State) (w : World),
  (exec (.registerWrite w (BitVec.ofNat 20 Reg.recCmd) 1) s = exec (.flush w) s ∧ exec (.registerWrite w (BitVec.ofNat 20 Reg.recCmd) 2) s = exec (.freeze w) s ∧
   exec (.registerWrite w (BitVec.ofNat 20 Reg.recCmd) 3) s = exec (.unfreeze w) s ∧ exec (.registerWrite w (BitVec.ofNat 20 Reg.recCmd) 4) s = exec (.first w) s ∧
   exec (.registerWrite w (BitVec.ofNat 20 Reg.recCmd) 5) s = exec (.last w) s ∧ exec (.registerWrite w (BitVec.ofNat 20 Reg.recCmd) 6) s = exec (.next w) s ∧
   exec (.registerWrite w (BitVec.ofNat 20 Reg.recCmd) 7) s = exec (.prev w) s ∧ exec (.registerWrite w (BitVec.ofNat 20 Reg.recCmd) 8) s = exec (.seek w) s ∧
   exec (.registerWrite w (BitVec.ofNat 20 Reg.recCmd) 9) s = exec (.ack w) s ∧
   ∀ sets : BitVec 8, exec (.registerWrite w (BitVec.ofNat 20 Reg.recCmd) ((0 : BitVec 16) ++ sets ++ (0xA : BitVec 8))) s = exec (.snap w sets) s) ∧
  (exec (.registerWrite w (BitVec.ofNat 20 Reg.qobCmd) 1) s = exec (.create w) s ∧ exec (.registerWrite w (BitVec.ofNat 20 Reg.qobCmd) 2) s = exec (.destroy w) s ∧
   exec (.registerWrite w (BitVec.ofNat 20 Reg.qobCmd) 3) s = exec (.reset w) s ∧ exec (.registerWrite w (BitVec.ofNat 20 Reg.qobCmd) 4) s = exec (.info w) s ∧
   exec (.registerWrite w (BitVec.ofNat 20 Reg.qobCmd) 5) s = exec (.pageout w) s) ∧
  exec (.registerWrite w (BitVec.ofNat 20 Reg.tmpCmd) 15) s = exec (.abort w) s ∧
  (∀ n : BitVec 6, exec (.registerWrite w (BitVec.ofNat 20 Reg.crmLkcmd) ((0 : BitVec 18) ++ n ++ (1 : BitVec 8))) s = exec (.lock w n) s ∧
    exec (.registerWrite w (BitVec.ofNat 20 Reg.crmLkcmd) ((0 : BitVec 18) ++ n ++ (2 : BitVec 8))) s = exec (.unlock w n) s ∧
    exec (.registerWrite w (BitVec.ofNat 20 Reg.rvpRhcmd) ((1 : BitVec 1) ++ (0 : BitVec 25) ++ n)) s = exec (.rehomeCmd w n) s) ∧
  (∀ d : BitVec 8, exec (.registerWrite w (BitVec.ofNat 20 Reg.pwrDomcmd) ((1 : BitVec 24) ++ d)) s = exec (.domainOn w d) s ∧
    exec (.registerWrite w (BitVec.ofNat 20 Reg.pwrDomcmd) ((2 : BitVec 24) ++ d)) s = exec (.domainOff w d) s) ∧
  exec (.registerWrite w (BitVec.ofNat 20 Reg.rstCmd) 1) s = exec (.softReset w) s ∧ exec (.registerWrite w (BitVec.ofNat 20 Reg.tstLbcmd) 1) s = exec (.lbistStart w) s ∧
  exec (.registerWrite w (BitVec.ofNat 20 Reg.fltRelease) 1) s = exec (.fltReleaseHead w) s ∧
  (exec (.registerWrite w (BitVec.ofNat 20 Reg.secHeldcmd) 1) s = exec (.grant w) s ∧ exec (.registerWrite w (BitVec.ofNat 20 Reg.secHeldcmd) 2) s = exec (.deny w) s) ∧
  (exec (.registerWrite w (BitVec.ofNat 20 Reg.secLccmd) 1) s = exec (.lcProvision w) s ∧ exec (.registerWrite w (BitVec.ofNat 20 Reg.secLccmd) 2) s = exec (.lcDeploy w) s ∧
   exec (.registerWrite w (BitVec.ofNat 20 Reg.secLccmd) 3) s = exec (.lcRma w) s ∧ exec (.registerWrite w (BitVec.ofNat 20 Reg.secLccmd) 4) s = exec (.lcDecommission w) s ∧
   exec (.registerWrite w (BitVec.ofNat 20 Reg.secLccmd) 7) s = exec (.debugAuthCheck w) s)

/-- For RDS, RDO, RDC, UPG, WRL, WRP, WBD, EVH, ATM, RSL and SCD: where the Yard delivers, the port takes the REQ (it moves flits, is no
memory port, the agent is behind it and not fenced, the layout is right, the tid is free, Tribex is in service) and the address is
homed, and, but for EVH, the agent has no other request on the line, the command answers a next state. The request joins the queue of
its port under its line key and the logical slice of its offset. It is outstanding at the port (EVH never is), with its DTW to come for
WRL, WRP, WBD and SCD. Then what waits at the ports passes on. Nothing else changes but what follows of its own accord. (R27, R28, R53,
R54, R271.) -/
def Obligations.LineRequestsJoinTheirPort : Prop :=
  (∀ (s : State) (r : Req) (off : Off),
    s.m.up = true → s.m.yard = none → s.m.takesReq (.rds r) r = true → s.m.homed r.pa.toNat = some off → s.m.lineFree r off = true →
    exec (.rds r) s =
      .next (s.after ((s.m.joins (lineHeld (.rds r) r off false) (lineOut r off false)).passOn))) ∧
  (∀ (s : State) (r : Req) (off : Off),
    s.m.up = true → s.m.yard = none → s.m.takesReq (.rdo r) r = true → s.m.homed r.pa.toNat = some off → s.m.lineFree r off = true →
    exec (.rdo r) s =
      .next (s.after ((s.m.joins (lineHeld (.rdo r) r off false) (lineOut r off false)).passOn))) ∧
  (∀ (s : State) (r : Req) (off : Off),
    s.m.up = true → s.m.yard = none → s.m.takesReq (.rdc r) r = true → s.m.homed r.pa.toNat = some off → s.m.lineFree r off = true →
    exec (.rdc r) s =
      .next (s.after ((s.m.joins (lineHeld (.rdc r) r off false) (lineOut r off false)).passOn))) ∧
  (∀ (s : State) (r : Req) (off : Off),
    s.m.up = true → s.m.yard = none → s.m.takesReq (.upg r) r = true → s.m.homed r.pa.toNat = some off → s.m.lineFree r off = true →
    exec (.upg r) s =
      .next (s.after ((s.m.joins (lineHeld (.upg r) r off false) (lineOut r off false)).passOn))) ∧
  (∀ (s : State) (r : Req) (off : Off),
    s.m.up = true → s.m.yard = none → s.m.takesReq (.wrl r) r = true → s.m.homed r.pa.toNat = some off → s.m.lineFree r off = true →
    exec (.wrl r) s =
      .next (s.after ((s.m.joins (lineHeld (.wrl r) r off true) (lineOut r off true)).passOn))) ∧
  (∀ (s : State) (r : Req) (mask : Mask) (off : Off),
    s.m.up = true → s.m.yard = none → s.m.takesReq (.wrp r mask) r = true → s.m.homed r.pa.toNat = some off → s.m.lineFree r off = true →
    exec (.wrp r mask) s =
      .next (s.after ((s.m.joins (lineHeld (.wrp r mask) r off true) (lineOut r off true)).passOn))) ∧
  (∀ (s : State) (r : Req) (off : Off),
    s.m.up = true → s.m.yard = none → s.m.takesReq (.wbd r) r = true → s.m.homed r.pa.toNat = some off → s.m.lineFree r off = true →
    exec (.wbd r) s =
      .next (s.after ((s.m.joins (lineHeld (.wbd r) r off true) (lineOut r off true)).passOn))) ∧
  (∀ (s : State) (r : Req) (off : Off),
    s.m.up = true → s.m.yard = none → s.m.takesReq (.evh r) r = true → s.m.homed r.pa.toNat = some off →
    exec (.evh r) s =
      .next (s.after ((s.m.joins (lineHeld (.evh r) r off false) []).passOn))) ∧
  (∀ (s : State) (r : Req) (aop : BitVec 8) (a b : BitVec 128) (off : Off),
    s.m.up = true → s.m.yard = none → s.m.takesReq (.atm r aop a b) r = true → s.m.homed r.pa.toNat = some off → s.m.lineFree r off = true →
    exec (.atm r aop a b) s =
      .next (s.after ((s.m.joins (lineHeld (.atm r aop a b) r off false) (lineOut r off false)).passOn))) ∧
  (∀ (s : State) (r : Req) (off : Off),
    s.m.up = true → s.m.yard = none → s.m.takesReq (.rsl r) r = true → s.m.homed r.pa.toNat = some off → s.m.lineFree r off = true →
    exec (.rsl r) s =
      .next (s.after ((s.m.joins (lineHeld (.rsl r) r off false) (lineOut r off false)).passOn))) ∧
  (∀ (s : State) (r : Req) (off : Off),
    s.m.up = true → s.m.yard = none → s.m.takesReq (.scd r) r = true → s.m.homed r.pa.toNat = some off → s.m.lineFree r off = true →
    exec (.scd r) s =
      .next (s.after ((s.m.joins (lineHeld (.scd r) r off true) (lineOut r off true)).passOn)))

/-- For QENQ, QENQ8, QDEQ, QPEEK, QMARK, QREWIND and QRELEASE: where the Yard delivers and the port takes the REQ (pa and sz are zero, n is
as R210 asks), the command answers a next state in which it has joined the queue of its port with the QID as its key and QID[4:0] as its
logical slice, is outstanding there (a QENQ8 with its DTW to come), and what waits at the ports passes on. (R29, R210, R211, R271.) -/
def Obligations.QueueOperationsJoinTheirPort : Prop :=
  (∀ (s : State) (r : Req) (qid : BitVec 20) (n : BitVec 4) (word : W64),
    s.m.up = true → s.m.yard = none → s.m.takesReq (.qenq r qid n word) r = true →
    exec (.qenq r qid n word) s =
      .next (s.after ((s.m.joins (queueHeld (.qenq r qid n word) r qid false) (plainOut r false)).passOn))) ∧
  (∀ (s : State) (r : Req) (qid : BitVec 20) (n : BitVec 4),
    s.m.up = true → s.m.yard = none → s.m.takesReq (.qenq8 r qid n) r = true →
    exec (.qenq8 r qid n) s =
      .next (s.after ((s.m.joins (queueHeld (.qenq8 r qid n) r qid true) (plainOut r true)).passOn))) ∧
  (∀ (s : State) (r : Req) (qid : BitVec 20) (n : BitVec 4),
    s.m.up = true → s.m.yard = none → s.m.takesReq (.qdeq r qid n) r = true →
    exec (.qdeq r qid n) s =
      .next (s.after ((s.m.joins (queueHeld (.qdeq r qid n) r qid false) (plainOut r false)).passOn))) ∧
  (∀ (s : State) (r : Req) (qid : BitVec 20) (n : BitVec 4),
    s.m.up = true → s.m.yard = none → s.m.takesReq (.qpeek r qid n) r = true →
    exec (.qpeek r qid n) s =
      .next (s.after ((s.m.joins (queueHeld (.qpeek r qid n) r qid false) (plainOut r false)).passOn))) ∧
  (∀ (s : State) (r : Req) (qid : BitVec 20) (n : BitVec 4),
    s.m.up = true → s.m.yard = none → s.m.takesReq (.qmark r qid n) r = true →
    exec (.qmark r qid n) s =
      .next (s.after ((s.m.joins (queueHeld (.qmark r qid n) r qid false) (plainOut r false)).passOn))) ∧
  (∀ (s : State) (r : Req) (qid : BitVec 20) (n : BitVec 4),
    s.m.up = true → s.m.yard = none → s.m.takesReq (.qrewind r qid n) r = true →
    exec (.qrewind r qid n) s =
      .next (s.after ((s.m.joins (queueHeld (.qrewind r qid n) r qid false) (plainOut r false)).passOn))) ∧
  (∀ (s : State) (r : Req) (qid : BitVec 20) (n : BitVec 4),
    s.m.up = true → s.m.yard = none → s.m.takesReq (.qrelease r qid n) r = true →
    exec (.qrelease r qid n) s =
      .next (s.after ((s.m.joins (queueHeld (.qrelease r qid n) r qid false) (plainOut r false)).passOn)))

/-- Where the port takes the REQ, BAR (which does not cross the Yard) and MCL answer a next state in which the request has joined the queue
of its port without a key, is outstanding there, and what waits at the ports passes on: a BAR takes its acceptance sequence, an MCL goes
to every active slice. (R79, R192.) -/
def Obligations.BarriersAndMonitorClearsJoin : Prop :=
  (∀ (s : State) (r : Req),
    s.m.up = true → s.m.takesReq (.bar r) r = true →
    exec (.bar r) s =
      .next (s.after ((s.m.joins (barHeld (.bar r) r) (plainOut r false)).passOn))) ∧
  (∀ (s : State) (r : Req),
    s.m.up = true → s.m.yard = none → s.m.takesReq (.mcl r) r = true →
    exec (.mcl r) s =
      .next (s.after ((s.m.joins (barHeld (.mcl r) r) (plainOut r false)).passOn)))

/-- For each of the seven queue operations that an agent behind its die or I/O port sends: where pa is not zero, or n is outside 1 to 8 for
QENQ8, or n is not zero for another op, the port counts and captures a protocol error with the agent, tid and pa, and ends the request
with CMX PROTERR; the words of a QENQ8 are discarded when they come. An op that is not listed comes in a flit alone, see
LinkFlitsActOnTheirPort. (R210.) -/
def Obligations.QueueOperationLayoutErrors : Prop :=
  (∀ (s : State) (r : Req) (qid : BitVec 20) (n : BitVec 4) (word : W64),
    s.m.up = true → s.m.yard = none → s.m.portIn r.port.val = true → (r.port.val < 16 ∨ 24 ≤ r.port.val) → behind r.port.val r.agent.toNat = true → s.m.agFenced r.agent.toNat = false → (r.pa ≠ 0 ∨ n ≠ 0) →
    exec (.qenq r qid n word) s =
      .next (s.after ((s.m.protErr r.port.val r.agent r.rqid r.tid r.pa 10 0 (if r.w = .s then 1 else 0)).portCmx r.port.val r false .proterr 0))) ∧
  (∀ (s : State) (r : Req) (qid : BitVec 20) (n : BitVec 4),
    s.m.up = true → s.m.yard = none → s.m.portIn r.port.val = true → (r.port.val < 16 ∨ 24 ≤ r.port.val) → behind r.port.val r.agent.toNat = true → s.m.agFenced r.agent.toNat = false → (r.pa ≠ 0 ∨ n.toNat < 1 ∨ 8 < n.toNat) →
    exec (.qenq8 r qid n) s =
      .next (s.after ((s.m.protErr r.port.val r.agent r.rqid r.tid r.pa 10 0 (if r.w = .s then 1 else 0)).portCmx r.port.val r true .proterr 0))) ∧
  (∀ (s : State) (r : Req) (qid : BitVec 20) (n : BitVec 4),
    s.m.up = true → s.m.yard = none → s.m.portIn r.port.val = true → (r.port.val < 16 ∨ 24 ≤ r.port.val) → behind r.port.val r.agent.toNat = true → s.m.agFenced r.agent.toNat = false → (r.pa ≠ 0 ∨ n ≠ 0) →
    exec (.qdeq r qid n) s =
      .next (s.after ((s.m.protErr r.port.val r.agent r.rqid r.tid r.pa 10 0 (if r.w = .s then 1 else 0)).portCmx r.port.val r false .proterr 0))) ∧
  (∀ (s : State) (r : Req) (qid : BitVec 20) (n : BitVec 4),
    s.m.up = true → s.m.yard = none → s.m.portIn r.port.val = true → (r.port.val < 16 ∨ 24 ≤ r.port.val) → behind r.port.val r.agent.toNat = true → s.m.agFenced r.agent.toNat = false → (r.pa ≠ 0 ∨ n ≠ 0) →
    exec (.qpeek r qid n) s =
      .next (s.after ((s.m.protErr r.port.val r.agent r.rqid r.tid r.pa 10 0 (if r.w = .s then 1 else 0)).portCmx r.port.val r false .proterr 0))) ∧
  (∀ (s : State) (r : Req) (qid : BitVec 20) (n : BitVec 4),
    s.m.up = true → s.m.yard = none → s.m.portIn r.port.val = true → (r.port.val < 16 ∨ 24 ≤ r.port.val) → behind r.port.val r.agent.toNat = true → s.m.agFenced r.agent.toNat = false → (r.pa ≠ 0 ∨ n ≠ 0) →
    exec (.qmark r qid n) s =
      .next (s.after ((s.m.protErr r.port.val r.agent r.rqid r.tid r.pa 10 0 (if r.w = .s then 1 else 0)).portCmx r.port.val r false .proterr 0))) ∧
  (∀ (s : State) (r : Req) (qid : BitVec 20) (n : BitVec 4),
    s.m.up = true → s.m.yard = none → s.m.portIn r.port.val = true → (r.port.val < 16 ∨ 24 ≤ r.port.val) → behind r.port.val r.agent.toNat = true → s.m.agFenced r.agent.toNat = false → (r.pa ≠ 0 ∨ n ≠ 0) →
    exec (.qrewind r qid n) s =
      .next (s.after ((s.m.protErr r.port.val r.agent r.rqid r.tid r.pa 10 0 (if r.w = .s then 1 else 0)).portCmx r.port.val r false .proterr 0))) ∧
  (∀ (s : State) (r : Req) (qid : BitVec 20) (n : BitVec 4),
    s.m.up = true → s.m.yard = none → s.m.portIn r.port.val = true → (r.port.val < 16 ∨ 24 ≤ r.port.val) → behind r.port.val r.agent.toNat = true → s.m.agFenced r.agent.toNat = false → (r.pa ≠ 0 ∨ n ≠ 0) →
    exec (.qrelease r qid n) s =
      .next (s.after ((s.m.protErr r.port.val r.agent r.rqid r.tid r.pa 10 0 (if r.w = .s then 1 else 0)).portCmx r.port.val r false .proterr 0)))

/-- For each line request that its port takes and whose pa lies outside homed space: the port captures a class C event of its own source and
ends the request with CMX, status UNHOMED, with no slice used; data that follows a write is discarded. An EVH is dropped: its REQ slot
frees, with no completion and no capture. (R27.) -/
def Obligations.UnhomedRequestsEndAtTheirPort : Prop :=
  (∀ (s : State) (r : Req),
    s.m.up = true → s.m.yard = none → s.m.takesReq (.rds r) r = true → s.m.homed r.pa.toNat = none →
    exec (.rds r) s =
      .next (s.after ((s.m.capture { src := 34 + r.port.val, code := 0x03, akind := 1, addr := r.pa, auth := if r.w = .s then 1 else 0, who := some (r.agent, r.rqid, r.tid), opc := reqOpc (.rds r) }).portCmx r.port.val r (isWr (.rds r)) .unhomed 0))) ∧
  (∀ (s : State) (r : Req),
    s.m.up = true → s.m.yard = none → s.m.takesReq (.rdo r) r = true → s.m.homed r.pa.toNat = none →
    exec (.rdo r) s =
      .next (s.after ((s.m.capture { src := 34 + r.port.val, code := 0x03, akind := 1, addr := r.pa, auth := if r.w = .s then 1 else 0, who := some (r.agent, r.rqid, r.tid), opc := reqOpc (.rdo r) }).portCmx r.port.val r (isWr (.rdo r)) .unhomed 0))) ∧
  (∀ (s : State) (r : Req),
    s.m.up = true → s.m.yard = none → s.m.takesReq (.rdc r) r = true → s.m.homed r.pa.toNat = none →
    exec (.rdc r) s =
      .next (s.after ((s.m.capture { src := 34 + r.port.val, code := 0x03, akind := 1, addr := r.pa, auth := if r.w = .s then 1 else 0, who := some (r.agent, r.rqid, r.tid), opc := reqOpc (.rdc r) }).portCmx r.port.val r (isWr (.rdc r)) .unhomed 0))) ∧
  (∀ (s : State) (r : Req),
    s.m.up = true → s.m.yard = none → s.m.takesReq (.upg r) r = true → s.m.homed r.pa.toNat = none →
    exec (.upg r) s =
      .next (s.after ((s.m.capture { src := 34 + r.port.val, code := 0x03, akind := 1, addr := r.pa, auth := if r.w = .s then 1 else 0, who := some (r.agent, r.rqid, r.tid), opc := reqOpc (.upg r) }).portCmx r.port.val r (isWr (.upg r)) .unhomed 0))) ∧
  (∀ (s : State) (r : Req),
    s.m.up = true → s.m.yard = none → s.m.takesReq (.wrl r) r = true → s.m.homed r.pa.toNat = none →
    exec (.wrl r) s =
      .next (s.after ((s.m.capture { src := 34 + r.port.val, code := 0x03, akind := 1, addr := r.pa, auth := if r.w = .s then 1 else 0, who := some (r.agent, r.rqid, r.tid), opc := reqOpc (.wrl r) }).portCmx r.port.val r (isWr (.wrl r)) .unhomed 0))) ∧
  (∀ (s : State) (r : Req),
    s.m.up = true → s.m.yard = none → s.m.takesReq (.wbd r) r = true → s.m.homed r.pa.toNat = none →
    exec (.wbd r) s =
      .next (s.after ((s.m.capture { src := 34 + r.port.val, code := 0x03, akind := 1, addr := r.pa, auth := if r.w = .s then 1 else 0, who := some (r.agent, r.rqid, r.tid), opc := reqOpc (.wbd r) }).portCmx r.port.val r (isWr (.wbd r)) .unhomed 0))) ∧
  (∀ (s : State) (r : Req),
    s.m.up = true → s.m.yard = none → s.m.takesReq (.evh r) r = true → s.m.homed r.pa.toNat = none →
    exec (.evh r) s =
      .next (s.after (s.m.credit r.port.val 1))) ∧
  (∀ (s : State) (r : Req),
    s.m.up = true → s.m.yard = none → s.m.takesReq (.rsl r) r = true → s.m.homed r.pa.toNat = none →
    exec (.rsl r) s =
      .next (s.after ((s.m.capture { src := 34 + r.port.val, code := 0x03, akind := 1, addr := r.pa, auth := if r.w = .s then 1 else 0, who := some (r.agent, r.rqid, r.tid), opc := reqOpc (.rsl r) }).portCmx r.port.val r (isWr (.rsl r)) .unhomed 0))) ∧
  (∀ (s : State) (r : Req),
    s.m.up = true → s.m.yard = none → s.m.takesReq (.scd r) r = true → s.m.homed r.pa.toNat = none →
    exec (.scd r) s =
      .next (s.after ((s.m.capture { src := 34 + r.port.val, code := 0x03, akind := 1, addr := r.pa, auth := if r.w = .s then 1 else 0, who := some (r.agent, r.rqid, r.tid), opc := reqOpc (.scd r) }).portCmx r.port.val r (isWr (.scd r)) .unhomed 0))) ∧
  (∀ (s : State) (r : Req) (mask : Mask),
    s.m.up = true → s.m.yard = none → s.m.takesReq (.wrp r mask) r = true → s.m.homed r.pa.toNat = none →
    exec (.wrp r mask) s =
      .next (s.after ((s.m.capture { src := 34 + r.port.val, code := 0x03, akind := 1, addr := r.pa, auth := if r.w = .s then 1 else 0, who := some (r.agent, r.rqid, r.tid), opc := reqOpc (.wrp r mask) }).portCmx r.port.val r (isWr (.wrp r mask)) .unhomed 0))) ∧
  (∀ (s : State) (r : Req) (aop : BitVec 8) (a b : BitVec 128),
    s.m.up = true → s.m.yard = none → s.m.takesReq (.atm r aop a b) r = true → s.m.homed r.pa.toNat = none →
    exec (.atm r aop a b) s =
      .next (s.after ((s.m.capture { src := 34 + r.port.val, code := 0x03, akind := 1, addr := r.pa, auth := if r.w = .s then 1 else 0, who := some (r.agent, r.rqid, r.tid), opc := reqOpc (.atm r aop a b) }).portCmx r.port.val r (isWr (.atm r aop a b)) .unhomed 0)))

/-- Where the answer of a pending agent reaches an entry that lists it, no forwarded data is held before it and the slice runs: SRI, SRS,
SRF and SRFO return the RSP credit, leave the agent no longer pending with what it kept recorded, and the entry ends if it can. A second
SRF of a rebuild counts as data; an SRFO after its data, but for FWC, clears the monitors of the line. (R67, R176, R275.) -/
def Obligations.SnoopAnswersReachTheirEntry : Prop :=
  (∀ (s : State) (r : Rsp) (h t : Nat),
    s.m.up = true → s.m.yard = none → s.m.hears r.port r.agent = true → (s.m.port r.port.val).fwdq = [] → s.m.htagOf r.htag = (h, t) → (s.m.slice h).run = .on → (s.m.te h t).st = .active → (s.m.te h t).pend.getLsbD r.agent.toNat = true → (s.m.te h t).snp.lists (s.m.te h t).kind (decide ((s.m.te h t).lst = hsOS)) r.agent.toNat .sri r.kst = true →
    exec (.sri r) s =
      .next (s.after ((((s.m.credit r.port.val 3).modS h fun v => { v with gated := false }).modTe h t fun e => e.take r.agent.toNat .sri r.kst).tryEnd h t))) ∧
  (∀ (s : State) (r : Rsp) (h t : Nat),
    s.m.up = true → s.m.yard = none → s.m.hears r.port r.agent = true → (s.m.port r.port.val).fwdq = [] → s.m.htagOf r.htag = (h, t) → (s.m.slice h).run = .on → (s.m.te h t).st = .active → (s.m.te h t).pend.getLsbD r.agent.toNat = true → (s.m.te h t).snp.lists (s.m.te h t).kind (decide ((s.m.te h t).lst = hsOS)) r.agent.toNat .srs r.kst = true →
    exec (.srs r) s =
      .next (s.after ((((s.m.credit r.port.val 3).modS h fun v => { v with gated := false }).modTe h t fun e => e.take r.agent.toNat .srs r.kst).tryEnd h t))) ∧
  (∀ (s : State) (r : Rsp) (h t : Nat),
    s.m.up = true → s.m.yard = none → s.m.hears r.port r.agent = true → (s.m.port r.port.val).fwdq = [] → s.m.htagOf r.htag = (h, t) → (s.m.slice h).run = .on → (s.m.te h t).st = .active → (s.m.te h t).pend.getLsbD r.agent.toNat = true → (s.m.te h t).snp.lists (s.m.te h t).kind (decide ((s.m.te h t).lst = hsOS)) r.agent.toNat .srf r.kst = true →
    exec (.srf r) s =
      .next (s.after ((((s.m.credit r.port.val 3).modS h fun v => { v with gated := false }).modTe h t fun e => { e.take r.agent.toNat .srf r.kst with snp := { (e.take r.agent.toNat .srf r.kst).snp with dtw := e.snp.dtw || (decide ((s.m.te h t).kind = .rebuild) && (s.m.te h t).snp.from_.isSome) } }).tryEnd h t))) ∧
  (∀ (s : State) (r : Rsp) (h t : Nat),
    s.m.up = true → s.m.yard = none → s.m.hears r.port r.agent = true → (s.m.port r.port.val).fwdq = [] → s.m.htagOf r.htag = (h, t) → (s.m.slice h).run = .on → (s.m.te h t).st = .active → (s.m.te h t).pend.getLsbD r.agent.toNat = true → (s.m.te h t).snp.lists (s.m.te h t).kind (decide ((s.m.te h t).lst = hsOS)) r.agent.toNat .srfo r.kst = true →
    exec (.srfo r) s =
      .next (s.after ((if (s.m.te h t).snp.dtw = true ∧ (s.m.te h t).snp.fwd ≠ some .fwc then (((s.m.credit r.port.val 3).modS h fun v => { v with gated := false }).modTe h t fun e => e.take r.agent.toNat .srfo r.kst).clrMons h (if (s.m.te h t).kind = .rebuild ∨ (s.m.te h t).kind = .biv ∨ (s.m.te h t).kind = .mbs then lineKey (keySec (s.m.te h t).key) (s.m.te h t).line1 else (s.m.te h t).key) else ((s.m.credit r.port.val 3).modS h fun v => { v with gated := false }).modTe h t fun e => e.take r.agent.toNat .srfo r.kst).tryEnd h t)))

/-- For SRI, SRS, SRF and SRFO from an agent its port hears: behind the forwarded DAT of its own transaction, while that is not yet
accepted, the answer waits at the port; at a slice that does not run it waits at the ingress; where the entry it names is not active,
does not await the agent, or does not list the answer, it is a protocol error and changes no entry. (R57, R67, R148.) -/
def Obligations.AnswersWaitOrAreRefused : Prop :=
  (∀ (s : State) (r : Rsp),
    s.m.up = true → s.m.yard = none → s.m.hears r.port r.agent = true → s.m.behindDat r.port.val r = true →
    exec (.sri r) s =
      .next (s.after (s.m.modP r.port.val fun v => { v with rspq := v.rspq ++ [.sri r] }))) ∧
  (∀ (s : State) (r : Rsp),
    s.m.up = true → s.m.yard = none → s.m.hears r.port r.agent = true → s.m.behindDat r.port.val r = true →
    exec (.srs r) s =
      .next (s.after (s.m.modP r.port.val fun v => { v with rspq := v.rspq ++ [.srs r] }))) ∧
  (∀ (s : State) (r : Rsp),
    s.m.up = true → s.m.yard = none → s.m.hears r.port r.agent = true → s.m.behindDat r.port.val r = true →
    exec (.srf r) s =
      .next (s.after (s.m.modP r.port.val fun v => { v with rspq := v.rspq ++ [.srf r] }))) ∧
  (∀ (s : State) (r : Rsp),
    s.m.up = true → s.m.yard = none → s.m.hears r.port r.agent = true → s.m.behindDat r.port.val r = true →
    exec (.srfo r) s =
      .next (s.after (s.m.modP r.port.val fun v => { v with rspq := v.rspq ++ [.srfo r] }))) ∧
  (∀ (s : State) (r : Rsp),
    s.m.up = true → s.m.yard = none → s.m.hears r.port r.agent = true → (s.m.port r.port.val).fwdq = [] → (s.m.slice (s.m.htagOf r.htag).1).run ≠ .on →
    exec (.sri r) s =
      .next (s.after ((s.m.credit r.port.val 3).modS (s.m.htagOf r.htag).1 fun v => { v with ingress := v.ingress ++ [.sri r] }))) ∧
  (∀ (s : State) (r : Rsp),
    s.m.up = true → s.m.yard = none → s.m.hears r.port r.agent = true → (s.m.port r.port.val).fwdq = [] → (s.m.slice (s.m.htagOf r.htag).1).run ≠ .on →
    exec (.srs r) s =
      .next (s.after ((s.m.credit r.port.val 3).modS (s.m.htagOf r.htag).1 fun v => { v with ingress := v.ingress ++ [.srs r] }))) ∧
  (∀ (s : State) (r : Rsp),
    s.m.up = true → s.m.yard = none → s.m.hears r.port r.agent = true → (s.m.port r.port.val).fwdq = [] → (s.m.slice (s.m.htagOf r.htag).1).run ≠ .on →
    exec (.srf r) s =
      .next (s.after ((s.m.credit r.port.val 3).modS (s.m.htagOf r.htag).1 fun v => { v with ingress := v.ingress ++ [.srf r] }))) ∧
  (∀ (s : State) (r : Rsp),
    s.m.up = true → s.m.yard = none → s.m.hears r.port r.agent = true → (s.m.port r.port.val).fwdq = [] → (s.m.slice (s.m.htagOf r.htag).1).run ≠ .on →
    exec (.srfo r) s =
      .next (s.after ((s.m.credit r.port.val 3).modS (s.m.htagOf r.htag).1 fun v => { v with ingress := v.ingress ++ [.srfo r] }))) ∧
  (∀ (s : State) (r : Rsp),
    s.m.up = true → s.m.yard = none → s.m.hears r.port r.agent = true → (s.m.port r.port.val).fwdq = [] → (s.m.slice (s.m.htagOf r.htag).1).run = .on → (s.m.te (s.m.htagOf r.htag).1 (s.m.htagOf r.htag).2).st ≠ .active →
    exec (.sri r) s =
      .next (s.after (((s.m.credit r.port.val 3).modS (s.m.htagOf r.htag).1 fun v => { v with gated := false }).protErr r.port.val r.agent 0 0 0 (Ans.code .sri) 2))) ∧
  (∀ (s : State) (r : Rsp),
    s.m.up = true → s.m.yard = none → s.m.hears r.port r.agent = true → (s.m.port r.port.val).fwdq = [] → (s.m.slice (s.m.htagOf r.htag).1).run = .on → (s.m.te (s.m.htagOf r.htag).1 (s.m.htagOf r.htag).2).st ≠ .active →
    exec (.srs r) s =
      .next (s.after (((s.m.credit r.port.val 3).modS (s.m.htagOf r.htag).1 fun v => { v with gated := false }).protErr r.port.val r.agent 0 0 0 (Ans.code .srs) 2))) ∧
  (∀ (s : State) (r : Rsp),
    s.m.up = true → s.m.yard = none → s.m.hears r.port r.agent = true → (s.m.port r.port.val).fwdq = [] → (s.m.slice (s.m.htagOf r.htag).1).run = .on → (s.m.te (s.m.htagOf r.htag).1 (s.m.htagOf r.htag).2).st ≠ .active →
    exec (.srf r) s =
      .next (s.after (((s.m.credit r.port.val 3).modS (s.m.htagOf r.htag).1 fun v => { v with gated := false }).protErr r.port.val r.agent 0 0 0 (Ans.code .srf) 2))) ∧
  (∀ (s : State) (r : Rsp),
    s.m.up = true → s.m.yard = none → s.m.hears r.port r.agent = true → (s.m.port r.port.val).fwdq = [] → (s.m.slice (s.m.htagOf r.htag).1).run = .on → (s.m.te (s.m.htagOf r.htag).1 (s.m.htagOf r.htag).2).st ≠ .active →
    exec (.srfo r) s =
      .next (s.after (((s.m.credit r.port.val 3).modS (s.m.htagOf r.htag).1 fun v => { v with gated := false }).protErr r.port.val r.agent 0 0 0 (Ans.code .srfo) 2)))

/-- A DTW that answers a snoop returns its DAT credit and goes to the slice its htag names. One that follows a write returns its credit,
frees the REQ slot and goes to the slice that holds the write; where the write is still held at its port the data waits with it; where
the write has ended the data is discarded, at its port or in the buffer a slice keeps for it, and the slot frees. A forwarded DAT for a
populated, unfenced agent with that tid outstanding leaves through the target port, or waits at its own port while the target cannot
take it or an earlier one waits for that target. Once what waited has been accepted, the answers held behind it go on. (R48, R57, R271,
R275.) -/
def Obligations.DataTakesItsPlace : Prop :=
  (∀ (s : State) (d : Dtw),
    s.m.up = true → s.m.yard = none → s.m.hears d.port d.agent = true → d.ans = true → (s.m.slice (s.m.htagOf d.htag).1).run = .on →
    exec (.dtw d) s =
      .next (s.after ((s.m.credit d.port.val 4).snoopDataAt d))) ∧
  (∀ (s : State) (d : Dtw) (o : Outst) (ls t : Nat),
    s.m.up = true → s.m.yard = none → s.m.hears d.port d.agent = true → d.ans = false → (s.m.port d.port.val).outs.find? (fun o => o.agent = d.agent && o.tid = d.tid && o.dtw) = some o → o.ended = false → o.at_ = some (ls, t) →
    exec (.dtw d) s =
      .next (s.after ((((s.m.credit d.port.val 4).modP d.port.val fun v => { v with outs := v.outs.map fun x => if x = o then { x with dtw := false } else x }).credit d.port.val 1).toSlice ls (.dtw d)))) ∧
  (∀ (s : State) (d : Dtw) (o : Outst),
    s.m.up = true → s.m.yard = none → s.m.hears d.port d.agent = true → d.ans = false → (s.m.port d.port.val).outs.find? (fun o => o.agent = d.agent && o.tid = d.tid && o.dtw) = some o → o.ended = false → o.at_ = none →
    exec (.dtw d) s =
      .next (s.after (((s.m.credit d.port.val 4).modP d.port.val fun v => { v with outs := v.outs.map fun x => if x = o then { x with dtw := false } else x }).modP d.port.val fun v => { v with heldq := v.heldq.map fun q => if q.r.agent = d.agent && q.r.tid = d.tid && q.wrk then { q with dtw := some (d.psn, d.data) } else q }))) ∧
  (∀ (s : State) (d : Dtw) (o : Outst),
    s.m.up = true → s.m.yard = none → s.m.hears d.port d.agent = true → d.ans = false → (s.m.port d.port.val).outs.find? (fun o => o.agent = d.agent && o.tid = d.tid && o.dtw) = some o → o.ended = true →
    exec (.dtw d) s =
      .next (s.after (let m := ((s.m.credit d.port.val 4).modP d.port.val fun v => { v with outs := v.outs.erase o }).credit d.port.val 1; match o.at_ with | some (ls, _) => if (m.slice (m.hsOf ls)).run = .on then m.lateData d.agent d.tid else m.toSlice ls (.dtw d) | none => m))) ∧
  (∀ (s : State) (port : PortId) (op : DatOp) (agent : BitVec 5) (tid : Tid) (psn : Bool) (data : Line) (o : Outst),
    s.m.up = true → s.m.yard = none → s.m.portIn port.val = true → (port.val < 16 ∨ 24 ≤ port.val) → s.m.agPop agent.toNat = true → s.m.portDown (agPort agent.toNat) = false → s.m.agFenced agent.toNat = false → (s.m.port (agPort agent.toNat)).outs.find? (fun o => o.agent = agent && o.tid = tid && !o.ended) = some o →
    exec (.forwardedDat port op agent tid psn data) s =
      .next (s.after (if (s.m.port port.val).fwdq.any (fun f => f.target = agPort agent.toNat) = false ∧ s.m.egressOk (agPort agent.toNat) = true then (s.m.forward (agPort agent.toNat) { op := datOpc op, agent, tid, psn, key := o.key.getD 0, data }).credit port.val 4 else s.m.modP port.val fun v => { v with fwdq := v.fwdq ++ [{ target := agPort agent.toNat, msg := { op := datOpc op, agent, tid, psn, key := o.key.getD 0, data } }] }))) ∧
  (∀ (s : State) (port : PortId),
    s.m.up = true →
    exec (.forwarderRspRelease port) s =
      .next (s.after (((s.m.fwdGo port.val).port port.val).rspq.foldl (fun (m : Mach) i => match i with | .sri r | .srs r | .srf r | .srfo r => if m.behindDat port.val r then m else ((m.modP port.val fun v => { v with rspq := v.rspq.erase i }).credit port.val 3).toSlice (r.htag.toNat / 512) i | _ => m) (s.m.fwdGo port.val))))

/-- Where the Yard delivers, a memory or I/O port moves flits, and slice h serves the logical slice that htag names and runs, an MRT returns
a memory credit, ungates the slice and frees the oldest return buffer whose MRD left through that port with its htag[8:0]; one with an
uncorrectable error is also captured, class D, and counts as poison. Then, by the buffer: the line of a coherent demand read fills Crema
where it may, whoever served the requester; an entry that still awaits it takes the data and ends if it can; a walk, a bucket, a
prefetch, a lock refill, a descriptor or a window of a queue goes on. At a die port an MRT is a protocol error. (R50, R65, R118, R247,
R276, R292.) -/
def Obligations.MemoryReturnsReachTheirBuffer : Prop :=
  (∀ (s : State) (port : PortId) (htag : BitVec 14) (psn : Bool) (data : Line) (h rb : Nat) (b : RBuf) (t : Nat),
    s.m.up = true → s.m.yard = none → s.m.portIn port.val = true → 16 ≤ port.val → s.m.hsOf (htag.toNat / 512) = h → (s.m.slice h).run = .on → (s.m.slice h).rbFor port.val (htag.toNat % 512) = some (rb, b) → b.use = .data t → b.drop = false →
    exec (.mrt port htag psn false data) s =
      .next (s.after (let m := ((match b.fill with | some a => (((s.m.credit port.val 5).modS h fun v => { v with gated := false }).freeRbuf h rb).cremaFill h b.off a (!psn && b.fillOk) data false | none => ((s.m.credit port.val 5).modS h fun v => { v with gated := false }).freeRbuf h rb)).modTe h t fun e => { e with rd := .have psn data }; if atWb (m.te h t).at_ then m.tryEnd h t else m.ncEnd h t))) ∧
  (∀ (s : State) (port : PortId) (htag : BitVec 14) (psn ue : Bool) (data : Line) (h rb t : Nat) (b : RBuf),
    s.m.up = true → s.m.yard = none → s.m.portIn port.val = true → 16 ≤ port.val → s.m.hsOf (htag.toNat / 512) = h → (s.m.slice h).run = .on → (s.m.slice h).rbFor port.val (htag.toNat % 512) = some (rb, b) → b.use = .data t → b.drop = true →
    exec (.mrt port htag psn ue data) s =
      .next (s.after (let m := (if ue = true then ((s.m.credit port.val 5).modS h fun v => { v with gated := false }).capture { src := 34 + b.port, code := 0x07, cls := .d, akind := 1, addr := ((s.m.credit port.val 5).modS h fun v => { v with gated := false }).paOf b.off } else ((s.m.credit port.val 5).modS h fun v => { v with gated := false })).freeRbuf h rb; match b.fill with | some a => m.cremaFill h b.off a (!(psn || ue) && b.fillOk) data false | none => m))) ∧
  (∀ (s : State) (port : PortId) (htag : BitVec 14) (psn : Bool) (data : Line) (h rb : Nat) (b : RBuf) (g i : Nat),
    s.m.up = true → s.m.yard = none → s.m.portIn port.val = true → 16 ≤ port.val → s.m.hsOf (htag.toNat / 512) = h → (s.m.slice h).run = .on → (s.m.slice h).rbFor port.val (htag.toNat % 512) = some (rb, b) → b.use = .walk g i →
    exec (.mrt port htag psn false data) s =
      .next (s.after (Mach.fin ((((s.m.credit port.val 5).modS h fun v => { v with gated := false }).freeRbuf h rb).walkReturn g i psn data)))) ∧
  (∀ (s : State) (port : PortId) (htag : BitVec 14) (psn : Bool) (data : Line) (h rb : Nat) (b : RBuf) (a : PA),
    s.m.up = true → s.m.yard = none → s.m.portIn port.val = true → 16 ≤ port.val → s.m.hsOf (htag.toNat / 512) = h → (s.m.slice h).run = .on → (s.m.slice h).rbFor port.val (htag.toNat % 512) = some (rb, b) → b.use = .bkt a →
    exec (.mrt port htag psn false data) s =
      .next (s.after ((((s.m.credit port.val 5).modS h fun v => { v with gated := false }).freeRbuf h rb).bktReturn h a psn data))) ∧
  (∀ (s : State) (port : PortId) (htag : BitVec 14) (psn : Bool) (data : Line) (h rb : Nat) (b : RBuf) (a : BitVec 16),
    s.m.up = true → s.m.yard = none → s.m.portIn port.val = true → 16 ≤ port.val → s.m.hsOf (htag.toNat / 512) = h → (s.m.slice h).run = .on → (s.m.slice h).rbFor port.val (htag.toNat % 512) = some (rb, b) → b.use = .prefetch a →
    exec (.mrt port htag psn false data) s =
      .next (s.after ((((s.m.credit port.val 5).modS h fun v => { v with gated := false }).freeRbuf h rb).cremaFill h b.off a (!psn && b.fillOk) data true))) ∧
  (∀ (s : State) (port : PortId) (htag : BitVec 14) (psn : Bool) (data : Line) (h rb : Nat) (b : RBuf) (x y : Nat),
    s.m.up = true → s.m.yard = none → s.m.portIn port.val = true → 16 ≤ port.val → s.m.hsOf (htag.toNat / 512) = h → (s.m.slice h).run = .on → (s.m.slice h).rbFor port.val (htag.toNat % 512) = some (rb, b) → b.use = .fill x y →
    exec (.mrt port htag psn false data) s =
      .next (s.after ((((s.m.credit port.val 5).modS h fun v => { v with gated := false }).freeRbuf h rb).lockFill h x y b.off b.fillOk psn data))) ∧
  (∀ (s : State) (port : PortId) (htag : BitVec 14) (psn : Bool) (data : Line) (h rb : Nat) (b : RBuf) (t : Nat),
    s.m.up = true → s.m.yard = none → s.m.portIn port.val = true → 16 ≤ port.val → s.m.hsOf (htag.toNat / 512) = h → (s.m.slice h).run = .on → (s.m.slice h).rbFor port.val (htag.toNat % 512) = some (rb, b) → b.use = .qdesc t → b.drop = false →
    exec (.mrt port htag psn false data) s =
      .next (s.after (Mach.fin ((((s.m.credit port.val 5).modS h fun v => { v with gated := false }).freeRbuf h rb).qDesc h t psn data)))) ∧
  (∀ (s : State) (port : PortId) (htag : BitVec 14) (psn : Bool) (data : Line) (h rb : Nat) (b : RBuf) (t : Nat),
    s.m.up = true → s.m.yard = none → s.m.portIn port.val = true → 16 ≤ port.val → s.m.hsOf (htag.toNat / 512) = h → (s.m.slice h).run = .on → (s.m.slice h).rbFor port.val (htag.toNat % 512) = some (rb, b) → b.use = .ddesc t → b.drop = false →
    exec (.mrt port htag psn false data) s =
      .next (s.after ((((s.m.credit port.val 5).modS h fun v => { v with gated := false }).freeRbuf h rb).dDesc h t psn data))) ∧
  (∀ (s : State) (port : PortId) (htag : BitVec 14) (psn : Bool) (data : Line) (h rb : Nat) (b : RBuf) (i t : Nat),
    s.m.up = true → s.m.yard = none → s.m.portIn port.val = true → 16 ≤ port.val → s.m.hsOf (htag.toNat / 512) = h → (s.m.slice h).run = .on → (s.m.slice h).rbFor port.val (htag.toNat % 512) = some (rb, b) → b.use = .qtail i t → b.drop = false →
    exec (.mrt port htag psn false data) s =
      .next (s.after (Mach.fin ((((s.m.credit port.val 5).modS h fun v => { v with gated := false }).freeRbuf h rb).qWindow h i none psn data)))) ∧
  (∀ (s : State) (port : PortId) (htag : BitVec 14) (psn : Bool) (data : Line) (h rb : Nat) (b : RBuf) (i : Nat) (n : W64),
    s.m.up = true → s.m.yard = none → s.m.portIn port.val = true → 16 ≤ port.val → s.m.hsOf (htag.toNat / 512) = h → (s.m.slice h).run = .on → (s.m.slice h).rbFor port.val (htag.toNat % 512) = some (rb, b) → b.use = .qhead i n → b.drop = false →
    exec (.mrt port htag psn false data) s =
      .next (s.after (Mach.fin ((((s.m.credit port.val 5).modS h fun v => { v with gated := false }).freeRbuf h rb).qWindow h i (some n) psn data)))) ∧
  (∀ (s : State) (port : PortId) (htag : BitVec 14) (psn ue : Bool) (data : Line),
    s.m.up = true → s.m.yard = none → s.m.portIn port.val = true → port.val < 16 →
    exec (.mrt port htag psn ue data) s =
      .next (s.after (s.m.protErrM port.val 0 4))) ∧
  (∀ (s : State) (port : PortId) (htag : BitVec 14) (psn ue : Bool) (data : Line),
    s.m.up = true → s.m.yard = none → s.m.portIn port.val = true → 16 ≤ port.val → (s.m.slice (s.m.hsOf (htag.toNat / 512))).run = .on → (s.m.slice (s.m.hsOf (htag.toNat / 512))).rbFor port.val (htag.toNat % 512) = none →
    exec (.mrt port htag psn ue data) s =
      .next (s.after (s.m.credit port.val 5)))

/-- Where the Yard delivers, a memory or I/O port moves flits, and slice h serves the logical slice that htag names and runs, an MWC returns
a memory credit, ungates the slice, sends the retire note of every write that its buffer carried (the oldest buffer whose write left
through that port with its htag[8:0]) and frees the buffer. Then a back-invalidate ends, a ZERO counts its line, a deferred completion
is sent, a bucket goes on or the next doorbell is issued; a demand write, a descriptor or a window needs no more. A line of Crema that
awaits its refill is read again. (R78, R100, R118, R188, R190, R226, R249, R263.) -/
def Obligations.MemoryWritesComplete : Prop :=
  (∀ (s : State) (port : PortId) (htag : BitVec 14) (h wb : Nat) (x : Wr),
    s.m.up = true → s.m.yard = none → s.m.portIn port.val = true → 16 ≤ port.val → s.m.hsOf (htag.toNat / 512) = h → (s.m.slice h).run = .on → (s.m.slice h).wrFor port.val (htag.toNat % 512) = some (wb, x) → wb < 192 → (x.use = .demand ∨ x.use = .desc ∨ x.use = .qwin) →
    exec (.mwc port htag) s =
      .next (s.after (((x.notes.foldl (fun (m : Mach) n => m.sendNote n false) ((s.m.credit port.val 5).modS h fun v => { v with gated := false })).freeDbuf h wb).refill h x.port x.off))) ∧
  (∀ (s : State) (port : PortId) (htag : BitVec 14) (h wb : Nat) (x : Wr) (t : Nat),
    s.m.up = true → s.m.yard = none → s.m.portIn port.val = true → 16 ≤ port.val → s.m.hsOf (htag.toNat / 512) = h → (s.m.slice h).run = .on → (s.m.slice h).wrFor port.val (htag.toNat % 512) = some (wb, x) → wb < 192 → x.use = .mbs t →
    exec (.mwc port htag) s =
      .next (s.after ((if (((x.notes.foldl (fun (m : Mach) n => m.sendNote n false) ((s.m.credit port.val 5).modS h fun v => { v with gated := false })).freeDbuf h wb).te h t).ph = .mwc then ((x.notes.foldl (fun (m : Mach) n => m.sendNote n false) ((s.m.credit port.val 5).modS h fun v => { v with gated := false })).freeDbuf h wb).mbsEnd h t else (x.notes.foldl (fun (m : Mach) n => m.sendNote n false) ((s.m.credit port.val 5).modS h fun v => { v with gated := false })).freeDbuf h wb).refill h x.port x.off))) ∧
  (∀ (s : State) (port : PortId) (htag : BitVec 14) (h wb : Nat) (x : Wr) (t : Nat),
    s.m.up = true → s.m.yard = none → s.m.portIn port.val = true → 16 ≤ port.val → s.m.hsOf (htag.toNat / 512) = h → (s.m.slice h).run = .on → (s.m.slice h).wrFor port.val (htag.toNat % 512) = some (wb, x) → wb < 192 → x.use = .zero t →
    exec (.mwc port htag) s =
      .next (s.after ((({ (x.notes.foldl (fun (m : Mach) n => m.sendNote n false) ((s.m.credit port.val 5).modS h fun v => { v with gated := false })).freeDbuf h wb with tmp := ((x.notes.foldl (fun (m : Mach) n => m.sendNote n false) ((s.m.credit port.val 5).modS h fun v => { v with gated := false })).freeDbuf h wb).tmp.map fun (o : TmpOp) => { o with busy := o.busy - 1 } } : Mach).tmpCheck).refill h x.port x.off))) ∧
  (∀ (s : State) (port : PortId) (htag : BitVec 14) (h wb : Nat) (x : Wr) (t : Nat),
    s.m.up = true → s.m.yard = none → s.m.portIn port.val = true → 16 ≤ port.val → s.m.hsOf (htag.toNat / 512) = h → (s.m.slice h).run = .on → (s.m.slice h).wrFor port.val (htag.toNat % 512) = some (wb, x) → wb < 192 → x.use = .deferred t →
    exec (.mwc port htag) s =
      .next (s.after ((((x.notes.foldl (fun (m : Mach) n => m.sendNote n false) ((s.m.credit port.val 5).modS h fun v => { v with gated := false })).freeDbuf h wb).ackWrite h t).refill h x.port x.off))) ∧
  (∀ (s : State) (port : PortId) (htag : BitVec 14) (h wb : Nat) (x : Wr) (a : PA),
    s.m.up = true → s.m.yard = none → s.m.portIn port.val = true → 16 ≤ port.val → s.m.hsOf (htag.toNat / 512) = h → (s.m.slice h).run = .on → (s.m.slice h).wrFor port.val (htag.toNat % 512) = some (wb, x) → wb < 192 → x.use = .bkt a →
    exec (.mwc port htag) s =
      .next (s.after ((((x.notes.foldl (fun (m : Mach) n => m.sendNote n false) ((s.m.credit port.val 5).modS h fun v => { v with gated := false })).freeDbuf h wb).bktWritten h a).refill h x.port x.off))) ∧
  (∀ (s : State) (port : PortId) (htag : BitVec 14) (h wb : Nat) (x : Wr) (q : BitVec 20),
    s.m.up = true → s.m.yard = none → s.m.portIn port.val = true → 16 ≤ port.val → s.m.hsOf (htag.toNat / 512) = h → (s.m.slice h).run = .on → (s.m.slice h).wrFor port.val (htag.toNat % 512) = some (wb, x) → wb < 192 → x.use = .doorbell q →
    exec (.mwc port htag) s =
      .next (s.after (let p := (((x.notes.foldl (fun (m : Mach) n => m.sendNote n false) ((s.m.credit port.val 5).modS h fun v => { v with gated := false })).freeDbuf h wb).modS h fun v => { v with dbq := v.dbq.filter fun b => b.wb ≠ some wb }).bellGo h; Mach.fin (p.1.refill h x.port x.off, p.2)))) ∧
  (∀ (s : State) (port : PortId) (htag : BitVec 14) (h wb : Nat) (x : Wr),
    s.m.up = true → s.m.yard = none → s.m.portIn port.val = true → 16 ≤ port.val → s.m.hsOf (htag.toNat / 512) = h → (s.m.slice h).run = .on → (s.m.slice h).wrFor port.val (htag.toNat % 512) = some (wb, x) → 192 ≤ wb → x.use = .demand →
    exec (.mwc port htag) s =
      .next (s.after (((x.notes.foldl (fun (m : Mach) n => m.sendNote n false) ((s.m.credit port.val 5).modS h fun v => { v with gated := false })).modS h fun y => y.setWc (wb - 192) none).refill h x.port x.off))) ∧
  (∀ (s : State) (port : PortId) (htag : BitVec 14),
    s.m.up = true → s.m.yard = none → s.m.portIn port.val = true → port.val < 16 →
    exec (.mwc port htag) s =
      .next (s.after (s.m.protErrM port.val 0 4)))

/-- On a CXL port that moves flits, a BISNP whose length is listed, whose offset is aligned to it and whose range lies in an HDM-DB range of
the port takes the lowest free index and queues one MBS per sector, two for 256 bytes; while all 64 indices are in use it waits at the
ingress. Any other is a protocol error answered with an MBR at once. An MBS at the head of the queue goes to its slice and takes an
entry where the slice serves and has one; the last one of a BISnp frees its place. An MBR counts one sector done; the last one frees the
index, sends MBR with the offset to the device, and gives the index to the oldest BISnp that waits. On a port without CXL a BISNP is a
protocol error. (R78, R270, R287, R303.) -/
def Obligations.BackInvalidateSnoops : Prop :=
  (∀ (s : State) (port : PortId) (form : BiForm) (len : BitVec 2) (off : Off) (biId biTag : BitVec 12) (i : Nat),
    s.m.up = true → s.m.portIn port.val = true → 24 ≤ port.val → s.m.isCxl port.val = true → len ≠ 3 → off.toNat % (if len = 0 then 64 else if len = 1 then 128 else 256) = 0 → s.m.hdmDb port.val off.toNat (if len = 0 then 64 else if len = 1 then 128 else 256) = true → (s.m.port port.val).biq = [] → firstBelow 64 (fun i => !(s.m.port port.val).bisn.any fun b => b.idx = i) = some i →
    exec (.bisnp port form len off biId biTag) s =
      .next (s.after (let q : List MbsQ := if len = 0 then [{ idx := i, sec := secOf off, lines := if off.getLsbD 6 then 2 else 1, last := true }] else if len = 1 then [{ idx := i, sec := secOf off, lines := 3, last := true }] else [{ idx := i, sec := secOf off, lines := 3, last := false }, { idx := i, sec := secOf off + 1, lines := 3, last := true }]; s.m.modP port.val fun v => { v with bisn := v.bisn ++ [{ idx := i, biId, biTag, len, off, left := q.length }], mbsq := v.mbsq ++ q }))) ∧
  (∀ (s : State) (port : PortId) (form : BiForm) (len : BitVec 2) (off : Off) (biId biTag : BitVec 12),
    s.m.up = true → s.m.portIn port.val = true → 24 ≤ port.val → s.m.isCxl port.val = true → len ≠ 3 → off.toNat % (if len = 0 then 64 else if len = 1 then 128 else 256) = 0 → s.m.hdmDb port.val off.toNat (if len = 0 then 64 else if len = 1 then 128 else 256) = true → (s.m.port port.val).biq = [] → firstBelow 64 (fun i => !(s.m.port port.val).bisn.any fun b => b.idx = i) = none →
    exec (.bisnp port form len off biId biTag) s =
      .next (s.after (s.m.modP port.val fun v => { v with biq := v.biq ++ [{ len, off, biId, biTag }] }))) ∧
  (∀ (s : State) (port : PortId) (form : BiForm) (len : BitVec 2) (off : Off) (biId biTag : BitVec 12),
    s.m.up = true → s.m.portIn port.val = true → 24 ≤ port.val → s.m.isCxl port.val = true → (len = 3 ∨ off.toNat % (if len = 0 then 64 else if len = 1 then 128 else 256) ≠ 0 ∨ s.m.hdmDb port.val off.toNat (if len = 0 then 64 else if len = 1 then 128 else 256) = false) →
    exec (.bisnp port form len off biId biTag) s =
      .next (s.after (((s.m.protErrM port.val (s.m.paOf off) 4).sendMbr port.val 0 len off biId biTag).creditMbs port.val))) ∧
  (∀ (s : State) (port : PortId) (form : BiForm) (len : BitVec 2) (off : Off) (biId biTag : BitVec 12),
    s.m.up = true → s.m.portIn port.val = true → (port.val < 24 ∨ s.m.isCxl port.val = false) →
    exec (.bisnp port form len off biId biTag) s =
      .next (s.after (s.m.protErrM port.val (s.m.paOf off) 4))) ∧
  (∀ (s : State) (port : PortId) (q : MbsQ) (rest : List MbsQ) (h t : Nat) (pool : Pool),
    s.m.up = true → s.m.yard = none → (s.m.port port.val).mbsq = q :: rest → s.m.hsOf (lsOf (secOff q.sec)).toNat = h → s.m.serving h = true → s.m.grantMbs h port.val = some pool → (s.m.slice h).freeTe = some t →
    exec (.mbs port) s =
      .next (s.after (Mach.fin ((if q.last = true then (s.m.modP port.val fun v => { v with mbsq := rest }).creditMbs port.val else s.m.modP port.val fun v => { v with mbsq := rest }).accepted h t { kind := .mbs, pool, port := port.val, key := lineKey q.sec (!q.lines.getLsbD 0), two := q.lines = 3, lines := q.lines, aux := q.idx })))) ∧
  (∀ (s : State) (port : PortId) (i : Nat) (rest : List Nat) (b : Bisnp),
    s.m.up = true → s.m.yard = none → (s.m.port port.val).mbrq = i :: rest → (s.m.port port.val).bisn.find? (fun b => b.idx = i) = some b → 1 < b.left →
    exec (.mbr port) s =
      .next (s.after ((s.m.modP port.val fun v => { v with mbrq := rest }).modP port.val fun v => { v with bisn := v.bisn.map fun x => if x.idx = i then { x with left := x.left - 1 } else x }))) ∧
  (∀ (s : State) (port : PortId) (i : Nat) (rest : List Nat) (b : Bisnp),
    s.m.up = true → s.m.yard = none → (s.m.port port.val).mbrq = i :: rest → (s.m.port port.val).bisn.find? (fun b => b.idx = i) = some b → b.left ≤ 1 →
    exec (.mbr port) s =
      .next (s.after ((List.range (s.m.port port.val).mbsCr).foldl (fun (m : Mach) _ => m.creditMbs port.val) ((((s.m.modP port.val fun v => { v with mbrq := rest }).modP port.val fun v => { v with bisn := v.bisn.filter fun x => x.idx ≠ i, mbsCr := 0 }).sendMbr port.val i b.len b.off b.biId b.biTag).biTake port.val))))

/-- The oldest retire note of a port leaves its queue and marks the write-order entry of its sequence done; a lost one marks every BAR of
the same requester accepted after that write. Then what waited at the egress goes on. The oldest MCL notice of a port strikes its slice
off the MCL it belongs to; the last one ends the MCL with CMP. (R79, R190, R192.) -/
def Obligations.NotesAndNoticesRetire : Prop :=
  (∀ (s : State) (port : PortId) (n : Note) (rest : List Note),
    s.m.up = true → s.m.yard = none → (s.m.port port.val).notes = n :: rest →
    exec (.retireNote port) s =
      .next (s.after ((s.m.modP port.val fun v => { v with notes := rest, wo := v.wo.map fun w => if w.seq = n.seq then { w with done := true, lost := n.lost } else w, bars := match v.wo.find? fun w => w.seq = n.seq with | some w => if n.lost then v.bars.map fun b => if b.agent = w.agent && b.rqid = w.rqid && decide (w.seq < b.seq) then { b with lost := true } else b else v.bars | none => v.bars }).pump port.val))) ∧
  (∀ (s : State) (port : PortId) (ls : Nat) (a : BitVec 5) (q : BitVec 9) (rest : List (Nat × BitVec 5 × BitVec 9)) (x : MclSt),
    s.m.up = true → s.m.yard = none → (s.m.port port.val).mnotes = (ls, a, q) :: rest → (s.m.port port.val).mcls.find? (fun x => x.agent = a && x.rqid = q && x.left.contains ls) = some x → x.left.erase ls ≠ [] →
    exec (.mclClearNotice port) s =
      .next (s.after ((s.m.modP port.val fun v => { v with mnotes := rest }).modP port.val fun v => { v with mcls := v.mcls.map fun y => if y = x then { x with left := x.left.erase ls } else y }))) ∧
  (∀ (s : State) (port : PortId) (ls : Nat) (a : BitVec 5) (q : BitVec 9) (rest : List (Nat × BitVec 5 × BitVec 9)) (x : MclSt),
    s.m.up = true → s.m.yard = none → (s.m.port port.val).mnotes = (ls, a, q) :: rest → (s.m.port port.val).mcls.find? (fun x => x.agent = a && x.rqid = q && x.left.contains ls) = some x → x.left.erase ls = [] →
    exec (.mclClearNotice port) s =
      .next (s.after (((s.m.modP port.val fun v => { v with mnotes := rest }).modP port.val fun v => { v with mcls := v.mcls.erase x }).reply port.val { op := .cmp, agent := a, tid := x.tid })))

/-- While Tribex is in service and the slice runs, TURN_START gives an entry in WAIT that is next on its key, where nobody holds the key and
no move is owed to its sector, the turn: it leaves the wait list, becomes ACTIVE and its turn begins. An entry of two keys takes each
line it is next on and nobody holds, and its turn begins once it holds both. TURN_RESUME repeats the step an ACTIVE entry waited at: its
lookup, its reservations, its next line, its eviction, its combining buffer, its write buffer, its queue slot or its way.
WAY_CHOICE_RETRY repeats the choice of a way. (R86, R91, R112, R122, R125, R128, R275.) -/
def Obligations.TurnsStartAndGoOn : Prop :=
  (∀ (s : State) (hs : SliceId) (te : Fin 512) (m : Mach),
    s.m.up = true → m = (if ((s.m.repairLists hs.val).te hs.val te.val).kind.isLine = true then (s.m.repairLists hs.val).owedMove hs.val (keySec ((s.m.repairLists hs.val).te hs.val te.val).key) else s.m.repairLists hs.val) → (m.te hs.val te.val).st = .wait → (m.te hs.val te.val).ph ≠ .region → m.safe = none → m.drain = none → (m.slice hs.val).run = .on → ((m.te hs.val te.val).kind.isLine && (m.slice hs.val).moveOwed (keySec (m.te hs.val te.val).key)) = false → (m.te hs.val te.val).both = false → (m.slice hs.val).held (m.te hs.val te.val).hkey = false → (m.slice hs.val).isNext te.val (m.te hs.val te.val).hkey = true →
    exec (.turnStart hs te) s =
      .next (s.after (Mach.fin ((m.setSlice hs.val (((m.slice hs.val).leaveAll te.val).setEnt te.val { (m.te hs.val te.val) with st := .active })).beginTurn hs.val te.val)))) ∧
  (∀ (s : State) (hs : SliceId) (te : Fin 512) (m : Mach),
    s.m.up = true → m = (if ((s.m.repairLists hs.val).te hs.val te.val).kind.isLine = true then (s.m.repairLists hs.val).owedMove hs.val (keySec ((s.m.repairLists hs.val).te hs.val te.val).key) else s.m.repairLists hs.val) → (m.te hs.val te.val).st = .wait → (m.te hs.val te.val).ph ≠ .region → m.safe = none → m.drain = none → (m.slice hs.val).run = .on → ((m.te hs.val te.val).kind.isLine && (m.slice hs.val).moveOwed (keySec (m.te hs.val te.val).key)) = false → (m.te hs.val te.val).both = true → (m.te hs.val te.val).got = 1 → (m.slice hs.val).held ((m.te hs.val te.val).keys.getD 1 0) = false → (m.slice hs.val).isNext te.val ((m.te hs.val te.val).keys.getD 1 0) = true →
    exec (.turnStart hs te) s =
      .next (s.after (Mach.fin ((m.setSlice hs.val (({ (m.slice hs.val).leave te.val ((m.te hs.val te.val).keys.getD 1 0) with ovf := (m.slice hs.val).ovf.erase te.val } : Slice).setEnt te.val { (m.te hs.val te.val) with st := .active, got := 0 })).beginTurn hs.val te.val)))) ∧
  (∀ (s : State) (hs : SliceId) (te : Fin 512) (m : Mach),
    s.m.up = true → m = (if ((s.m.repairLists hs.val).te hs.val te.val).kind.isLine = true then (s.m.repairLists hs.val).owedMove hs.val (keySec ((s.m.repairLists hs.val).te hs.val te.val).key) else s.m.repairLists hs.val) → (m.te hs.val te.val).st = .wait → (m.te hs.val te.val).ph ≠ .region → m.safe = none → m.drain = none → (m.slice hs.val).run = .on → ((m.te hs.val te.val).kind.isLine && (m.slice hs.val).moveOwed (keySec (m.te hs.val te.val).key)) = false → (m.te hs.val te.val).both = true → (m.te hs.val te.val).got = 2 → (m.slice hs.val).held ((m.te hs.val te.val).keys.getD 0 0) = false → (m.slice hs.val).isNext te.val ((m.te hs.val te.val).keys.getD 0 0) = true →
    exec (.turnStart hs te) s =
      .next (s.after (Mach.fin ((m.setSlice hs.val (({ (m.slice hs.val).leave te.val ((m.te hs.val te.val).keys.getD 0 0) with ovf := (m.slice hs.val).ovf.erase te.val } : Slice).setEnt te.val { (m.te hs.val te.val) with st := .active, got := 0 })).beginTurn hs.val te.val)))) ∧
  (∀ (s : State) (hs : SliceId) (te : Fin 512) (m : Mach),
    s.m.up = true → m = (if ((s.m.repairLists hs.val).te hs.val te.val).kind.isLine = true then (s.m.repairLists hs.val).owedMove hs.val (keySec ((s.m.repairLists hs.val).te hs.val te.val).key) else s.m.repairLists hs.val) → (m.te hs.val te.val).st = .wait → (m.te hs.val te.val).ph ≠ .region → m.safe = none → m.drain = none → (m.slice hs.val).run = .on → ((m.te hs.val te.val).kind.isLine && (m.slice hs.val).moveOwed (keySec (m.te hs.val te.val).key)) = false → (m.te hs.val te.val).both = true → (m.te hs.val te.val).got = 0 → (m.slice hs.val).held ((m.te hs.val te.val).keys.getD 0 0) = false → (m.slice hs.val).isNext te.val ((m.te hs.val te.val).keys.getD 0 0) = true → (m.slice hs.val).isNext te.val ((m.te hs.val te.val).keys.getD 1 0) = false →
    exec (.turnStart hs te) s =
      .next (s.after (m.setSlice hs.val (((m.slice hs.val).leave te.val ((m.te hs.val te.val).keys.getD 0 0)).setEnt te.val { (m.te hs.val te.val) with got := 1 })))) ∧
  (∀ (s : State) (hs : SliceId) (te : Fin 512) (m : Mach),
    s.m.up = true → m = (if ((s.m.repairLists hs.val).te hs.val te.val).kind.isLine = true then (s.m.repairLists hs.val).owedMove hs.val (keySec ((s.m.repairLists hs.val).te hs.val te.val).key) else s.m.repairLists hs.val) → (m.te hs.val te.val).st = .wait → (m.te hs.val te.val).ph ≠ .region → m.safe = none → m.drain = none → (m.slice hs.val).run = .on → ((m.te hs.val te.val).kind.isLine && (m.slice hs.val).moveOwed (keySec (m.te hs.val te.val).key)) = false → (m.te hs.val te.val).both = true → (m.te hs.val te.val).got = 0 → (m.slice hs.val).held ((m.te hs.val te.val).keys.getD 1 0) = false → (m.slice hs.val).isNext te.val ((m.te hs.val te.val).keys.getD 1 0) = true → (m.slice hs.val).isNext te.val ((m.te hs.val te.val).keys.getD 0 0) = false →
    exec (.turnStart hs te) s =
      .next (s.after (m.setSlice hs.val (((m.slice hs.val).leave te.val ((m.te hs.val te.val).keys.getD 1 0)).setEnt te.val { (m.te hs.val te.val) with got := 2 })))) ∧
  (∀ (s : State) (hs : SliceId) (te : Fin 512),
    s.m.up = true → (s.m.te hs.val te.val).st = .active → (s.m.te hs.val te.val).ph = .lookup →
    exec (.turnResume hs te) s =
      .next (s.after (s.m.lookup hs.val te.val))) ∧
  (∀ (s : State) (hs : SliceId) (te : Fin 512),
    s.m.up = true → (s.m.te hs.val te.val).st = .active → (s.m.te hs.val te.val).ph = .reserve → (s.m.te hs.val te.val).kind = .mbs →
    exec (.turnResume hs te) s =
      .next (s.after (s.m.mbsTurn hs.val te.val))) ∧
  (∀ (s : State) (hs : SliceId) (te : Fin 512),
    s.m.up = true → (s.m.te hs.val te.val).st = .active → (s.m.te hs.val te.val).ph = .reserve → (s.m.te hs.val te.val).kind = .rebuild →
    exec (.turnResume hs te) s =
      .next (s.after ((s.m.suspectNext hs.val te.val).tryEnd hs.val te.val))) ∧
  (∀ (s : State) (hs : SliceId) (te : Fin 512),
    s.m.up = true → (s.m.te hs.val te.val).st = .active → (s.m.te hs.val te.val).ph = .reserve → (s.m.te hs.val te.val).kind = .biv →
    exec (.turnResume hs te) s =
      .next (s.after (s.m.evict hs.val (keySec (s.m.te hs.val te.val).key)))) ∧
  (∀ (s : State) (hs : SliceId) (te : Fin 512),
    s.m.up = true → (s.m.te hs.val te.val).st = .active → (s.m.te hs.val te.val).ph = .reserve → (s.m.te hs.val te.val).kind ∉ [.mbs, .rebuild, .biv] → (((s.m.te hs.val te.val).kind = .atm ∧ (s.m.te hs.val te.val).far = true ∧ (s.m.te hs.val te.val).sbuf = none) → False) → atWb (s.m.te hs.val te.val).at_ = true →
    exec (.turnResume hs te) s =
      .next (s.after ((s.m.serve hs.val te.val).tryEnd hs.val te.val))) ∧
  (∀ (s : State) (hs : SliceId) (te : Fin 512),
    s.m.up = true → (s.m.te hs.val te.val).st = .active → (s.m.te hs.val te.val).ph = .reserve → (s.m.te hs.val te.val).kind ∉ [.mbs, .rebuild, .biv] → atWb (s.m.te hs.val te.val).at_ = false →
    exec (.turnResume hs te) s =
      .next (s.after (s.m.ncRead hs.val te.val))) ∧
  (∀ (s : State) (hs : SliceId) (te : Fin 512),
    s.m.up = true → (s.m.te hs.val te.val).st = .active → (s.m.te hs.val te.val).ph = .reserve → (s.m.te hs.val te.val).kind = .atm → (s.m.te hs.val te.val).far = true → (s.m.te hs.val te.val).sbuf = none → atWb (s.m.te hs.val te.val).at_ = true →
    exec (.turnResume hs te) s =
      .next (s.after (s.m.farStart hs.val te.val))) ∧
  (∀ (s : State) (hs : SliceId) (te : Fin 512),
    s.m.up = true → (s.m.te hs.val te.val).st = .active → (s.m.te hs.val te.val).ph = .wcWait →
    exec (.turnResume hs te) s =
      .next (s.after (s.m.ncWrite hs.val te.val))) ∧
  (∀ (s : State) (hs : SliceId) (te : Fin 512),
    s.m.up = true → (s.m.te hs.val te.val).st = .active → (s.m.te hs.val te.val).ph = .wbuf →
    exec (.turnResume hs te) s =
      .next (s.after (if atWb (s.m.te hs.val te.val).at_ then s.m.endZero hs.val te.val else s.m.zeroTurn hs.val te.val))) ∧
  (∀ (s : State) (hs : SliceId) (te : Fin 512),
    s.m.up = true → (s.m.te hs.val te.val).st = .active → ((s.m.te hs.val te.val).ph = .qslot ∨ (s.m.te hs.val te.val).ph = .qheld) → (s.m.te hs.val te.val).kind = .qop 1 →
    exec (.turnResume hs te) s =
      .next (s.after (Mach.fin (s.m.qGo hs.val te.val)))) ∧
  (∀ (s : State) (hs : SliceId) (te : Fin 512) (v : Nat),
    s.m.up = true → (s.m.te hs.val te.val).st = .active → (s.m.te hs.val te.val).ph = .wayWait → (s.m.te hs.val te.val).kind ≠ .rebuild → s.m.findWay hs.val (keySec (s.m.te hs.val te.val).key) = some v →
    exec (.turnResume hs te) s =
      .next (s.after ((if (s.m.te hs.val te.val).refill.isSome then s.m.bktDel hs.val (s.m.bktOf hs.val (keySec (s.m.te hs.val te.val).key)) else s.m).lookup hs.val te.val))) ∧
  (∀ (s : State) (hs : SliceId) (te : Fin 512) (x : W64),
    s.m.up = true → (s.m.te hs.val te.val).st = .active → (s.m.te hs.val te.val).ph = .wayWait → (s.m.te hs.val te.val).kind ≠ .rebuild → s.m.findWay hs.val (keySec (s.m.te hs.val te.val).key) = none → (s.m.te hs.val te.val).refill = some x →
    exec (.turnResume hs te) s =
      .next (s.after (s.m.refillWay hs.val te.val x))) ∧
  (∀ (s : State) (hs : SliceId) (te : Fin 512),
    s.m.up = true → (s.m.te hs.val te.val).st = .active → (s.m.te hs.val te.val).ph = .wayWait → (s.m.te hs.val te.val).kind ≠ .rebuild → s.m.findWay hs.val (keySec (s.m.te hs.val te.val).key) = none → (s.m.te hs.val te.val).refill = none →
    exec (.turnResume hs te) s =
      .next (s.after (if ssSimp (s.m.ss hs.val (setOf (keySec (s.m.te hs.val te.val).key)).toNat) then s.m.missImp hs.val te.val else s.m.missWay hs.val te.val))) ∧
  (∀ (s : State) (hs : SliceId) (te : Fin 512) (v : Nat),
    s.m.up = true → (s.m.te hs.val te.val).st = .active → (s.m.te hs.val te.val).ph = .wayWait → (s.m.te hs.val te.val).kind ≠ .rebuild → s.m.findWay hs.val (keySec (s.m.te hs.val te.val).key) = some v →
    exec (.wayChoiceRetry hs te) s =
      .next (s.after ((if (s.m.te hs.val te.val).refill.isSome then s.m.bktDel hs.val (s.m.bktOf hs.val (keySec (s.m.te hs.val te.val).key)) else s.m).lookup hs.val te.val))) ∧
  (∀ (s : State) (hs : SliceId) (te : Fin 512) (x : W64),
    s.m.up = true → (s.m.te hs.val te.val).st = .active → (s.m.te hs.val te.val).ph = .wayWait → (s.m.te hs.val te.val).kind ≠ .rebuild → s.m.findWay hs.val (keySec (s.m.te hs.val te.val).key) = none → (s.m.te hs.val te.val).refill = some x →
    exec (.wayChoiceRetry hs te) s =
      .next (s.after (s.m.refillWay hs.val te.val x))) ∧
  (∀ (s : State) (hs : SliceId) (te : Fin 512),
    s.m.up = true → (s.m.te hs.val te.val).st = .active → (s.m.te hs.val te.val).ph = .wayWait → (s.m.te hs.val te.val).kind ≠ .rebuild → s.m.findWay hs.val (keySec (s.m.te hs.val te.val).key) = none → (s.m.te hs.val te.val).refill = none →
    exec (.wayChoiceRetry hs te) s =
      .next (s.after (if ssSimp (s.m.ss hs.val (setOf (keySec (s.m.te hs.val te.val).key)).toNat) then s.m.missImp hs.val te.val else s.m.missWay hs.val te.val)))

/-- A message flit in order (its CRC checks and its sequence number is the one expected) is counted, moves the expected number on, ends the
failed replays and L1, applies its acknowledgement and credits and delivers its message (an opcode that is not listed is a protocol
error), and the 32nd since the last acknowledgement sends one. A flit ahead of the expected one sends one nak for the gap; one behind it
changes nothing. A flit whose CRC fails is counted and sends a nak; where one was already sent, the flit with the expected number is a
failed replay and every other is discarded. Each link-level flit applies its own acknowledgement and credit field on a link that moves
flits. A nak then acknowledges and replays; INIT during initialisation resets numbers and credits and advertises; CRADV sets the credits
held; RESUME acknowledges and brings the link to UP, or resends what is unacknowledged in REPLAY. (R288, R289, R290, R293, R294, R296.) -/
def Obligations.LinkFlitsActOnTheirPort : Prop :=
  (∀ (s : State) (port : PortId) (flit : BitVec 640),
    s.m.up = true → flitGood flit = true → flitCls flit < 5 → s.m.portIn port.val = true → flitSeq flit = (s.m.port port.val).rxSeq →
    exec (.messageFlitReceive port flit) s =
      .next (s.after (let v := s.m.port port.val; let m := (((s.m.setPort port.val { v with rxSeq := v.rxSeq + 1, rxAny := true, nakd := false, rfail := 0, unack := v.unack + 1, l1 := false }).countRx port.val (flitCls flit)).ackField port.val (flitAck flit)).deliver port flit; if 32 ≤ (m.port port.val).unack then m.sendLink port.val .idle else m))) ∧
  (∀ (s : State) (port : PortId) (flit : BitVec 640),
    s.m.up = true → flitGood flit = true → flitCls flit < 5 → s.m.portIn port.val = true → flitSeq flit ≠ (s.m.port port.val).rxSeq → (flitSeq flit - (s.m.port port.val).rxSeq).toNat < 256 → (s.m.port port.val).nakd = false →
    exec (.messageFlitReceive port flit) s =
      .next (s.after (s.m.sendNak port.val))) ∧
  (∀ (s : State) (port : PortId) (flit : BitVec 640),
    s.m.up = true → flitGood flit = true → flitCls flit < 5 → s.m.portIn port.val = true → 256 ≤ (flitSeq flit - (s.m.port port.val).rxSeq).toNat →
    exec (.messageFlitReceive port flit) s =
      .next (s.after (s.m))) ∧
  (∀ (s : State) (port : PortId) (seq : Seq),
    s.m.up = true → s.m.portIn port.val = true →
    exec (.flitCrcFail { port, seq }) s =
      .next (s.after (if (s.m.port port.val).nakd = false then (s.m.bumpP port.val Reg.pCrcerr).sendNak port.val else if seq = (s.m.port port.val).rxSeq then ((s.m.bumpP port.val Reg.pCrcerr).sendNak port.val).replayFailed port.val else s.m.bumpP port.val Reg.pCrcerr))) ∧
  (∀ (s : State) (port : PortId) (seq : Seq),
    s.m.up = true → (s.m.port port.val).st = .init →
    exec (.flitCrcFail { port, seq }) s =
      .next (s.after (s.m.bumpP port.val Reg.pCrcerr))) ∧
  (∀ (s : State) (port : PortId) (ackSeq : Seq) (ack : AckField),
    s.m.up = true → s.m.portIn port.val = true →
    exec (.nak { port, ack } ackSeq) s =
      .next (s.after ((s.m.ackField port.val ack).nakIn port.val ackSeq))) ∧
  (∀ (s : State) (port : PortId) (ack : AckField),
    s.m.up = true → s.m.portIn port.val = true →
    exec (.idle port ack) s =
      .next (s.after (s.m.ackField port.val ack))) ∧
  (∀ (s : State) (port : PortId) (ptype : BitVec 2) (ver : BitVec 8) (ack : AckField),
    s.m.up = true → (s.m.port port.val).st = .init →
    exec (.init { port, ack } ptype ver) s =
      .next (s.after ((s.m.modP port.val fun v => { v with peer := List.replicate 9 0, crq := List.replicate 9 0, owed := List.replicate 9 0, txSeq := 0, rxSeq := 0, rxAny := false, nakd := false, ackd := none, unack := 0, rfail := 0, timed := false }).sendLink port.val (.ctrl 2 0)))) ∧
  (∀ (s : State) (port : PortId) (ptype : BitVec 2) (ver : BitVec 8) (ack : AckField),
    s.m.up = true → s.m.portIn port.val = true →
    exec (.init { port, ack } ptype ver) s =
      .next (s.after (s.m.ackField port.val ack))) ∧
  (∀ (s : State) (port : PortId) (cr : BitVec 64) (ack : AckField),
    s.m.up = true → s.m.portIn port.val = true →
    exec (.cradv { port, ack } cr) s =
      .next (s.after (((s.m.modP port.val fun v => { v with peer := 0 :: (List.range 8).map fun i => (cr.extractLsb' (8 * i) 8).toNat }).pump port.val).idleIn port.val ack))) ∧
  (∀ (s : State) (port : PortId) (cr : BitVec 64) (ack : AckField),
    s.m.up = true → (s.m.port port.val).st = .init →
    exec (.cradv { port, ack } cr) s =
      .next (s.after (((s.m.modP port.val fun v => { v with peer := 0 :: (List.range 8).map fun i => (cr.extractLsb' (8 * i) 8).toNat }).pump port.val).idleIn port.val ack))) ∧
  (∀ (s : State) (port : PortId) (lastSeq : Seq) (valid : Bool) (ack : AckField),
    s.m.up = true → s.m.portIn port.val = true →
    exec (.resume { port, ack } lastSeq valid) s =
      .next (s.after (let m := if valid then s.m.ackApply port.val lastSeq else s.m; ((if (m.port port.val).rpl = [] then m.setLink port.val .up else (m.setLink port.val .replay).modP port.val fun v => v.resend).pump port.val).idleIn port.val ack)))

/-- REPLAY_TIMEOUT after a nak, and TX_REPLAY_TIMER while a timed replay runs, count a failed replay; the latter replays again. A retrain
request while the link moves flits puts it in RETRAIN. RETRAIN_COMPLETE counts and captures it, takes the new rate and width, sends
RESUME and brings the link back, and a link narrower than x32 or RETRAIN_TIMEOUT instead has the port fenced with its fcause. (R295,
R296, R297, R301.) -/
def Obligations.ReplaysAndRetrains : Prop :=
  (∀ (s : State) (port : PortId),
    s.m.up = true → s.m.portIn port.val = true → (s.m.port port.val).nakd = true →
    exec (.replayTimeout port) s =
      .next (s.after ((s.m.sendNak port.val).replayFailed port.val))) ∧
  (∀ (s : State) (port : PortId),
    s.m.up = true → s.m.portIn port.val = true → (s.m.port port.val).rpl ≠ [] →
    exec (.txReplayTimer port) s =
      .next (s.after ((if (s.m.port port.val).timed then s.m.replayFailed port.val else s.m).replay port.val true))) ∧
  (∀ (s : State) (port : PortId),
    s.m.up = true → s.m.portIn port.val = true →
    exec (.retrainRequest port) s =
      .next (s.after (((s.m.setLink port.val .retrain).trainGo port.val).modP port.val fun v => { v with rfail := 0, timed := false }))) ∧
  (∀ (s : State) (port : PortId) (rate : BitVec 4) (lanes : BitVec 7),
    s.m.up = true → (s.m.port port.val).st = .retrain → narrow port.val lanes = false →
    exec (.retrainComplete port rate lanes) s =
      .next (s.after (let m := ((s.m.bumpP port.val Reg.pRetrain).capture { src := 34 + port.val, code := 0x01, counted := true }).rtCount port.val; let m := m.modP port.val fun v => { v with rate := portRate port.val v.cap rate, half := decide (port.val < 16) && decide (lanes.toNat < 64), nakd := false }; let m := m.sendLink port.val (.ctrl 3 ((s.m.port port.val).lastSeq.setWidth 64 ||| (if (s.m.port port.val).rxAny then 512 else 0))); let m := m.setLink port.val (if (s.m.port port.val).rpl = [] then .up else .replay); m.pump port.val))) ∧
  (∀ (s : State) (port : PortId) (rate : BitVec 4) (lanes : BitVec 7),
    s.m.up = true → (s.m.port port.val).st = .retrain → narrow port.val lanes = true →
    exec (.retrainComplete port rate lanes) s =
      .next (s.after ({ s.m with due := s.m.due ++ [.port port.val 5 true] }))) ∧
  (∀ (s : State) (port : PortId),
    s.m.up = true → (s.m.port port.val).st = .retrain →
    exec (.retrainTimeout port) s =
      .next (s.after ({ s.m with due := s.m.due ++ [.port port.val 2 true] })))

/-- At a populated port in DOWN whose adapter is ON: LINK_TRAINED takes rate and width, and the port goes to INIT and sends INIT and a CRADV
of zero credits; a link narrower than x32, or a training that times out, has the port fenced. L1_ENTRY puts a die port in UP with
nothing buffered and no credit to return to sleep while PWR_CTL.l1_en is 1 (a claimed adapter only while SEC_PART.l1_claimed is 1);
L1_EXIT wakes it. SNOOP_RESPONSE_TIMEOUT of an ACTIVE entry with agents pending counts, captures each of them, and at the third expiry
has each of them fenced. (R129, R301, R371, R383, R399.) -/
def Obligations.LinksTrainAndSleep : Prop :=
  (∀ (s : State) (port : PortId) (rate : BitVec 4) (lanes : BitVec 7),
    s.m.up = true → (s.m.port port.val).st = .down → s.m.dom (portDom port.val) = .on → s.m.populated port.val = true → narrow port.val lanes = false →
    exec (.linkTrained port rate lanes) s =
      .next (s.after ((((s.m.modP port.val fun v => { v with rate := portRate port.val v.cap rate, half := decide (port.val < 16) && decide (lanes.toNat < 64) }).setLink port.val .init).sendLink port.val (.ctrl 1 (BitVec.ofNat 64 (portType port.val + 256)))).sendLink port.val (.ctrl 2 0)))) ∧
  (∀ (s : State) (port : PortId) (rate : BitVec 4) (lanes : BitVec 7),
    s.m.up = true → (s.m.port port.val).st = .down → s.m.dom (portDom port.val) = .on → s.m.populated port.val = true → narrow port.val lanes = true →
    exec (.linkTrained port rate lanes) s =
      .next (s.after ({ s.m with due := s.m.due ++ [.port port.val 5 true] }))) ∧
  (∀ (s : State) (port : PortId),
    s.m.up = true → (s.m.port port.val).st = .down → s.m.dom (portDom port.val) = .on → s.m.populated port.val = true →
    exec (.linkTrainTimeout port) s =
      .next (s.after ({ s.m with due := s.m.due ++ [.port port.val 6 true] }))) ∧
  (∀ (s : State) (port : PortId),
    s.m.up = true → port.val < 16 → s.m.bit Reg.pwrCtl 1 = true → (s.m.port port.val).st = .up → (s.m.port port.val).rpl = [] → (s.m.port port.val).egr = [] → (s.m.port port.val).heldq = [] → (s.m.port port.val).fwdq = [] → (s.m.port port.val).rspq = [] → (s.m.port port.val).unack = 0 → (s.m.port port.val).crq.all (· = 0) = true → (s.m.claimed (portDom port.val) = false ∨ s.m.bit Reg.secPart 1 = true) →
    exec (.l1Entry port) s =
      .next (s.after (s.m.modP port.val fun v => { v with l1 := true }))) ∧
  (∀ (s : State) (port : PortId),
    s.m.up = true →
    exec (.l1Exit port) s =
      .next (s.after (s.m.modP port.val fun v => { v with l1 := false }))) ∧
  (∀ (s : State) (hs : SliceId) (te : Fin 512) (e : TE),
    s.m.up = true → s.m.te hs.val te.val = e → e.st = .active → e.pend ≠ 0 → (s.m.slice hs.val).run = .on → (s.m.slice hs.val).role = .active →
    exec (.snoopResponseTimeout hs te) s =
      .next (s.after (let pa := s.m.paOf (offOf (if e.kind = .rebuild ∨ e.kind = .biv ∨ e.kind = .mbs then lineKey (keySec e.key) e.line1 else e.key)); let m := (s.m.modTe hs.val te.val fun e => { e with tocnt := BitVec.ofNat 2 (min 3 (e.tocnt.toNat + 1)) }).bump hs.val Reg.hscSnpto; let m := (agents e.pend).foldl (fun (m : Mach) a => m.capture { (e.ev (m.htag hs.val te.val) pa (34 + agPort a) 0x04) with counted := true }) m; if e.tocnt.toNat = 2 then (agents e.pend).foldl (fun (m : Mach) a => let m := m.capture { (e.ev (m.htag hs.val te.val) pa (34 + agPort a) 0x05) with cls := .f }; { m with due := m.due ++ [.agent a] }) m else m)))

/-- EVICT_VICTIM of a victim whose bucket is free: with no spilled entry in its set it writes the bucket without a read and the count
becomes 1, else it reads the bucket; while the spill directory is out of service the victim is resolved by back-invalidation; a victim
whose world is not known looks its region up first. COPY_REMOVAL of a spilled entry with both lines I reads its bucket. RECOUNT takes
the lowest set that waits. REBUILD_START gives the oldest queued sector a reserved entry, which sends its snoops once it holds both
lines. SET_SWEEP_TAG starts a sweep over the sets whose simp is 1, and moves one tag on: where the sector may be held and has no entry
it queues a rebuild. (R97, R99, R100, R101, R103, R106, R442.) -/
def Obligations.SnoopFilterEnginesWork : Prop :=
  (∀ (s : State) (hs : SliceId) (off : Off) (v : Victim) (b : Bool),
    s.m.up = true → (s.m.slice hs.val).victim (secOf off) = some v → v.w = some b → ((s.m.ensureSet hs.val (setOf (secOf off)).toNat).slice hs.val).busy.any (fun e => e.2.kind = .biv && e.2.inSector (secOf off) && e.2.ph ≠ .qheld && e.2.ph ≠ .reserve) = false → (s.m.ensureSet hs.val (setOf (secOf off)).toNat).spillDown = false → ((s.m.ensureSet hs.val (setOf (secOf off)).toNat).slice hs.val).bkts.find? (fun b => b.addr = (s.m.ensureSet hs.val (setOf (secOf off)).toNat).bktOf hs.val (secOf off)) = none → ((s.m.ensureSet hs.val (setOf (secOf off)).toNat).slice hs.val).bktFull = false → v.evac = false →
    exec (.evictVictim hs off) s =
      .next (s.after (if ssSpc ((s.m.ensureSet hs.val (setOf (secOf off)).toNat).ss hs.val (setOf (secOf off)).toNat) = 0 then (((s.m.ensureSet hs.val (setOf (secOf off)).toNat).bktAdd hs.val ((s.m.ensureSet hs.val (setOf (secOf off)).toNat).bktOf hs.val (secOf off)) (.evictWr (secOf off))).addSpc hs.val (setOf (secOf off)).toNat ((s.m.ensureSet hs.val (setOf (secOf off)).toNat).bktNo (secOf off)) 1 0).spillTo hs.val v 0 (if (s.m.ensureSet hs.val (setOf (secOf off)).toNat).parted && b then 6 else 0) else ((s.m.ensureSet hs.val (setOf (secOf off)).toNat).bktAdd hs.val ((s.m.ensureSet hs.val (setOf (secOf off)).toNat).bktOf hs.val (secOf off)) (.evictRd (secOf off))).bktRead hs.val ((s.m.ensureSet hs.val (setOf (secOf off)).toNat).bktOf hs.val (secOf off))))) ∧
  (∀ (s : State) (hs : SliceId) (off : Off) (v : Victim),
    s.m.up = true → (s.m.slice hs.val).victim (secOf off) = some v → v.w = none → s.m.spillDown = false → s.m.walking (.vict hs.val (secOf off)) = false →
    exec (.evictVictim hs off) s =
      .next (s.after (Mach.fin (s.m.rcLook hs.val (.vict hs.val (secOf off)) (secOff (secOf off)))))) ∧
  (∀ (s : State) (hs : SliceId) (off : Off) (v : Victim),
    s.m.up = true → (s.m.slice hs.val).victim (secOf off) = some v → ((s.m.ensureSet hs.val (setOf (secOf off)).toNat).slice hs.val).busy.any (fun e => e.2.kind = .biv && e.2.inSector (secOf off) && e.2.ph ≠ .qheld && e.2.ph ≠ .reserve) = false → s.m.spillDown = true → (s.m.ensureSet hs.val (setOf (secOf off)).toNat).spillDown = true →
    exec (.evictVictim hs off) s =
      .next (s.after ((s.m.ensureSet hs.val (setOf (secOf off)).toNat).bivStart hs.val v))) ∧
  (∀ (s : State) (hs : SliceId) (off : Off) (x : Nat) (e : W64),
    s.m.up = true → (s.m.ensureSet hs.val (setOf (secOf off)).toNat).findWay hs.val (secOf off) = some x → (s.m.ensureSet hs.val (setOf (secOf off)).toNat).entry hs.val (setOf (secOf off)).toNat x = e → enSpf e = true → enImp e = false → enSt e false = hsI → enSt e true = hsI → (s.m.ensureSet hs.val (setOf (secOf off)).toNat).spillDown = false → ((s.m.ensureSet hs.val (setOf (secOf off)).toNat).slice hs.val).bktBusy ((s.m.ensureSet hs.val (setOf (secOf off)).toNat).bktOf hs.val (secOf off)) = false → ((s.m.ensureSet hs.val (setOf (secOf off)).toNat).slice hs.val).bktFull = false →
    exec (.copyRemoval hs off) s =
      .next (s.after (((s.m.ensureSet hs.val (setOf (secOf off)).toNat).bktAdd hs.val ((s.m.ensureSet hs.val (setOf (secOf off)).toNat).bktOf hs.val (secOf off)) (.copyRd (secOf off) true)).bktRead hs.val ((s.m.ensureSet hs.val (setOf (secOf off)).toNat).bktOf hs.val (secOf off))))) ∧
  (∀ (s : State) (hs : SliceId) (x : Nat) (rest : List Nat),
    s.m.up = true → s.m.spillDown = false → (s.m.slice hs.val).rcn = none → (s.m.slice hs.val).rcq = x :: rest →
    exec (.recount hs) s =
      .next (s.after ((s.m.modS hs.val fun v => { v with rcq := rest, rcn := some (x, 0, 0) }).recountNext hs.val))) ∧
  (∀ (s : State) (hs : SliceId) (sec : BitVec 39) (sus : BitVec 2) (rest : List (BitVec 39 × BitVec 2)) (t : Nat),
    s.m.up = true → (s.m.slice hs.val).rbq = (sec, sus) :: rest → (s.m.slice hs.val).freeCrow = some t →
    exec (.rebuildStart hs) s =
      .next (s.after (let m := (s.m.modS hs.val fun v => { v with rbq := rest, seq := v.seq + 1 }).enter hs.val t { kind := .rebuild, pool := .crow, key := lineKey sec false, suspect := sus, ord := (s.m.slice hs.val).seq }; if (m.te hs.val t).st = .active then m.crowStart hs.val t else m))) ∧
  (∀ (s : State) (hs : SliceId),
    s.m.up = true → (s.m.slice hs.val).swp = none → (s.m.slice hs.val).simpSets ≠ [] →
    exec (.setSweepTag hs) s =
      .next (s.after ((s.m.modS hs.val fun v => { v with swp := some { sets := (s.m.slice hs.val).simpSets, done := 0, tag := 0, queued := [] } }).setReg (hsA hs.val Reg.hsSfswPct) 0))) ∧
  (∀ (s : State) (hs : SliceId) (y : Sweep) (x : Nat) (rest : List Nat),
    s.m.up = true → (s.m.slice hs.val).swp = some y → y.sets = x :: rest → y.tag < 2 ^ (s.m.hlog2 - 21) →
    exec (.setSweepTag hs) s =
      .next (s.after (let sec := sectorOf (BitVec.ofNat 14 x) (BitVec.ofNat 25 y.tag); let m := ((s.m.checkSet hs.val x).setReg (hsA hs.val Reg.hsSfswPosLo) (BitVec.ofNat 32 y.tag)).setReg (hsA hs.val Reg.hsSfswPosHi) (BitVec.ofNat 32 x); let go := fun (m : Mach) (q : List (BitVec 39)) => (m.progress (hsA hs.val Reg.hsSfswPct) (min 9999 ((y.done * 2 ^ (s.m.hlog2 - 21) + y.tag + 1) * 10000 / max 1 ((y.done + y.sets.length) * 2 ^ (s.m.hlog2 - 21))))).modS hs.val fun v => { v with swp := some { y with tag := y.tag + 1, queued := q } }; if (lsOf (secOff sec)).toNat ≠ (s.m.slice hs.val).ls ∨ (m.findWay hs.val sec).isSome ∨ ((m.slice hs.val).victim sec).isSome then go m y.queued else if 32 ≤ (m.slice hs.val).rbq.length then m else go (m.queueRebuild hs.val sec) (y.queued ++ [sec]))))

/-- BANK_AUTO_OFF turns an ON bank with no valid entry and no chosen way OFF while auto_off is 1 and another bank stays. EVACUATE, where
R113 does not refuse it and the domain is not claimed against it, starts the evacuation engine on the bank; BANK_POWER_ON wakes an OFF
bank, or marks it ON for when the slice logic starts; EVACUATION_ABORT stops the engine; each leaves its result. EVACUATION_MOVE takes
the engine one step on, walking the region map for a world it does not know. SF_PARTITION_ENABLE stores the two fields of SEC_PART and
starts or stops the sort; while a bank it needs is not ON it is refused. (R110, R111, R112, R113, R114, R399.) -/
def Obligations.WayBanksChangeState : Prop :=
  (∀ (s : State) (hs : SliceId) (bank : Fin 4),
    s.m.up = true → (s.m.slice hs.val).bank.getD bank.val .off = .on → s.m.bit (hsA hs.val Reg.hsSfctl) 0 = true → (s.m.slice hs.val).bankCount bank.val = 0 → (s.m.slice hs.val).busy.any (fun e => !e.2.hit && e.2.kind.isLine && (e.2.way.any fun x => x / 4 = bank.val)) = false → s.m.lastBank hs.val bank.val = false →
    exec (.bankAutoOff hs bank) s =
      .next (s.after ((s.m.modS hs.val fun v => { (v.bankOff bank.val) with auto := v.auto ||| (1#4 <<< bank.val) }).domTo (sliceDom hs.val (1 + bank.val)) .off))) ∧
  (∀ (s : State) (w : World) (hs : SliceId) (bank : Fin 4),
    s.m.up = true → s.m.evacBad hs.val bank.val = false → (w = .s ∨ s.m.claimed (sliceDom hs.val (1 + bank.val)) = false) →
    exec (.evacuate w hs bank) s =
      .next (s.replied ((s.m.evacGo hs.val (some bank.val)).bankResult hs.val 0))) ∧
  (∀ (s : State) (w : World) (hs : SliceId) (bank : Fin 4),
    s.m.up = true → (s.m.slice hs.val).role = .active → (s.m.slice hs.val).bank.getD bank.val .off = .off → s.m.sfBad hs.val bank.val = false → s.m.mbist = none → s.m.dom (sliceDom hs.val 0) = .on →
    exec (.bankPowerOn w hs bank) s =
      .next (s.replied (((s.m.modS hs.val fun v => { v with bank := v.bank.setIfInBounds bank.val .waking }).domTo (sliceDom hs.val (1 + bank.val)) .waking).bankResult hs.val 0))) ∧
  (∀ (s : State) (w : World) (hs : SliceId) (bank : Fin 4),
    s.m.up = true → (s.m.slice hs.val).role = .active → (s.m.slice hs.val).bank.getD bank.val .off = .off → s.m.sfBad hs.val bank.val = false → s.m.mbist = none → s.m.dom (sliceDom hs.val 0) ≠ .on →
    exec (.bankPowerOn w hs bank) s =
      .next (s.replied ((s.m.modS hs.val fun v => { v with bank := v.bank.setIfInBounds bank.val .on }).bankResult hs.val 0))) ∧
  (∀ (s : State) (w : World) (hs : SliceId) (bank : Fin 4) (e : Evac),
    s.m.up = true → (s.m.slice hs.val).evac = some e → e.bank = some bank.val → e.aborted = false → (w = .s ∨ s.m.claimed (sliceDom hs.val (1 + bank.val)) = false) →
    exec (.evacuationAbort w hs bank) s =
      .next (s.replied ((s.m.modS hs.val fun v => { v with evac := v.evac.map fun e => { e with aborted := true } }).bankResult hs.val 3))) ∧
  (∀ (s : State) (hs : SliceId),
    s.m.up = true → (s.m.slice hs.val).evac ≠ none →
    exec (.evacuationMove hs) s =
      .next (s.after (match s.m.evacStep hs.val (fun sec => (s.m.rcFind hs.val (secOff sec)).map atSec) with | (m, none) => m | (m, some sec) => if m.walking (.evac hs.val) then m else Mach.fin (m.startWalk hs.val (.evac hs.val) (secOff sec))))) ∧
  (∀ (s : State) (w : World) (data : W32),
    s.m.up = true → (w = .s ∨ s.m.lcState = 0) → s.m.integ.sfpart = true → (data.getLsbD 0 = false ∨ s.m.bit Reg.secPart 0 = true ∨ s.m.partOn = true) →
    exec (.sfPartitionEnable w data) s =
      .next (s.replied (let m := s.m.setFld Reg.secPart 0 2 (data.extractLsb' 0 2).toNat; if data.getLsbD 0 = true ∧ s.m.bit Reg.secPart 0 = false then m.sortGo else if s.m.bit Reg.secPart 0 = true ∧ data.getLsbD 0 = false then m.sortStop else m)))

/-- CREATE, DESTROY, RESET, INFO and PAGEOUT, where no queue command runs, the QID of QOB_QID belongs to the world of the write or the write
is S, and no hand-over moves it: the command holds the QID, its world and the descriptor CREATE would write, and takes an entry at its
home slice as soon as one is free. QOB_DISABLE clears en and pages out what is resident. QUEUE_HAND_OVER from the S world, for a
boundary in range that changes something and with none running, starts at the lower of the two boundaries; HAND_OVER_QID gives the
current QID an entry at its home slice. (R228, R229, R232, R237.) -/
def Obligations.QueueCommandsStart : Prop :=
  (∀ (s : State) (w : World),
    s.m.up = true → s.m.qcmd = none → (w = .s ∨ s.m.qidSec (BitVec.ofNat 20 (s.m.fld Reg.qobQid 0 20)) = false) → s.m.qidMoving (BitVec.ofNat 20 (s.m.fld Reg.qobQid 0 20)) = false →
    exec (.create w) s =
      .next (s.replied (({ s.m with qcmd := some { op := 1, qid := (BitVec.ofNat 20 (s.m.fld Reg.qobQid 0 20)), sec := s.m.qidSec (BitVec.ofNat 20 (s.m.fld Reg.qobQid 0 20)), arg := s.m.createLine (BitVec.ofNat 20 (s.m.fld Reg.qobQid 0 20)) } } : Mach).qcmdTry))) ∧
  (∀ (s : State) (w : World),
    s.m.up = true → s.m.qcmd = none → (w = .s ∨ s.m.qidSec (BitVec.ofNat 20 (s.m.fld Reg.qobQid 0 20)) = false) → s.m.qidMoving (BitVec.ofNat 20 (s.m.fld Reg.qobQid 0 20)) = false →
    exec (.destroy w) s =
      .next (s.replied (({ s.m with qcmd := some { op := 2, qid := (BitVec.ofNat 20 (s.m.fld Reg.qobQid 0 20)), sec := s.m.qidSec (BitVec.ofNat 20 (s.m.fld Reg.qobQid 0 20)), arg := s.m.createLine (BitVec.ofNat 20 (s.m.fld Reg.qobQid 0 20)) } } : Mach).qcmdTry))) ∧
  (∀ (s : State) (w : World),
    s.m.up = true → s.m.qcmd = none → (w = .s ∨ s.m.qidSec (BitVec.ofNat 20 (s.m.fld Reg.qobQid 0 20)) = false) → s.m.qidMoving (BitVec.ofNat 20 (s.m.fld Reg.qobQid 0 20)) = false →
    exec (.reset w) s =
      .next (s.replied (({ s.m with qcmd := some { op := 3, qid := (BitVec.ofNat 20 (s.m.fld Reg.qobQid 0 20)), sec := s.m.qidSec (BitVec.ofNat 20 (s.m.fld Reg.qobQid 0 20)), arg := s.m.createLine (BitVec.ofNat 20 (s.m.fld Reg.qobQid 0 20)) } } : Mach).qcmdTry))) ∧
  (∀ (s : State) (w : World),
    s.m.up = true → s.m.qcmd = none → (w = .s ∨ s.m.qidSec (BitVec.ofNat 20 (s.m.fld Reg.qobQid 0 20)) = false) → s.m.qidMoving (BitVec.ofNat 20 (s.m.fld Reg.qobQid 0 20)) = false →
    exec (.info w) s =
      .next (s.replied (({ s.m with qcmd := some { op := 4, qid := (BitVec.ofNat 20 (s.m.fld Reg.qobQid 0 20)), sec := s.m.qidSec (BitVec.ofNat 20 (s.m.fld Reg.qobQid 0 20)), arg := s.m.createLine (BitVec.ofNat 20 (s.m.fld Reg.qobQid 0 20)) } } : Mach).qcmdTry))) ∧
  (∀ (s : State) (w : World),
    s.m.up = true → s.m.qcmd = none → (w = .s ∨ s.m.qidSec (BitVec.ofNat 20 (s.m.fld Reg.qobQid 0 20)) = false) → s.m.qidMoving (BitVec.ofNat 20 (s.m.fld Reg.qobQid 0 20)) = false →
    exec (.pageout w) s =
      .next (s.replied (({ s.m with qcmd := some { op := 5, qid := (BitVec.ofNat 20 (s.m.fld Reg.qobQid 0 20)), sec := s.m.qidSec (BitVec.ofNat 20 (s.m.fld Reg.qobQid 0 20)), arg := s.m.createLine (BitVec.ofNat 20 (s.m.fld Reg.qobQid 0 20)) } } : Mach).qcmdTry))) ∧
  (∀ (s : State) (w : World),
    s.m.up = true →
    exec (.qobDisable w) s =
      .next (s.replied ((s.m.setFld Reg.qobCtl 0 1 0).active.foldl (fun (m : Mach) h => Mach.fin (m.pageOutAll h)) (s.m.setFld Reg.qobCtl 0 1 0)))) ∧
  (∀ (s : State) (newFirst : BitVec 11),
    s.m.up = true → s.m.qho = none → newFirst.toNat ≤ 1024 → newFirst.toNat ≠ s.m.fld Reg.qobWcfg 16 11 →
    exec (.queueHandOver .s newFirst) s =
      .next (s.replied ({ (s.m.setReg Reg.qobHoPct 0).setReg Reg.qobHoPos (BitVec.ofNat 32 (min newFirst.toNat (s.m.fld Reg.qobWcfg 16 11) * 1024)) with qho := some { cur := min newFirst.toNat (s.m.fld Reg.qobWcfg 16 11) * 1024, first := min newFirst.toNat (s.m.fld Reg.qobWcfg 16 11) * 1024, last := max newFirst.toNat (s.m.fld Reg.qobWcfg 16 11) * 1024, newFirst := newFirst.toNat } }))) ∧
  (∀ (s : State) (newFirst : BitVec 11),
    s.m.up = true → s.m.qho = none → newFirst.toNat ≤ 1024 → newFirst.toNat = s.m.fld Reg.qobWcfg 16 11 →
    exec (.queueHandOver .s newFirst) s =
      .next (s.replied ((s.m.setReg Reg.qobHoPct 10000).setBits Reg.secIrq 2))) ∧
  (∀ (s : State) (o : QHo) (t : Nat),
    s.m.up = true → s.m.qho = some o → o.going = false → s.m.serving (s.m.qidHs (BitVec.ofNat 20 o.cur)) = true → s.m.freeOwn (s.m.qidHs (BitVec.ofNat 20 o.cur)) = some t →
    exec (.handOverQid) s =
      .next (s.after (Mach.fin ((({ s.m with qho := some { o with going := true } } : Mach).setReg Reg.qobHoPos (BitVec.ofNat 32 o.cur)).accepted (s.m.qidHs (BitVec.ofNat 20 o.cur)) t { kind := .qho, key := (BitVec.ofNat 20 o.cur).setWidth 40, sec := s.m.qidSec (BitVec.ofNat 20 o.cur) }))))

/-- INVCRM, FLUSHQW and ZERO from either world, and INVRC and SCRUBSP from the S world, with no operation running and a range that R261
permits (for INVCRM with il also no resident queue in it): the operation starts with its counts at zero and its owner, and open
combining buffers of its range close. INVRC removes the region-cache entries and marks the walks in flight at once, and ends with the
last of them. ABORT stops a running software operation at its position. A write of TMP_CTL stores ie, and ack = 1 clears TMP_STAT.done.
(R260, R261, R262, R265.) -/
def Obligations.TamperCommandsStart : Prop :=
  (∀ (s : State) (w : World) (all il : Bool) (sizeLog2 : BitVec 6),
    s.m.up = true → s.m.tmp = none → s.m.tmpBad 1 all il (s.m.pair Reg.tmpBaseLo Reg.tmpBaseHi).toNat sizeLog2.toNat = false → (il = false ∨ ¬ (all = true ∨ 12 ≤ sizeLog2.toNat ∧ sizeLog2.toNat ≤ 46) ∨ s.m.queueIn (if all then s.m.hbase else (s.m.pair Reg.tmpBaseLo Reg.tmpBaseHi).toNat) (if all then s.m.hlog2 else sizeLog2.toNat) = false) →
    exec (.invcrm w all il sizeLog2) s =
      .next (s.replied (s.m.tmpBegin { op := 1, base := s.m.offPa (s.m.pair Reg.tmpBaseLo Reg.tmpBaseHi).toNat, log2 := sizeLog2.toNat, il, all, owner := if w = .s then .s else .ns }))) ∧
  (∀ (s : State) (w : World) (all il : Bool) (sizeLog2 : BitVec 6),
    s.m.up = true → s.m.tmp = none → s.m.tmpBad 2 all il (s.m.pair Reg.tmpBaseLo Reg.tmpBaseHi).toNat sizeLog2.toNat = false →
    exec (.flushqw w all il sizeLog2) s =
      .next (s.replied (s.m.tmpBegin { op := 2, base := s.m.offPa (s.m.pair Reg.tmpBaseLo Reg.tmpBaseHi).toNat, log2 := sizeLog2.toNat, il, all, owner := if w = .s then .s else .ns }))) ∧
  (∀ (s : State) (all il : Bool) (sizeLog2 : BitVec 6),
    s.m.up = true → s.m.tmp = none → s.m.tmpBad 3 all il (s.m.pair Reg.tmpBaseLo Reg.tmpBaseHi).toNat sizeLog2.toNat = false →
    exec (.invrc .s all il sizeLog2) s =
      .next (s.replied (((s.m.tmpBegin { op := 3, base := s.m.offPa (s.m.pair Reg.tmpBaseLo Reg.tmpBaseHi).toNat, log2 := sizeLog2.toNat, il, all, owner := .s }).setPair Reg.tmpPosLo Reg.tmpPosHi (BitVec.ofNat 64 ((s.m.tmpBegin { op := 3, base := s.m.offPa (s.m.pair Reg.tmpBaseLo Reg.tmpBaseHi).toNat, log2 := sizeLog2.toNat, il, all, owner := .s }).hbase + ((s.m.tmpBegin { op := 3, base := s.m.offPa (s.m.pair Reg.tmpBaseLo Reg.tmpBaseHi).toNat, log2 := sizeLog2.toNat, il, all, owner := .s }).tmpRange ({ op := 3, base := s.m.offPa (s.m.pair Reg.tmpBaseLo Reg.tmpBaseHi).toNat, log2 := sizeLog2.toNat, il, all, owner := .s } : TmpOp)).1))).rcInvalidate ((s.m.tmpBegin { op := 3, base := s.m.offPa (s.m.pair Reg.tmpBaseLo Reg.tmpBaseHi).toNat, log2 := sizeLog2.toNat, il, all, owner := .s }).tmpRange ({ op := 3, base := s.m.offPa (s.m.pair Reg.tmpBaseLo Reg.tmpBaseHi).toNat, log2 := sizeLog2.toNat, il, all, owner := .s } : TmpOp)).1 ((s.m.tmpBegin { op := 3, base := s.m.offPa (s.m.pair Reg.tmpBaseLo Reg.tmpBaseHi).toNat, log2 := sizeLog2.toNat, il, all, owner := .s }).tmpRange ({ op := 3, base := s.m.offPa (s.m.pair Reg.tmpBaseLo Reg.tmpBaseHi).toNat, log2 := sizeLog2.toNat, il, all, owner := .s } : TmpOp)).2 all true))) ∧
  (∀ (s : State) (w : World) (all il : Bool) (sizeLog2 : BitVec 6),
    s.m.up = true → s.m.tmp = none → s.m.tmpBad 4 all il (s.m.pair Reg.tmpBaseLo Reg.tmpBaseHi).toNat sizeLog2.toNat = false →
    exec (.zero w all il sizeLog2) s =
      .next (s.replied (s.m.tmpBegin { op := 4, base := s.m.offPa (s.m.pair Reg.tmpBaseLo Reg.tmpBaseHi).toNat, log2 := sizeLog2.toNat, il, all, owner := if w = .s then .s else .ns }))) ∧
  (∀ (s : State) (all il : Bool) (sizeLog2 : BitVec 6),
    s.m.up = true → s.m.tmp = none → s.m.tmpBad 5 all il (s.m.pair Reg.tmpBaseLo Reg.tmpBaseHi).toNat sizeLog2.toNat = false →
    exec (.scrubsp .s all il sizeLog2) s =
      .next (s.replied (s.m.tmpBegin { op := 5, base := s.m.offPa (s.m.pair Reg.tmpBaseLo Reg.tmpBaseHi).toNat, log2 := sizeLog2.toNat, il, all, owner := .s }))) ∧
  (∀ (s : State) (w : World) (o : TmpOp),
    s.m.up = true → s.m.tmp = some o → o.owner ≠ .device →
    exec (.abort w) s =
      .next (s.replied (({ s.m with tmp := some { o with abort := true } } : Mach).tmpCheck))) ∧
  (∀ (s : State) (w : World) (data : W32),
    s.m.up = true →
    exec (.tmpAck w data) s =
      .next (s.replied (if data.getLsbD 1 then (s.m.setReg Reg.tmpCtl (data &&& 1)).clrBits Reg.tmpStat 0x40000000 else s.m.setReg Reg.tmpCtl (data &&& 1))))

/-- INVCRM_SET drops each tag of the set whose line lies in the range (an S line for an NS operation and a locked line without il are
skipped and counted), stops reads in flight for lines of the set from filling Crema, and moves on. FLUSHQW_SLOT passes over an empty
slot, one at a line boundary, one outside the range, and counts an S queue an NS operation may not flush; else it writes the window of a
queue whose ring region it knows, or walks for it. ZERO_LINE and SCRUBSP_BUCKET send the next line or bucket to its slice while the
slice has room, the former keeping the position and the percentage, which a scrub moves on as its buckets finish. (R235, R248, R262,
R263, R264.) -/
def Obligations.TamperStepsWork : Prop :=
  (∀ (s : State) (hs : SliceId) (o : TmpOp),
    s.m.up = true → s.m.tmp = some o → o.op = 1 → o.abort = false → (s.m.slice hs.val).tmpPos < 1024 → (s.m.slice hs.val).role = .active →
    exec (.invcrmSet hs) s =
      .next (s.after (let set := (s.m.slice hs.val).tmpPos; let m := (List.range 16).foldl (fun (m : Mach) x => let t := m.ctag hs.val set x; if !tgV t || !inRange o.base.toNat o.log2 (offOf (tgKey t)).toNat || (decide (14 ≤ x) && (m.slice hs.val).window set) then m else if o.owner = .ns && tgW t then m.count Reg.tmpWskip else if tgLk t then if o.il then (m.dropTag hs.val set x).lockLost hs.val else m.count Reg.tmpLockskip else m.dropTag hs.val set x) (s.m.checkTags hs.val set); (m.modS hs.val fun v => { v with tmpPos := set + 1, rbuf := v.rbuf.map fun e => (e.1, e.2.map fun b => if crmSet (keyOf b.off) = set then { b with fillOk := false } else b) }).tmpCheck))) ∧
  (∀ (s : State) (hs : SliceId) (o : TmpOp),
    s.m.up = true → s.m.tmp = some o → o.op = 2 → o.abort = false → (s.m.slice hs.val).tmpPos < 1024 → (s.m.slice hs.val).role = .active → (s.m.slice hs.val).slot.get none (s.m.slice hs.val).tmpPos = none →
    exec (.flushqwSlot hs) s =
      .next (s.after ((s.m.modS hs.val fun v => { v with tmpPos := (s.m.slice hs.val).tmpPos + 1 }).tmpCheck))) ∧
  (∀ (s : State) (hs : SliceId) (o : TmpOp) (v : QSlot) (a : Option (BitVec 16)) (x : Nat),
    s.m.up = true → s.m.tmp = some o → o.op = 2 → o.abort = false → (s.m.slice hs.val).tmpPos < 1024 → (s.m.slice hs.val).role = .active → (s.m.slice hs.val).slot.get none (s.m.slice hs.val).tmpPos = some v → v.tail.toNat % 8 ≠ 0 → s.m.tailBusy hs.val (s.m.slice hs.val).tmpPos = false → inRange o.base.toNat o.log2 (s.m.ringOff v.ring v.cap.toNat (lineNo v.tail)).toNat = true → (o.owner = .s ∨ v.sec = false) → o.known = some (hs.val, (s.m.slice hs.val).tmpPos, a) → s.m.ringLeaf v.sec a = .ok x → v.bad = none → crc32c 64 v.twin.toNat = v.tcrc →
    exec (.flushqwSlot hs) s =
      .next (s.after (((s.m.tailWrite hs.val v x).modS hs.val fun y => { y with tmpPos := (s.m.slice hs.val).tmpPos + 1 }).tmpCheck))) ∧
  (∀ (s : State) (o : TmpOp) (h t : Nat),
    s.m.up = true → s.m.tmp = some o → o.op = 4 → o.abort = false → o.sent * 64 < 2 ^ o.log2 → o.why ≠ .spill → s.m.ownLine (o.base + (BitVec.ofNat 46 (o.sent * 64))) = some (h, t) →
    exec (.zeroLine) s =
      .next (s.after (Mach.fin (((({ s.m with tmp := some { o with sent := o.sent + 1, busy := o.busy + 1 } } : Mach).setPair Reg.tmpPosLo Reg.tmpPosHi (BitVec.ofNat 64 (s.m.hbase + (o.base + (BitVec.ofNat 46 (o.sent * 64))).toNat))).setReg Reg.tmpPct (BitVec.ofNat 32 (min 9999 ((o.sent + 1) * 64 * 10000 / 2 ^ o.log2)))).accepted h t { kind := .zero, key := keyOf (o.base + (BitVec.ofNat 46 (o.sent * 64))) })))) ∧
  (∀ (s : State) (o : TmpOp) (h : Nat) (a : PA),
    s.m.up = true → s.m.tmp = some o → o.op = 5 → o.abort = false → o.sent * 64 < 2 ^ o.log2 → s.m.spillDown = false → a = BitVec.ofNat 52 (s.m.hbase + o.base.toNat + o.sent * 64) → h = s.m.hsOf ((s.m.hbase + o.base.toNat + o.sent * 64 - (s.m.pair Reg.glbSpbaseLo Reg.glbSpbaseHi).toNat) / 2 ^ (s.m.fld Reg.glbSpsize 0 6 - 5)) → (s.m.slice h).bktBusy a = false → (s.m.slice h).bktFull = false → ((s.m.slice h).bkts.filter fun b => match b.use with | .scrubRd | .scrubWr _ => true | _ => false).length < 8 →
    exec (.scrubspBucket) s =
      .next (s.after ((({ s.m with tmp := some { o with sent := o.sent + 1, busy := o.busy + 1 } } : Mach).bktAdd h a .scrubRd).bktRead h a)))

/-- A write of CRM_CTL with en = 0 (CRM_DISABLE) clears en; with en = 1 (CRM_ENABLE, or PF_DISABLE while Crema stays on) it sets en where
CRM_STAT.stale is 0; where stale is 1 the S world sets en with force, which clears stale, sets forced and places a record. pf_en is set,
or cleared with everything the prefetcher holds. WAY_DISABLE stores way_dis and drops the lines of the ways newly withdrawn.
PREFETCH_ISSUE sends the first queued prefetch that may go; PREFETCH_EXPIRY drops the oldest and counts it. (R250, R255, R256, R257,
R258, R259.) -/
def Obligations.CremaControls : Prop :=
  (∀ (s : State) (w : World) (data : W32),
    s.m.up = true → data.getLsbD 0 = false →
    exec (.crmDisable w data) s =
      .next (s.replied (if data.getLsbD 2 then (s.m.setFld Reg.crmCtl 0 1 0).setBits Reg.crmCtl 4 else (s.m.setFld Reg.crmCtl 0 1 0).pfOff))) ∧
  (∀ (s : State) (w : World) (data : W32),
    s.m.up = true → data.getLsbD 0 = false →
    exec (.pfDisable w data) s =
      .next (s.replied (if data.getLsbD 2 then (s.m.setFld Reg.crmCtl 0 1 0).setBits Reg.crmCtl 4 else (s.m.setFld Reg.crmCtl 0 1 0).pfOff))) ∧
  (∀ (s : State) (w : World) (data : W32),
    s.m.up = true → data.getLsbD 0 = false →
    exec (.crmEnable w data) s =
      .next (s.replied (if data.getLsbD 2 then (s.m.setFld Reg.crmCtl 0 1 0).setBits Reg.crmCtl 4 else (s.m.setFld Reg.crmCtl 0 1 0).pfOff))) ∧
  (∀ (s : State) (w : World) (data : W32),
    s.m.up = true → data.getLsbD 0 = true → s.m.bit Reg.crmStat 0 = false →
    exec (.crmDisable w data) s =
      .next (s.replied (if data.getLsbD 2 then (({ s.m with tmp := s.m.tmp.map fun (o : TmpOp) => { o with enOff := false } } : Mach).setFld Reg.crmCtl 0 1 1).setBits Reg.crmCtl 4 else (({ s.m with tmp := s.m.tmp.map fun (o : TmpOp) => { o with enOff := false } } : Mach).setFld Reg.crmCtl 0 1 1).pfOff))) ∧
  (∀ (s : State) (w : World) (data : W32),
    s.m.up = true → data.getLsbD 0 = true → s.m.bit Reg.crmStat 0 = false →
    exec (.pfDisable w data) s =
      .next (s.replied (if data.getLsbD 2 then (({ s.m with tmp := s.m.tmp.map fun (o : TmpOp) => { o with enOff := false } } : Mach).setFld Reg.crmCtl 0 1 1).setBits Reg.crmCtl 4 else (({ s.m with tmp := s.m.tmp.map fun (o : TmpOp) => { o with enOff := false } } : Mach).setFld Reg.crmCtl 0 1 1).pfOff))) ∧
  (∀ (s : State) (w : World) (data : W32),
    s.m.up = true → data.getLsbD 0 = true → s.m.bit Reg.crmStat 0 = false →
    exec (.crmEnable w data) s =
      .next (s.replied (if data.getLsbD 2 then (({ s.m with tmp := s.m.tmp.map fun (o : TmpOp) => { o with enOff := false } } : Mach).setFld Reg.crmCtl 0 1 1).setBits Reg.crmCtl 4 else (({ s.m with tmp := s.m.tmp.map fun (o : TmpOp) => { o with enOff := false } } : Mach).setFld Reg.crmCtl 0 1 1).pfOff))) ∧
  (∀ (s : State) (data : W32),
    s.m.up = true → data.getLsbD 0 = true → s.m.bit Reg.crmStat 0 = true → data.getLsbD 1 = true →
    exec (.crmDisable .s data) s =
      .next (s.replied (if data.getLsbD 2 then (({ ((s.m.clrBits Reg.crmStat 1).setBits Reg.crmStat 4).recordV 8 true (payload 8 [1] 8) 1 with tmp := (((s.m.clrBits Reg.crmStat 1).setBits Reg.crmStat 4).recordV 8 true (payload 8 [1] 8) 1).tmp.map fun (o : TmpOp) => { o with enOff := false } } : Mach).setFld Reg.crmCtl 0 1 1).setBits Reg.crmCtl 4 else (({ ((s.m.clrBits Reg.crmStat 1).setBits Reg.crmStat 4).recordV 8 true (payload 8 [1] 8) 1 with tmp := (((s.m.clrBits Reg.crmStat 1).setBits Reg.crmStat 4).recordV 8 true (payload 8 [1] 8) 1).tmp.map fun (o : TmpOp) => { o with enOff := false } } : Mach).setFld Reg.crmCtl 0 1 1).pfOff))) ∧
  (∀ (s : State) (data : W32),
    s.m.up = true → data.getLsbD 0 = true → s.m.bit Reg.crmStat 0 = true → data.getLsbD 1 = true →
    exec (.pfDisable .s data) s =
      .next (s.replied (if data.getLsbD 2 then (({ ((s.m.clrBits Reg.crmStat 1).setBits Reg.crmStat 4).recordV 8 true (payload 8 [1] 8) 1 with tmp := (((s.m.clrBits Reg.crmStat 1).setBits Reg.crmStat 4).recordV 8 true (payload 8 [1] 8) 1).tmp.map fun (o : TmpOp) => { o with enOff := false } } : Mach).setFld Reg.crmCtl 0 1 1).setBits Reg.crmCtl 4 else (({ ((s.m.clrBits Reg.crmStat 1).setBits Reg.crmStat 4).recordV 8 true (payload 8 [1] 8) 1 with tmp := (((s.m.clrBits Reg.crmStat 1).setBits Reg.crmStat 4).recordV 8 true (payload 8 [1] 8) 1).tmp.map fun (o : TmpOp) => { o with enOff := false } } : Mach).setFld Reg.crmCtl 0 1 1).pfOff))) ∧
  (∀ (s : State) (data : W32),
    s.m.up = true → data.getLsbD 0 = true → s.m.bit Reg.crmStat 0 = true → data.getLsbD 1 = true →
    exec (.crmEnable .s data) s =
      .next (s.replied (if data.getLsbD 2 then (({ ((s.m.clrBits Reg.crmStat 1).setBits Reg.crmStat 4).recordV 8 true (payload 8 [1] 8) 1 with tmp := (((s.m.clrBits Reg.crmStat 1).setBits Reg.crmStat 4).recordV 8 true (payload 8 [1] 8) 1).tmp.map fun (o : TmpOp) => { o with enOff := false } } : Mach).setFld Reg.crmCtl 0 1 1).setBits Reg.crmCtl 4 else (({ ((s.m.clrBits Reg.crmStat 1).setBits Reg.crmStat 4).recordV 8 true (payload 8 [1] 8) 1 with tmp := (((s.m.clrBits Reg.crmStat 1).setBits Reg.crmStat 4).recordV 8 true (payload 8 [1] 8) 1).tmp.map fun (o : TmpOp) => { o with enOff := false } } : Mach).setFld Reg.crmCtl 0 1 1).pfOff))) ∧
  (∀ (s : State) (w : World) (hs : SliceId) (wayDis : BitVec 8),
    s.m.up = true →
    exec (.wayDisable w hs wayDis) s =
      .next (s.replied (if wayDis &&& ~~~ ((s.m.reg (hsA hs.val Reg.hsCrmctl)).setWidth 8) = 0 then s.m.setReg (hsA hs.val Reg.hsCrmctl) (wayDis.setWidth 32) else (s.m.setReg (hsA hs.val Reg.hsCrmctl) (wayDis.setWidth 32)).dropWays hs.val fun x => (wayDis &&& ~~~ ((s.m.reg (hsA hs.val Reg.hsCrmctl)).setWidth 8)).getLsbD x))) ∧
  (∀ (s : State) (hs : SliceId) (q : Pf) (rest : List Pf) (a : BitVec 16),
    s.m.up = true → (s.m.slice hs.val).pfq = q :: rest → s.m.rcFind hs.val (BitVec.ofInt 46 q.off) = some a → atPf a = true → atAlloc a = true → s.m.crmClass (BitVec.ofInt 46 q.off) a = true → atSec a = q.sec → s.m.crmWay hs.val (keyOf (BitVec.ofInt 46 q.off)) = none → s.m.bit Reg.crmCtl 0 = true → s.m.bit Reg.crmCtl 2 = true → (s.m.slice hs.val).held ((0 : BitVec 1) ++ keyOf (BitVec.ofInt 46 q.off)) = false → (s.m.slice hs.val).waited ((0 : BitVec 1) ++ keyOf (BitVec.ofInt 46 q.off)) = false → 8 < (s.m.slice hs.val).rbFree → (s.m.port (atPort a)).egr = [] → (s.m.port (atPort a)).peer.getD 6 0 ≠ 0 → s.m.portDown (atPort a) = false →
    exec (.prefetchIssue hs) s =
      .next (s.after (((s.m.modS hs.val fun v => { v with pfq := v.pfq.erase q }).bump hs.val Reg.hscPfiss).askRead hs.val (.prefetch a) (atPort a) (BitVec.ofInt 46 q.off)))) ∧
  (∀ (s : State) (hs : SliceId) (q : Pf) (rest : List Pf),
    s.m.up = true → (s.m.slice hs.val).pfq = q :: rest →
    exec (.prefetchExpiry hs) s =
      .next (s.after ((s.m.modS hs.val fun v => { v with pfq := rest }).bump hs.val Reg.hscPfdrop)))

/-- LOCK (while Crema is on) and UNLOCK of a range R252 permits, with no lock command and no wipe running, start with result, counts,
percentage and position at zero; LOCK_LINE and UNLOCK_LINE send the next line to its home slice where it has an entry free.
LOCK_WAY_HANDOVER from the S world to a new count of at most 6 stores it and starts a wipe in every active slice; LOCK_WAY_WIPE_SET
drops the withdrawn ways of one set, counting the locks lost, and the last one of the last slice raises the interrupt. (R251, R252.) -/
def Obligations.CremaLocks : Prop :=
  (∀ (s : State) (w : World) (sizeLog2 : BitVec 6),
    s.m.up = true → s.m.lk = none → s.m.wiping = false → 12 ≤ sizeLog2.toNat → sizeLog2.toNat ≤ 34 → s.m.rangeOk (s.m.pair Reg.crmLkbaseLo Reg.crmLkbaseHi).toNat sizeLog2.toNat = true → s.m.bit Reg.crmCtl 0 = true →
    exec (.lock w sizeLog2) s =
      .next (s.replied ({ ((((s.m.setFld Reg.crmLkstat 0 4 0).setReg Reg.crmLkfail 0).setReg Reg.crmLkskip 0).setReg Reg.crmLkPct 0).setPair Reg.crmLkPosLo Reg.crmLkPosHi 0 with lk := some { lock := true, base := (((((s.m.setFld Reg.crmLkstat 0 4 0).setReg Reg.crmLkfail 0).setReg Reg.crmLkskip 0).setReg Reg.crmLkPct 0).setPair Reg.crmLkPosLo Reg.crmLkPosHi 0).offPa (s.m.pair Reg.crmLkbaseLo Reg.crmLkbaseHi).toNat, log2 := sizeLog2.toNat, sec := decide (w = .s) } }))) ∧
  (∀ (s : State) (w : World) (sizeLog2 : BitVec 6),
    s.m.up = true → s.m.lk = none → s.m.wiping = false → 12 ≤ sizeLog2.toNat → sizeLog2.toNat ≤ 34 → s.m.rangeOk (s.m.pair Reg.crmLkbaseLo Reg.crmLkbaseHi).toNat sizeLog2.toNat = true →
    exec (.unlock w sizeLog2) s =
      .next (s.replied ({ ((((s.m.setFld Reg.crmLkstat 0 4 0).setReg Reg.crmLkfail 0).setReg Reg.crmLkskip 0).setReg Reg.crmLkPct 0).setPair Reg.crmLkPosLo Reg.crmLkPosHi 0 with lk := some { lock := false, base := (((((s.m.setFld Reg.crmLkstat 0 4 0).setReg Reg.crmLkfail 0).setReg Reg.crmLkskip 0).setReg Reg.crmLkPct 0).setPair Reg.crmLkPosLo Reg.crmLkPosHi 0).offPa (s.m.pair Reg.crmLkbaseLo Reg.crmLkbaseHi).toNat, log2 := sizeLog2.toNat, sec := decide (w = .s) } }))) ∧
  (∀ (s : State) (k : LkCmd) (h t : Nat),
    s.m.up = true → s.m.lk = some k → k.lock = true → k.sent * 64 < 2 ^ k.log2 → s.m.ownLine (k.base + BitVec.ofNat 46 (k.sent * 64)) = some (h, t) →
    exec (.lockLine) s =
      .next (s.after (Mach.fin (((({ s.m with lk := some { k with sent := k.sent + 1, busy := k.busy + 1 } } : Mach).setPair Reg.crmLkPosLo Reg.crmLkPosHi (BitVec.ofNat 64 (s.m.hbase + (k.base + BitVec.ofNat 46 (k.sent * 64)).toNat))).setReg Reg.crmLkPct (BitVec.ofNat 32 (min 9999 ((k.sent + 1) * 64 * 10000 / 2 ^ k.log2)))).accepted h t { kind := .lock, key := keyOf (k.base + BitVec.ofNat 46 (k.sent * 64)), sec := k.sec })))) ∧
  (∀ (s : State) (k : LkCmd) (h t : Nat),
    s.m.up = true → s.m.lk = some k → k.lock = false → k.sent * 64 < 2 ^ k.log2 → s.m.ownLine (k.base + BitVec.ofNat 46 (k.sent * 64)) = some (h, t) →
    exec (.unlockLine) s =
      .next (s.after (Mach.fin (((({ s.m with lk := some { k with sent := k.sent + 1, busy := k.busy + 1 } } : Mach).setPair Reg.crmLkPosLo Reg.crmLkPosHi (BitVec.ofNat 64 (s.m.hbase + (k.base + BitVec.ofNat 46 (k.sent * 64)).toNat))).setReg Reg.crmLkPct (BitVec.ofNat 32 (min 9999 ((k.sent + 1) * 64 * 10000 / 2 ^ k.log2)))).accepted h t { kind := .unlock, key := keyOf (k.base + BitVec.ofNat 46 (k.sent * 64)), sec := k.sec })))) ∧
  (∀ (s : State) (sWays : BitVec 3),
    s.m.up = true → sWays.toNat ≠ s.m.fld Reg.crmLkcfg 0 3 → s.m.wiping = false → sWays.toNat ≤ 6 →
    exec (.lockWayHandover .s sWays) s =
      .next (s.replied (s.m.wipeStart sWays.toNat))) ∧
  (∀ (s : State) (hs : SliceId) (x : Nat) (ways : BitVec 16),
    s.m.up = true → (s.m.slice hs.val).wipe = some (x, ways) →
    exec (.lockWayWipeSet hs) s =
      .next (s.after (let m := (List.range 16).foldl (fun (m : Mach) y => if !ways.getLsbD y then m else (if tgV (m.ctag hs.val x y) && tgLk (m.ctag hs.val x y) then m.lockLost hs.val else m).dropTag hs.val x y) s.m; let m := m.modS hs.val fun v => { v with wipe := if x + 1 < 1024 then some (x + 1, ways) else none }; if m.wiping then m else m.setBits Reg.secIrq 4)))

/-- A write of LCTL.quiesce that changes it, not held for a claimed adapter, sets the bit, or clears it and returns the withheld REQ and MBS
credits unless the safe state or a drain withholds them; one that changes nothing has no more effect. LCTL.retrain puts a link that
moves flits in RETRAIN, quiesce as it stands. LCTL.fence from the S world fences the port with cause COMMAND and its capture; from the
NS world it is ignored and recorded in PG_ERR with cause WORLD. (R296, R299, R399.) -/
def Obligations.PortControlsAct : Prop :=
  (∀ (s : State) (w : World) (port : PortId),
    s.m.up = true → s.m.populated port.val = true → s.m.bit (portA port.val Reg.pLctl) 0 = false → (w = .s ∨ s.m.claimed (portDom port.val) = false) →
    exec (.quiesce w port true) s =
      .next (s.replied (s.m.setBits (portA port.val Reg.pLctl) 1))) ∧
  (∀ (s : State) (w : World) (port : PortId),
    s.m.up = true → s.m.populated port.val = true → s.m.bit (portA port.val Reg.pLctl) 0 = true →
    exec (.quiesce w port false) s =
      .next (s.replied (if s.m.safe.isSome ∨ s.m.drain.isSome then s.m.clrBits (portA port.val Reg.pLctl) 1 else (s.m.clrBits (portA port.val Reg.pLctl) 1).modP port.val fun v => { v with crq := (List.range 9).map fun c => v.crq.getD c 0 + v.withh.getD c 0, withh := [0, 0, 0, 0, 0, 0, 0, 0, 0] }))) ∧
  (∀ (s : State) (w : World) (port : PortId) (on : Bool),
    s.m.up = true → s.m.populated port.val = true → s.m.bit (portA port.val Reg.pLctl) 0 = on →
    exec (.quiesce w port on) s =
      .next (s.replied (s.m))) ∧
  (∀ (s : State) (w : World) (port : PortId),
    s.m.up = true → s.m.populated port.val = true → s.m.portIn port.val = true → (w = .s ∨ s.m.claimed (portDom port.val) = false) →
    exec (.lctlRetrain w port) s =
      .next (s.replied (((s.m.setLink port.val .retrain).trainGo port.val).modP port.val fun v => { v with rfail := 0, timed := false }))) ∧
  (∀ (s : State) (port : PortId),
    s.m.up = true → s.m.populated port.val = true → (s.m.port port.val).st ≠ .fenced →
    exec (.portFenceCmd .s port) s =
      .next (s.replied (s.m.fencePort port.val 3 true))) ∧
  (∀ (s : State) (port : PortId),
    s.m.up = true → s.m.populated port.val = true →
    exec (.portFenceCmd .ns port) s =
      .next (s.replied (s.m.refuse .ns (portA port.val Reg.pLctl) .world)))

/-- A SOFT reset from the S world, in service and with no drain or transition, and a WARM reset start the drain; a drain that runs goes on
as a WARM one. A SLICE reset from the S world of a slice that is not active and that no rehoming uses returns its state and both pages
to reset (PG_PAR kept), ends a side-port read in it, and turns its domains OFF. A PORT reset of a populated port in DOWN, or from the S
world in FENCED, returns the port and its counters to reset. RESET_DRAIN_DONE ends the drain, wipes the arrays, counts the reset and
restarts bring-up at step 2 or 3. ZEROISE_ENTRY writes one entry of every array and reports the slowest slice. (R299, R376, R377, R378,
R379, R380.) -/
def Obligations.ResetsAct : Prop :=
  (∀ (s : State),
    s.m.up = true → s.m.drain = none → s.m.safe = none → s.m.lc = none →
    exec (.softReset .s) s =
      .next (s.replied ((s.m.setFld Reg.rstStat 0 4 0).drainStart .soft))) ∧
  (∀ (s : State) (hs : BitVec 6),
    s.m.up = true → s.m.drain = none → hs.toNat < 34 → (s.m.slice hs.toNat).role ≠ .active → s.m.rehome = none → s.m.slices.any (fun e => e.2.copy.any fun c => c.old = hs.toNat) = false → (s.m.slice hs.toNat).msp = none →
    exec (.sliceReset .s hs) s =
      .next (s.replied (let m := ((List.range 6).foldl (fun (m : Mach) k => m.domTo (sliceDom hs.toNat k) .off) (s.m.setSlice hs.toNat { role := (s.m.slice hs.toNat).role, ls := (s.m.slice hs.toNat).ls, run := (s.m.slice hs.toNat).run, bank := s.m.banksAt hs.toNat })).shared; ((((m.clearPage (0x80 + hs.toNat) 0x010).clearPage (0xC0 + hs.toNat) 0x010).setReg (Reg.pgPar (0x80 + hs.toNat)) (s.m.reg (Reg.pgPar (0x80 + hs.toNat)))).setReg (Reg.pgPar (0xC0 + hs.toNat)) (s.m.reg (Reg.pgPar (0xC0 + hs.toNat)))).setFld Reg.rstStat 0 4 0))) ∧
  (∀ (s : State) (w : World) (num : BitVec 6),
    s.m.up = true → s.m.drain = none → num.toNat < 16 → s.m.populated num.toNat = true → (s.m.port num.toNat).st = .down → (w = .s ∨ s.m.claimed (portDom num.toNat) = false) →
    exec (.portReset w 0 num) s =
      .next (s.replied (((((((((((s.m.setPort num.toNat {}).clearPort num.toNat).setReg (portA num.toNat Reg.pPctl) 0).setReg (portA num.toNat Reg.pRtwin) 0).clrBits (portA num.toNat Reg.pLctl) 1).setReg (Reg.pgErr (0x40 + num.toNat)) 0).setReg (Reg.pgErrmask (0x40 + num.toNat)) 0).setFld (portA num.toNat Reg.pLstat) 28 4 0).loadPage (0x40 + num.toNat)).trainGo num.toNat).setFld Reg.rstStat 0 4 0))) ∧
  (∀ (s : State) (num : BitVec 6),
    s.m.up = true → s.m.drain = none → num.toNat < 16 → s.m.populated num.toNat = true → (s.m.port num.toNat).st = .fenced →
    exec (.portReset .s 0 num) s =
      .next (s.replied ((((((((((((s.m.setLink num.toNat .down).setPort num.toNat {}).clearPort num.toNat).setReg (portA num.toNat Reg.pPctl) 0).setReg (portA num.toNat Reg.pRtwin) 0).clrBits (portA num.toNat Reg.pLctl) 1).setReg (Reg.pgErr (0x40 + num.toNat)) 0).setReg (Reg.pgErrmask (0x40 + num.toNat)) 0).setFld (portA num.toNat Reg.pLstat) 28 4 0).loadPage (0x40 + num.toNat)).trainGo num.toNat).setFld Reg.rstStat 0 4 0))) ∧
  (∀ (s : State),
    s.m.up = true → s.m.lc = none →
    exec .warmReset s =
      .next (s.after (if s.m.drain.isSome then { s.m with drain := some .warm } else s.m.drainStart .warm))) ∧
  (∀ (s : State),
    s.m.up = true → s.m.drain = some .warm →
    exec .resetDrainDone s =
      .next (s.after ((((s.m.drainEnd.wipe s.fuse false 2).count Reg.rstRcnt).setFld Reg.rstStat 24 3 1).setFld Reg.rstStat 0 4 0))) ∧
  (∀ (s : State),
    s.m.up = true → s.m.drain = some .soft →
    exec .resetDrainDone s =
      .next (s.after ((((s.m.drainEnd.wipe s.fuse true 3).count Reg.rstRcnt).setFld Reg.rstStat 24 3 2).setFld Reg.rstStat 0 4 0))) ∧
  (∀ (s : State) (hs : SliceId) (z : Zer),
    s.m.up = true → (s.m.slice hs.val).zeroise = some z →
    exec (.zeroiseEntry hs) s =
      .next (s.after (let m := s.m.modS hs.val fun v => { v with zeroise := if z.total ≤ z.pos + 1 then none else some { z with pos := z.pos + 1 } }; let m := match (List.range 34).filterMap fun k => (m.slice k).zeroise with | [] => (m.setReg Reg.rstZPct 10000).setReg Reg.rstZPos (BitVec.ofNat 32 (if z.bank3 then 16383 else 1023)) | x :: r => let slow := r.foldl (fun (a y : Zer) => if y.pos * 10000 / y.total < a.pos * 10000 / a.total then y else a) x; (m.setReg Reg.rstZPct (BitVec.ofNat 32 (slow.pos * 10000 / slow.total))).setReg Reg.rstZPos (BitVec.ofNat 32 (if slow.bank3 then slow.pos / 4 else slow.pos % 1024)); m.kick hs.val)))

/-- POR returns everything but the fuses, the counter store, the record store and the netlist parameters to reset; the fuses hold as many of
the three copies as a lifecycle transition had burned when power was lost, a free value. Its release starts bring-up at step 1, with
OPSEC resumed from the slot of the counter store that holds the highest value and PCC one more than that slot held. Each step in turn,
while nothing stops bring-up, does its work and raises the percentage: 2 powers the controllers and finds the recorder head (and erases
a store without its marker in DECOMMISSIONED), 3 checks and loads the image or refuses it, 4 enables the region map, 5 fixes the mapping
and starts the slices, 6 waits until no populated port is DOWN and refuses the image where the port of a seed is FENCED, and starts the
zero-fill of the spill directory, 7 ends that fill and opens the credits. (R373, R376, R382, R383, R405.) -/
def Obligations.PowerOnAndBringUp : Prop :=
  (∀ (s : State),
    exec .por s =
      .next ({ s with m := { integ := s.m.integ, free := s.m.free + 1 }, fuse := s.burnt (Config.burned s.m.free).val })) ∧
  (∀ (s : State) (k : Fin 16),
    s.m.up = false → (∀ i : Fin 16, (s.cstore[i]).1.toNat < (s.cstore[k]).1.toNat ∨ i = k) →
    exec .porRelease s =
      .next ({ s with m := (({ s.m with up := true, step := 1, cslot := (k.val + 1) % 16 }.setReg Reg.aonOpsec (s.cstore[k]).1).setReg Reg.aonPcc (((s.cstore[k]).2 + 1).setWidth 32)).fused s.fuse })) ∧
  (∀ (s : State) (img : Image),
    s.m.up = true → s.m.halted = false → s.m.rcr.closed = false → s.m.drain = none → s.m.safe = none → s.m.lc = none → s.m.step = 1 →
    exec (.bringupStepDone img) s =
      .next (State.settle ({ s with m := (s.m.stepEnd).step2In }))) ∧
  (∀ (s : State) (img : Image),
    s.m.up = true → s.m.halted = false → s.m.rcr.closed = false → s.m.drain = none → s.m.safe = none → s.m.lc = none → s.m.step = 2 → (s.m.lcState ≠ 4 ∨ s.erased = true) →
    exec (.bringupStepDone img) s =
      .next (State.settle ({ ({ s with m := s.m.step2In } : State).headScan with m := ({ s with m := s.m.step2In } : State).headScan.m.stepEnd }))) ∧
  (∀ (s : State) (img : Image),
    s.m.up = true → s.m.halted = false → s.m.rcr.closed = false → s.m.drain = none → s.m.safe = none → s.m.lc = none → s.m.step = 2 → s.m.lcState = 4 → s.erased = false →
    exec (.bringupStepDone img) s =
      .next (State.settle (let t : State := { s.eraseStore with m := s.eraseStore.m.step2In }; { t.headScan with m := t.headScan.m.stepEnd }))) ∧
  (∀ (s : State) (img : Image),
    s.m.up = true → s.m.halted = false → s.m.rcr.closed = false → s.m.drain = none → s.m.safe = none → s.m.lc = none → s.m.step = 3 → s.m.ctrlRuns 0 = true →
    exec (.bringupStepDone img) s =
      .next (State.settle ({ s with m := let m := s.m.step3 (keyOfWords s.fuse.key) img; if m.halted then m.lcOver else m.stepEnd }))) ∧
  (∀ (s : State) (img : Image),
    s.m.up = true → s.m.halted = false → s.m.rcr.closed = false → s.m.drain = none → s.m.safe = none → s.m.lc = none → s.m.step = 4 →
    exec (.bringupStepDone img) s =
      .next (State.settle ({ s with m := (s.m.setBits Reg.rmpCtl 1).stepEnd }))) ∧
  (∀ (s : State) (img : Image),
    s.m.up = true → s.m.halted = false → s.m.rcr.closed = false → s.m.drain = none → s.m.safe = none → s.m.lc = none → s.m.step = 5 →
    exec (.bringupStepDone img) s =
      .next (State.settle ({ s with m := (s.m.step5.stepEnd).step6In }))) ∧
  (∀ (s : State) (img : Image),
    s.m.up = true → s.m.halted = false → s.m.rcr.closed = false → s.m.drain = none → s.m.safe = none → s.m.lc = none → s.m.step = 6 → (List.range 28).all (fun p => !s.m.populated p || decide ((s.m.port p).st ≠ .down)) = true → s.m.seeds.find? (fun x => (s.m.port (16 + x.2.2)).st = .fenced) = none →
    exec (.bringupStepDone img) s =
      .next (State.settle ({ s with m := s.m.stepEnd.step7In }))) ∧
  (∀ (s : State) (img : Image) (x : Nat × Nat × Nat),
    s.m.up = true → s.m.halted = false → s.m.rcr.closed = false → s.m.drain = none → s.m.safe = none → s.m.lc = none → s.m.step = 6 → (List.range 28).all (fun p => !s.m.populated p || decide ((s.m.port p).st ≠ .down)) = true → s.m.seeds.find? (fun x => (s.m.port (16 + x.2.2)).st = .fenced) = some x →
    exec (.bringupStepDone img) s =
      .next (State.settle ({ s with m := (s.m.imgRefuse 12 (16 + x.2.2)).lcOver }))) ∧
  (∀ (s : State) (img : Image),
    s.m.up = true → s.m.halted = false → s.m.rcr.closed = false → s.m.drain = none → s.m.safe = none → s.m.lc = none → s.m.step = 7 → s.m.tmpq.any (fun (o : TmpOp) => o.why = TmpWhy.spill) = false →
    exec (.bringupStepDone img) s =
      .next (State.settle ({ s with m := (s.m.step7.setReg Reg.pwrBuPct 10000).lcOver })))

/-- PWR_DOMCMD that R364 and R365 do not refuse, and for OFF not held for a claimed domain: ON starts an OFF domain waking and is done for
one that is ON; OFF starts a Crema array draining, or another domain, and is done for one that is OFF. DOMAIN_WAKE_DONE turns a WAKING
domain ON, with its way-bank; DOMAIN_DRAIN_DONE turns a DRAINING one OFF once its work has ended, a Crema array with everything in it
gone. The end of a command clears busy, leaves result 0 and sets PWR_EVT.dom_done. While CP is in reset a command waits, and so do the
ends of draining; what waited goes on when CP runs again and when a domain has switched. (R363, R364, R365, R366, R399.) -/
def Obligations.DomainsSwitch : Prop :=
  (∀ (s : State) (w : World) (dom : BitVec 8),
    s.m.up = true → s.m.domWhy w dom.toNat true = none → s.m.ctrlRuns 0 = false →
    exec (.domainOn w dom) s =
      .next (s.replied ({ s.m with domCmd := some (dom.toNat, true) }))) ∧
  (∀ (s : State) (w : World) (dom : BitVec 8),
    s.m.up = true → s.m.domWhy w dom.toNat true = none → s.m.dom dom.toNat = .off → s.m.ctrlRuns 0 = true → s.m.domq = [] →
    exec (.domainOn w dom) s =
      .next (s.replied (({ s.m with domCmd := some (dom.toNat, true) } : Mach).domTo dom.toNat .waking))) ∧
  (∀ (s : State) (w : World) (dom : BitVec 8),
    s.m.up = true → s.m.domWhy w dom.toNat true = none → s.m.dom dom.toNat = .on → s.m.ctrlRuns 0 = true → s.m.domq = [] →
    exec (.domainOn w dom) s =
      .next (s.replied (({ s.m with domCmd := some (dom.toNat, true) } : Mach).domEnd))) ∧
  (∀ (s : State) (w : World) (dom : BitVec 8),
    s.m.up = true → s.m.domWhy w dom.toNat false = none → (w = .s ∨ s.m.claimed (dom.toNat) = false) → s.m.dom dom.toNat = .on → s.m.ctrlRuns 0 = true → s.m.domq = [] →
    exec (.domainOff w dom) s =
      .next (s.replied (if dom.toNat < 204 then ({ s.m with domCmd := some (dom.toNat, false) } : Mach).crmDrain (dom.toNat / 6) else ({ s.m with domCmd := some (dom.toNat, false) } : Mach).moveDom dom.toNat .draining))) ∧
  (∀ (s : State) (w : World) (dom : BitVec 8),
    s.m.up = true → s.m.domWhy w dom.toNat false = none → (w = .s ∨ s.m.claimed (dom.toNat) = false) → s.m.dom dom.toNat = .off → s.m.ctrlRuns 0 = true → s.m.domq = [] →
    exec (.domainOff w dom) s =
      .next (s.replied (({ s.m with domCmd := some (dom.toNat, false) } : Mach).domEnd))) ∧
  (∀ (s : State) (dom : BitVec 8),
    s.m.up = true → s.m.dom dom.toNat = .waking →
    exec (.domainWakeDone dom) s =
      .next (s.after (let m := s.m.moveDom dom.toNat .on; let m := if dom.toNat < 204 ∧ 1 ≤ dom.toNat % 6 ∧ dom.toNat % 6 ≤ 4 then m.modS (dom.toNat / 6) fun v => { v with bank := if v.bank.getD (dom.toNat % 6 - 1) .off = .waking then v.bank.setIfInBounds (dom.toNat % 6 - 1) .on else v.bank, auto := v.auto &&& ~~~ (1#4 <<< (dom.toNat % 6 - 1)) } else m; let m := if 214 ≤ dom.toNat ∧ dom.toNat < 242 then m.shared.trainGo (dom.toNat - 214) else m; m.domResume))) ∧
  (∀ (s : State) (dom : BitVec 8),
    s.m.up = true → s.m.dom dom.toNat = .draining → s.m.ctrlRuns 0 = true → 204 ≤ dom.toNat →
    exec (.domainDrainDone dom) s =
      .next (s.after ((s.m.moveDom dom.toNat .off).shared.domResume))) ∧
  (∀ (s : State) (dom : BitVec 8),
    s.m.up = true → s.m.dom dom.toNat = .draining → dom.toNat < 204 → dom.toNat % 6 ≠ 0 → s.m.ctrlRuns 0 = true → (s.m.slice (dom.toNat / 6)).slot = [] → (s.m.slice (dom.toNat / 6)).busy.any (fun e => e.2.st = .active && e.2.kind = .atm && e.2.far && e.2.crm.use) = false →
    exec (.domainDrainDone dom) s =
      .next (s.after (((s.m.modS (dom.toNat / 6) fun v => { v with ctag := [], cnru := [], cdat := [] }).moveDom dom.toNat .off).domResume))) ∧
  (∀ (s : State) (dom : BitVec 8),
    s.m.up = true → s.m.dom dom.toNat = .draining → dom.toNat < 204 → dom.toNat % 6 = 0 → s.m.ctrlRuns 0 = true → s.m.idle (dom.toNat / 6) = true → (s.m.slice (dom.toNat / 6)).slot = [] →
    exec (.domainDrainDone dom) s =
      .next (s.after (s.m.sliceOff (dom.toNat / 6))))

/-- SLICE_CLOCK_GATE gates an idle active slice whose logic is ON; SLICE_CLOCK_RESTART ungates one. SLICE_POWER_DOWN starts an idle, empty
active slice draining once Tribex is up, and pages out its queues; SLICE_WAKE ends a power-down that is still draining, and starts an
OFF slice waking with the banks and the Crema array it had. FREQ_SET stores frequencies in range, not held for a claimed slice, and
starts a change to the goal where the clock runs and the throttle does not keep it; FREQ_RELOCK_DONE ends a change, but not while a
rehoming is in FREEZE or CP in reset. TMON0_TRIP throttles the clock and TMON0_CLEAR returns it. (R367, R369, R370, R372, R399.) -/
def Obligations.SlicePowerAndClocks : Prop :=
  (∀ (s : State) (hs : SliceId),
    s.m.up = true → s.m.dom (sliceDom hs.val 0) = .on → (s.m.slice hs.val).role = .active → s.m.idle hs.val = true →
    exec (.sliceClockGate hs) s =
      .next (s.after (s.m.modS hs.val fun v => { v with gated := true }))) ∧
  (∀ (s : State) (hs : SliceId),
    s.m.up = true →
    exec (.sliceClockRestart hs) s =
      .next (s.after (s.m.modS hs.val fun v => { v with gated := false }))) ∧
  (∀ (s : State) (hs : SliceId),
    s.m.up = true → (s.m.slice hs.val).role = .active → s.m.dom (sliceDom hs.val 0) = .on → s.m.idle hs.val = true → (s.m.slice hs.val).bare = true → s.m.step = 8 → s.m.ctrlRuns 0 = true →
    exec (.slicePowerDown hs) s =
      .next (s.after (Mach.fin ((s.m.moveDom (sliceDom hs.val 0) .draining).pageOutAll hs.val)))) ∧
  (∀ (s : State) (hs : SliceId),
    s.m.up = true → (s.m.slice hs.val).role = .active → s.m.dom (sliceDom hs.val 0) = .draining →
    exec (.sliceWake hs) s =
      .next (s.after (s.m.domTo (sliceDom hs.val 0) .on))) ∧
  (∀ (s : State) (hs : SliceId),
    s.m.up = true → (s.m.slice hs.val).role = .active → s.m.dom (sliceDom hs.val 0) = .off → s.m.step = 8 →
    exec (.sliceWake hs) s =
      .next (s.after (let m := (List.range 4).foldl (fun (m : Mach) b => if (m.slice hs.val).bank.getD b .off = .on then (m.modS hs.val fun v => { v with bank := v.bank.setIfInBounds b .waking }).domTo (sliceDom hs.val (1 + b)) .waking else m) (s.m.domTo (sliceDom hs.val 0) .waking); if (m.slice hs.val).crmIdle then ((m.modS hs.val fun v => { v with crmIdle := false }).domTo (sliceDom hs.val 5) .waking).shared else m.shared))) ∧
  (∀ (s : State) (w : World) (data : W32),
    s.m.up = true → s.m.freqTo = none → s.m.freqOk (data.extractLsb' 0 5).toNat = true → s.m.freqOk (data.extractLsb' 16 5).toNat = true → (w = .s ∨ s.m.active.any (fun h => s.m.claimed (sliceDom h 0)) = false) →
    exec (.freqSet w data) s =
      .next (s.replied (let m := s.m.setReg Reg.pwrFreq ((s.m.reg Reg.pwrFreq &&& ~~~ (0x1F001F#32)) ||| (data &&& 0x1F001F#32)); if m.cur = 0 ∨ m.throttle = true ∧ (data.extractLsb' 16 5).toNat ≤ (data.extractLsb' 0 5).toNat ∧ m.freqGoal = m.cur then m else { m with freqTo := some m.freqGoal }))) ∧
  (∀ (s : State) (f : BitVec 5),
    s.m.up = true → s.m.freqTo = some f → s.m.rehome.any (·.freeze) = false → s.m.ctrlRuns 0 = true →
    exec .freqRelockDone s =
      .next (s.after (({ s.m with cur := f, freqTo := none } : Mach).setEvt 5))) ∧
  (∀ (s : State),
    s.m.up = true →
    exec .tmon0Trip s =
      .next (s.after (let m := (({ s.m with tmon := s.m.tmon ||| 1, throttle := true } : Mach).setEvt 2).powerRec 0 0 0 4 false true; if m.cur = 0 ∨ m.freqGoal = m.freqTo.getD m.cur then m else { m with freqTo := some m.freqGoal }))) ∧
  (∀ (s : State),
    s.m.up = true → s.m.tmon.getLsbD 0 = true →
    exec .tmon0Clear s =
      .next (s.after (let m : Mach := { s.m with tmon := s.m.tmon &&& 2, throttle := false }; if m.cur = 0 ∨ m.freqGoal = m.freqTo.getD m.cur then m else { m with freqTo := some m.freqGoal })))

/-- OPSEC_TICK counts one second, lets the flush budget count anew and writes the counter store. TMON1_TRIP and VMON_TRIP set their PWR_EVT
bit and place a POWER record; TMON1, VMON3, and VMON0 to 2 where pf is 1, start the power-fail flush and write the counter store. A
watchdog expiry or a fault of a running controller holds it in reset with its cause, and a restart lets it run again with its patch: RVP
then reports a copy that went on, TLP places its record, CP switches the domains that waited. A logic fault stops an active slice and
has it rehomed. A parity mismatch of a register is kept once in PG_PAR and captured for the unit whose page it is. (R328, R334, R335,
R336, R353, R373, R374.) -/
def Obligations.IslandAndControllers : Prop :=
  (∀ (s : State),
    s.m.up = true →
    exec .opsecTick s =
      .next (State.settle (({ s with m := let m := s.m.setReg Reg.aonOpsec (s.m.reg Reg.aonOpsec + 1); { m with rcr := { m.rcr with spent := 0 } } } : State).cstorePut))) ∧
  (∀ (s : State),
    s.m.up = true →
    exec .tmon1Trip s =
      .next (State.settle (({ s with m := (({ s.m with tmon := s.m.tmon ||| 2 } : Mach).setEvt 3).powerFail 5 } : State).cstorePut))) ∧
  (∀ (s : State) (k : Vmon),
    s.m.up = true → (k.val = 3 ∨ (({ s.m with vmon := s.m.vmon ||| (1#4 <<< k.val) } : Mach).setEvt 1).bit (Reg.aonVcfg + 4 * k.val) 31 = true) →
    exec (.vmonTrip k) s =
      .next (State.settle (({ s with m := (({ s.m with vmon := s.m.vmon ||| (1#4 <<< k.val) } : Mach).setEvt 1).powerFail k.val } : State).cstorePut))) ∧
  (∀ (s : State) (k : Vmon),
    s.m.up = true → k.val ≠ 3 → (({ s.m with vmon := s.m.vmon ||| (1#4 <<< k.val) } : Mach).setEvt 1).bit (Reg.aonVcfg + 4 * k.val) 31 = false →
    exec (.vmonTrip k) s =
      .next (s.after ((({ s.m with vmon := s.m.vmon ||| (1#4 <<< k.val) } : Mach).setEvt 1).powerRec 0 0 0 k.val false true))) ∧
  (∀ (s : State) (c : Ctrl),
    s.m.up = true → s.m.ctrlRuns (ctrlNum c) = true →
    exec (.watchdogExpiry c) s =
      .next (s.after ((({ s.m with free := s.m.free + 1 } : Mach).setBits Reg.aonWdt (1#32 <<< ctrlNum c)).ctrlFault (ctrlNum c) 1 (Config.faultPc s.m.free)))) ∧
  (∀ (s : State) (c : Ctrl) (trap : Bool) (pc : W32),
    s.m.up = true → s.m.ctrlRuns (ctrlNum c) = true → c = .tlp →
    exec (.controllerFault c trap pc) s =
      .next (s.after (let now := (s.m.reg Reg.aonOpsec).toNat * 1000000 + (Config.subSecond s.m.free).val; ((((({ s.m with free := s.m.free + 1 } : Mach).modC 2 fun x => { x with run := 3 }).setReg (Reg.ctpFinfo + 0x1000 * 2) (BitVec.ofNat 32 (2 ^ 31 + (if trap then 3 else 2)))).setReg (Reg.ctpFpc + 0x1000 * 2) pc).capture { src := 63, sub := 2, code := 0x30, cls := match (s.m.ctrl.get {} 2).since with | some t => if now ≤ t + 1000000 then .x else .f | none => .f })))) ∧
  (∀ (s : State) (c : Ctrl) (trap : Bool) (pc : W32),
    s.m.up = true → s.m.ctrlRuns (ctrlNum c) = true →
    exec (.controllerFault c trap pc) s =
      .next (s.after (s.m.ctrlFault (ctrlNum c) (if trap then 3 else 2) pc))) ∧
  (∀ (s : State),
    s.m.up = true → (s.m.ctrl.get {} 1).run = 3 →
    exec (.controllerRestart .rvp) s =
      .next (s.after (let m := (({ s.m with free := s.m.free + 1 } : Mach).modC 1 fun x => { x with run := if s.m.fld (Reg.secPatch + 4 * 1) 30 2 = 1 then 2 else 1, since := some ((s.m.reg Reg.aonOpsec).toNat * 1000000 + (Config.subSecond s.m.free).val) }).count (Reg.ctpRcnt + 0x1000 * 1); m.active.foldl (fun (m : Mach) h => m.rhReport h) m))) ∧
  (∀ (s : State),
    s.m.up = true → (s.m.ctrl.get {} 2).run = 3 → s.m.rcr.mapPend = [] →
    exec (.controllerRestart .tlp) s =
      .next (s.after (let m := (({ s.m with free := s.m.free + 1 } : Mach).modC 2 fun x => { x with run := if s.m.fld (Reg.secPatch + 4 * 2) 30 2 = 1 then 2 else 1, since := some ((s.m.reg Reg.aonOpsec).toNat * 1000000 + (Config.subSecond s.m.free).val) }).count (Reg.ctpRcnt + 0x1000 * 2); ({ m with rcr := { m.rcr with mapPend := [] } } : Mach).recorderRec 5 3))) ∧
  (∀ (s : State),
    s.m.up = true → (s.m.ctrl.get {} 0).run = 3 → s.m.step = 8 →
    exec (.controllerRestart .cp) s =
      .next (s.after (((({ s.m with free := s.m.free + 1 } : Mach).modC 0 fun x => { x with run := if s.m.fld (Reg.secPatch + 4 * 0) 30 2 = 1 then 2 else 1, since := some ((s.m.reg Reg.aonOpsec).toNat * 1000000 + (Config.subSecond s.m.free).val) }).count (Reg.ctpRcnt + 0x1000 * 0)).domResume))) ∧
  (∀ (s : State) (hs : SliceId),
    s.m.up = true → (s.m.slice hs.val).role = .active → s.m.dom (sliceDom hs.val 0) = .on → (s.m.slice hs.val).run ≠ .stopped →
    exec (.sliceControlLogicFault hs) s =
      .next (s.after (let m := ((s.m.modS hs.val fun v => { v with run := .stopped }).clrBits (hsA hs.val Reg.hsEinj) 0x80000000).capture { src := hs.val, code := 0x1D, cls := .f }; { m with due := m.due ++ [.slice hs.val true .fault] }))) ∧
  (∀ (s : State) (addr : BitVec 20) (bytes : BitVec 4),
    s.m.up = true → (regRow s.m.integ (addr.toNat / 4 * 4)).isSome = true → bytes ≠ 0 → s.m.bit (Reg.pgPar (addr.toNat / 0x1000)) 31 = false → 0x40 ≤ addr.toNat / 0x1000 → addr.toNat / 0x1000 < 0x5C →
    exec (.configParityScan addr bytes) s =
      .next (s.after (let m := (s.m.setReg (Reg.pgPar (addr.toNat / 0x1000)) (BitVec.ofNat 32 (2 ^ 31 + bytes.toNat * 2 ^ 10 + (addr.toNat % 0x1000) / 4))).capture { src := 34 + (addr.toNat / 0x1000 - 0x40), sub := 0, code := 0x3F, cls := .f, akind := 4, addr := BitVec.ofNat 52 addr.toNat }; { m with due := m.due ++ [.port (addr.toNat / 0x1000 - 0x40) 3 false] }))) ∧
  (∀ (s : State) (addr : BitVec 20) (bytes : BitVec 4),
    s.m.up = true → (regRow s.m.integ (addr.toNat / 4 * 4)).isSome = true → bytes ≠ 0 → s.m.bit (Reg.pgPar 1) 31 = false → addr.toNat / 0x1000 = 1 →
    exec (.configParityScan addr bytes) s =
      .next (s.after ((s.m.setReg (Reg.pgPar 1) (BitVec.ofNat 32 (2 ^ 31 + bytes.toNat * 2 ^ 10 + (addr.toNat % 0x1000) / 4))).capture { src := 63, sub := 12, code := 0x3F, cls := .x, akind := 4, addr := BitVec.ofNat 52 addr.toNat })))

/-- FAULT_WINDOW_EXPIRY closes the window of its source, or the retrain window of a port, which is apart from it. FLT_RELEASE with head
releases the oldest record and with lost clears the lost bits of a source. SAFE_STATE_DEADLINE ends what is still ACTIVE and closes
every combining buffer; SAFE_STATE_WRITES_DONE discards the writes still in flight, each counted at its port, and starts the exempt
flush; SAFE_STATE_FLUSH_DONE writes what is buffered and asserts TX_FATAL_N. (R306, R317, R321, R337.) -/
def Obligations.FaultsAndSafeState : Prop :=
  (∀ (s : State) (src : Fin 64),
    s.m.up = true →
    exec (.faultWindowExpiry (.src src)) s =
      .next (s.after ({ s.m with win := s.m.win.set 0 src.val 0 }))) ∧
  (∀ (s : State) (port : PortId),
    s.m.up = true →
    exec (.faultWindowExpiry (.retrain port)) s =
      .next (s.after ((s.m.setReg (portA port.val Reg.pRtwin) 0).modP port.val fun v => { v with rtOpen := false }))) ∧
  (∀ (s : State) (w : World),
    s.m.up = true → s.m.caps ≠ [] →
    exec (.fltReleaseHead w) s =
      .next (s.replied ({ s.m with caps := s.m.caps.drop 1 }))) ∧
  (∀ (s : State) (w : World),
    s.m.up = true → s.m.caps = [] →
    exec (.fltReleaseHead w) s =
      .next (s.replied (s.m.refuse w Reg.fltRelease .state))) ∧
  (∀ (s : State) (w : World) (src : Fin 64),
    s.m.up = true →
    exec (.fltClearLost w src) s =
      .next (s.replied ({ s.m with lost := s.m.lost.set 0 src.val 0 }))) ∧
  (∀ (s : State) (x : Safe),
    s.m.up = true → s.m.safe = some x → x.step = 2 →
    exec .safeStateDeadline s =
      .next (s.after (({ s.m with safe := some { x with step := 3 } } : Mach).endActive.active.foldl (fun (m : Mach) h => m.wcCloseAll h) ({ s.m with safe := some { x with step := 3 } } : Mach).endActive))) ∧
  (∀ (s : State) (x : Safe),
    s.m.up = true → s.m.safe = some x → x.step = 3 →
    exec .safeStateWritesDone s =
      .next (s.after (({ s.m.active.foldl (fun (m : Mach) h => (m.slice h).unwritten.foldl (fun (m : Mach) p => m.bumpP p Reg.pLostwr) (m.modS h fun v => { v with dbuf := v.dbuf.filter fun e => e.2.wr.isNone, wc := [], todo := v.todo.filter fun t => match t with | .write _ _ _ _ _ _ _ _ => false | _ => true })) s.m with safe := some { x with step := 4 }, rcr := { (s.m.active.foldl (fun (m : Mach) h => (m.slice h).unwritten.foldl (fun (m : Mach) p => m.bumpP p Reg.pLostwr) (m.modS h fun v => { v with dbuf := v.dbuf.filter fun e => e.2.wr.isNone, wc := [], todo := v.todo.filter fun t => match t with | .write _ _ _ _ _ _ _ _ => false | _ => true })) s.m).rcr with frozen := false, exempt := true, paused := false } } : Mach).startFlush))) ∧
  (∀ (s : State) (x : Safe),
    s.m.up = true → s.flushAll.m.safe = some x → s.m.safe.any (fun x => x.step = 4) = true → x.step = 4 →
    exec .safeStateFlushDone s =
      .next (State.settle ({ s.flushAll with m := { s.flushAll.m with safe := some { x with step := 5 }, fatal := true } })))

/-- RVP_RHCMD from the S world for an active slice, while RVP runs and no rehoming does, starts a rehoming of it. REHOME_PREP_DONE, where
all six domains of the spare are ON or WAKING, turns them ON, freezes the slice, disarms its injection and begins FREEZE.
REHOME_FREEZE_DONE gives the spare the logical slice: its pages are those of a fresh image, it takes over the state that is copied, the
mapping, the claims and the messages that waited, its copied entries, lists and slots are checked, and the failed slice is fenced.
REHOME_COPY_SET copies the next set. OWNER_SWEEP_SET, in a slice that is sweeping, checks its set and sweeps its buckets, then its ways.
(R324, R328, R330, R331, R339.) -/
def Obligations.RehomingGoesOn : Prop :=
  (∀ (s : State) (hs : BitVec 6),
    s.m.up = true → s.m.rehome = none → s.m.slices.any (fun e => e.2.copy.isSome) = false → hs.toNat < 34 → (s.m.slice hs.toNat).role = .active → s.m.ctrlRuns 1 = true →
    exec (.rehomeCmd .s hs) s =
      .next (s.replied (match s.m.spareFor with | some n => s.m.rhPrep hs.toNat n false .cmd false | none => s.m.noSpare hs.toNat .cmd))) ∧
  (∀ (s : State) (r : Rehome),
    s.m.up = true → s.m.rehome = some r → r.freeze = false → s.m.ctrlRuns 1 = true → (List.range 6).all (fun k => s.m.dom (sliceDom r.new k) = .on || s.m.dom (sliceDom r.new k) = .waking) = true →
    exec .rehomePrepDone s =
      .next (s.after (let m := (((List.range 6).foldl (fun (m : Mach) k => m.moveDom (sliceDom r.new k) .on) s.m).modS r.old fun v => { v with run := if v.run = .on then .frozen else v.run }).clrBits (hsA r.old Reg.hsEinj) 0x80000000; (({ m with rehome := some { r with freeze := true } } : Mach).domNext).trigger 4 (m.rhSec r.old (r.why = RhWhy.cmd))))) ∧
  (∀ (s : State) (r : Rehome),
    s.m.up = true → s.m.rehome = some r → r.freeze = true → s.m.ctrlRuns 1 = true →
    exec .rehomeFreezeDone s =
      .next (s.after (let o := r.old; let n := r.new; let v := s.m.slice o; let m := ((((s.m.clearPage (0x80 + n) 0x020).loadPage (0x80 + n)).clearPage (0xC0 + n) 0x020).loadPage (0xC0 + n)).setReg (hsA n Reg.hsSfctl) (s.m.reg (hsA o Reg.hsSfctl)); let m := (m.setSlice n (v.rehomed (m.banksAt n) (v.source o r.again (r.why = RhWhy.cmd)))).modS o fun x => { role := .fenced, run := .stopped, bank := x.bank, ss := x.ss, sf := x.sf, pred := x.pred, mon := x.mon, ctag := x.ctag, cnru := x.cnru, cdat := x.cdat, auto := x.auto }; let m := (m.clrBits (hsA o Reg.hsEinj) 0x80000000).setFld (Reg.glbLsmap + 4 * (r.ls / 4)) (8 * (r.ls % 4)) 6 n; let m := (((List.range 6).foldl (fun (m : Mach) k => m.setFld (Reg.secClaim + 4 * (sliceDom n k / 32)) (sliceDom n k % 32) 1 (if m.claimBit (sliceDom o k) then 1 else 0)) m).renameHs o n).nameSpares; let m := (List.range v.locks).foldl (fun (m : Mach) _ => m.lockLost n) m; let m := (if v.wipe.isSome = true ∧ m.wiping = false then m.setBits Reg.secIrq 4 else m); let m := { m with rehome := none }.trigger 4 (m.rhSec n (r.why = RhWhy.cmd)); let m := (((m.slice n).te.filter fun e => e.2.badId || e.2.badPr).foldl (fun (m : Mach) e => m.badEntry o n e.1) m).repairLists n; let m := (m.slice n).slot.foldl (fun (m : Mach) e => m.slotCheck n e.1) m; (v.ingress.foldl (fun (m : Mach) i => m.sliceMsg i) m).rhNext))) ∧
  (∀ (s : State) (h : Nat) (c : Copy),
    s.m.up = true → s.m.active.find? (fun h => (s.m.slice h).copy.any fun c => decide (c.next < 16384)) = some h → (s.m.slice h).copy = some c → c.next + 1 < 16384 → s.m.ctrlRuns 1 = true →
    exec .rehomeCopySet s =
      .next (s.after (((((if c.next ∈ c.done then s.m else (s.m.ensureSet h c.next).checkSet h c.next).modS h fun v => { v with copy := v.copy.map fun y => { y with next := c.next + 1, done := y.done.filter (c.next < ·) } }).setReg Reg.rvpRhPos (BitVec.ofNat 32 c.next)).setReg Reg.rvpRhPct (BitVec.ofNat 32 ((c.next + 1) * 10000 / 16384)))))) ∧
  (∀ (s : State) (hs : SliceId) (o : OSweep),
    s.m.up = true → (s.m.slice hs.val).osw = some o → o.set < 16384 → o.wsec = none → s.m.serving hs.val = true → ((s.m.ensureSet hs.val o.set).checkSet hs.val o.set).spillDown = true →
    exec (.ownerSweepSet hs) s =
      .next (s.after (let m := (s.m.ensureSet hs.val o.set).checkSet hs.val o.set; if (match (m.slice hs.val).osw with | some _ => false | none => false) = true ∨ (m.slice hs.val).bkts.any (fun b => b.use = .sweepRd o.set) = true then m else let x := (List.range 16).foldl (fun (x : Mach × Bool) w => if x.2 then x.1.sweepWay hs.val o.set o.agent w else x) (m, true); if x.2 = false ∨ (x.1.slice hs.val).busy.any (fun e => e.2.kind = .sweep) = true then x.1 else ((x.1.modS hs.val fun v => { v with osw := v.osw.map fun (y : OSweep) => { y with set := o.set + 1, bkt := 0, reg := none } }).sweepPos o.agent).sweepCheck 24)))

/-- RECORD_FLUSH_WRITE of the oldest record, while the engine may write and the budget lasts, commits it and takes it off the buffer; a
record whose buffer parity fails is dropped and counted; a budget that does not last pauses the flush, which FLUSH_BUDGET_RESUME
resumes; a write that fails verification skips its block. RECORDER_HEAD_SCAN_DONE finds the head. SNAPSHOT_DONE of a triggered set reads
its registers with the world of the set and places its record, or reads only the first of them, which the record then holds.
REC_PERIOD_TRIGGER fires trigger bit 10 while the period is not 0. FREEZE_TIMEOUT ends a freeze, sets attn and places a record. (R343,
R345, R346, R349, R350, R352, R354, R356, R358.) -/
def Obligations.RecorderWrites : Prop :=
  (∀ (s : State) (x : Rcd) (rest : List Rcd),
    s.m.up = true → s.m.rcr.buf = x :: rest → s.m.rcr.writes = true → (s.m.rcr.exempt = true ∨ s.m.rcr.spent + s.flushCost x.len ≤ flushBudget) →
    exec (.recordFlushWrite false false) s =
      .next (State.settle (let t : State := ({ s with m := { s.m with rcr := { s.m.rcr with buf := rest } } } : State).writeRcd x; { t with m := t.m.flushEnd }))) ∧
  (∀ (s : State) (x : Rcd) (rest : List Rcd) (writeErr : Bool),
    s.m.up = true → s.m.rcr.buf = x :: rest → s.m.rcr.writes = true →
    exec (.recordFlushWrite true writeErr) s =
      .next (s.after (((({ s.m with rcr := { s.m.rcr with buf := rest } } : Mach).missed x.snap).capture { src := 63, sub := 3, code := 0x32, counted := true }).flushEnd))) ∧
  (∀ (s : State) (x : Rcd) (rest : List Rcd) (writeErr : Bool),
    s.m.up = true → s.m.rcr.buf = x :: rest → s.m.rcr.writes = true → s.m.rcr.exempt = false → flushBudget < s.m.rcr.spent + s.flushCost x.len →
    exec (.recordFlushWrite false writeErr) s =
      .next (s.after (({ s.m with rcr := { s.m.rcr with paused := true } } : Mach).flushEnd))) ∧
  (∀ (s : State) (x : Rcd) (rest : List Rcd),
    s.m.up = true → s.m.rcr.buf = x :: rest → s.m.rcr.writes = true → (s.m.rcr.exempt = true ∨ s.m.rcr.spent + s.flushCost x.len ≤ flushBudget) →
    exec (.recordFlushWrite false true) s =
      .next (State.settle ({ s.skipBlk with m := s.skipBlk.m.flushEnd }))) ∧
  (∀ (s : State),
    s.m.up = true → s.m.rcr.paused = true → s.m.rcr.spent < flushBudget →
    exec .flushBudgetResume s =
      .next (s.after ({ s.m with rcr := { s.m.rcr with paused := false } }))) ∧
  (∀ (s : State),
    s.m.up = true → s.m.rcr.ready = false → s.m.dom 213 = .on →
    exec .recorderHeadScanDone s =
      .next (State.settle (s.headScan))) ∧
  (∀ (s : State) (set : Fin 8),
    s.m.up = true → s.m.rcr.run.get 0 set.val ≠ 0 → s.m.ctrlRuns 2 = true → s.m.rcr.got.get none set.val = none →
    exec (.snapshotDone { set, first := false }) s =
      .next (State.settle (let w : World := if (s.m.reg (Reg.recSscfg + 4 * set.val)).getLsbD 30 then .s else .ns; let n := min 64 ((s.m.reg (Reg.recSscfg + 4 * set.val)).extractLsb' 0 7).toNat; let x := (List.range n).foldl (fun (x : State × List (BitVec 20 × W32)) i => let a := x.1.m.rcr.lists.get 0 (set.val * 64 + i); ((x.1.readReg w a.toNat).1, x.2 ++ [(a, (x.1.readReg w a.toNat).2)])) (s, []); { x.1 with m := x.1.m.snapPlace set.val x.2 }))) ∧
  (∀ (s : State) (set : Fin 8),
    s.m.up = true → s.m.rcr.run.get 0 set.val ≠ 0 → s.m.ctrlRuns 2 = true → s.m.rcr.got.get none set.val = none →
    exec (.snapshotDone { set, first := true }) s =
      .next (State.settle (let w : World := if (s.m.reg (Reg.recSscfg + 4 * set.val)).getLsbD 30 then .s else .ns; let n := min 64 ((s.m.reg (Reg.recSscfg + 4 * set.val)).extractLsb' 0 7).toNat; let x := ((List.range n).take 1).foldl (fun (x : State × List (BitVec 20 × W32)) i => let a := x.1.m.rcr.lists.get 0 (set.val * 64 + i); ((x.1.readReg w a.toNat).1, x.2 ++ [(a, (x.1.readReg w a.toNat).2)])) (s, []); { x.1 with m := { x.1.m with rcr := { x.1.m.rcr with got := x.1.m.rcr.got.set none set.val x.2.head? } } }))) ∧
  (∀ (s : State) (set : Fin 8) (y : BitVec 20 × W32),
    s.m.up = true → s.m.rcr.run.get 0 set.val ≠ 0 → s.m.ctrlRuns 2 = true → s.m.rcr.got.get none set.val = some y →
    exec (.snapshotDone { set, first := false }) s =
      .next (State.settle (let w : World := if (s.m.reg (Reg.recSscfg + 4 * set.val)).getLsbD 30 then .s else .ns; let n := min 64 ((s.m.reg (Reg.recSscfg + 4 * set.val)).extractLsb' 0 7).toNat; let x := ((List.range n).drop 1).foldl (fun (x : State × List (BitVec 20 × W32)) i => let a := x.1.m.rcr.lists.get 0 (set.val * 64 + i); ((x.1.readReg w a.toNat).1, x.2 ++ [(a, (x.1.readReg w a.toNat).2)])) (s, []); { x.1 with m := x.1.m.snapPlace set.val (y :: x.2) }))) ∧
  (∀ (s : State),
    s.m.up = true → s.m.reg Reg.recPeriod ≠ 0 →
    exec .recPeriodTrigger s =
      .next (s.after (s.m.trigger 10))) ∧
  (∀ (s : State),
    s.m.up = true → s.m.rcr.frozen = true →
    exec .freezeTimeout s =
      .next (s.after (((({ s.m with rcr := { s.m.rcr with frozen := false } } : Mach).attn).recorderRec 3 4).flushEnd)))

/-- FLUSH starts a flush. FREEZE, where the recorder is not frozen and the flush is not exempt, freezes it and places a record; UNFREEZE
ends a freeze with its record. FIRST, LAST, NEXT, PREV and SEEK move the cursor of the accessing world among the records it may see, or
leave it with END, NOTFOUND or WORLD. ACK clears attn. SNAP triggers each named set that is enabled and takes trigger bit 11. A write of
REC_SSCFGk from the S world stores the world of the set with its other fields as they stand; a change hands the set over. (R345, R347,
R350, R357, R358, R361.) -/
def Obligations.RecorderCommandsAct : Prop :=
  (∀ (s : State) (w : World),
    s.m.up = true →
    exec (.flush w) s =
      .next (s.replied ({ s.m with rcr := { s.m.rcr with flush := true } }))) ∧
  (∀ (s : State) (w : World),
    s.m.up = true → s.m.rcr.frozen = false → s.m.rcr.exempt = false →
    exec (.freeze w) s =
      .next (s.replied (({ s.m with rcr := { s.m.rcr with frozen := true } } : Mach).recorderRec 1 4 (w = World.s)))) ∧
  (∀ (s : State) (w : World),
    s.m.up = true → s.m.rcr.frozen = true →
    exec (.unfreeze w) s =
      .next (s.replied ((({ s.m with rcr := { s.m.rcr with frozen := false } } : Mach).recorderRec 2 4 (w = World.s)).flushEnd))) ∧
  (∀ (s : State) (w : World),
    s.m.up = true →
    exec (.first w) s =
      .next (s.replied ({ s.m with rcr := s.m.rcr.land w (s.m.rcr.seen w).head? }))) ∧
  (∀ (s : State) (w : World),
    s.m.up = true →
    exec (.last w) s =
      .next (s.replied ({ s.m with rcr := s.m.rcr.land w (s.m.rcr.seen w).getLast? }))) ∧
  (∀ (s : State) (w : World),
    s.m.up = true →
    exec (.next w) s =
      .next (s.replied ({ s.m with rcr := s.m.rcr.land w (s.m.rcr.after w).head? }))) ∧
  (∀ (s : State) (w : World),
    s.m.up = true →
    exec (.prev w) s =
      .next (s.replied ({ s.m with rcr := s.m.rcr.land w (s.m.rcr.before w).getLast? }))) ∧
  (∀ (s : State) (w : World),
    s.m.up = true →
    exec (.seek w) s =
      .next (s.replied ({ s.m with rcr := match s.m.rcr.index.find? fun x => x.seq = s.m.reg (worldReg w Reg.recSeek) with | none => s.m.rcr.setCur w { s.m.rcr.cur w with cres := 2 } | some x => if w = .ns ∧ x.sec = true then s.m.rcr.setCur w { s.m.rcr.cur w with cres := 3 } else s.m.rcr.land w (some x) }))) ∧
  (∀ (s : State) (w : World),
    s.m.up = true →
    exec (.ack w) s =
      .next (s.replied (s.m.clrBits Reg.recStat 0x40))) ∧
  (∀ (s : State) (w : World) (sets : BitVec 8),
    s.m.up = true →
    exec (.snap w sets) s =
      .next (s.replied (s.m.trigSets 11 (BitVec.ofNat 8 ((List.range 8).foldl (fun a k => if sets.getLsbD k && s.m.bit (Reg.recSscfg + 4 * k) 31 && s.m.bit (Reg.recTrg + 4 * k) 11 then a + 2 ^ k else a) 0))))) ∧
  (∀ (s : State) (set : Fin 8) (world : World),
    s.m.up = true →
    exec (.snapsetHandover .s set world) s =
      .next (s.replied ((s.m.snapHandover set.val (decide (world = .s))).setReg (Reg.recSscfg + 4 * set.val) (((s.m.reg (Reg.recSscfg + 4 * set.val) &&& 0x8000007F#32) ||| (if world = .s then 0x40000000 else 0)) &&& 0xC000007F#32))))

/-- TST_MBCMD START that R385 does not refuse, for a slice not claimed against it, starts at stage 1: a Crema bank loses its lines, a way-
bank starts to be evacuated. ABORT ends the test that runs. Each stage leads to the next; stage 2 marks the bank bad where it found a
failure. TST_LBCMD from the S world, under the conditions of R387, starts the logic self-test; at its end the results are shown, what
the arbiters remember returns to reset, a failing active slice is stopped and rehomed and a failing spare is unusable. (R384, R385,
R387, R388.) -/
def Obligations.SelfTestsRun : Prop :=
  (∀ (s : State) (w : World) (hs : BitVec 6) (tgt : Bool) (bank : Fin 4),
    s.m.up = true → s.m.mbWhy hs.toNat tgt bank.val = none → (w = .s ∨ s.m.claimed (sliceDom hs.toNat 0) = false) →
    exec (.mbistStart w hs tgt bank) s =
      .next (s.replied (let m := ((s.m.setFld Reg.tstMbstat 0 4 0).setReg Reg.tstMbPos 0).setReg Reg.tstMbPct 0; { (if tgt then m.dropWays hs.toNat fun x => decide (x / 4 = bank.val) else m.evacGo hs.toNat (some bank.val)) with mbist := some { hs := hs.toNat, crm := tgt, bank := bank.val, stage := 1 } }))) ∧
  (∀ (s : State) (w : World) (t : Mbist),
    s.m.up = true → s.m.mbist = some t → (w = .s ∨ s.m.claimed (sliceDom t.hs 0) = false) →
    exec (.mbistAbort w) s =
      .next (s.replied (s.m.mbEnd 4))) ∧
  (∀ (s : State) (fail : Option (Fin 16 × Fin 16384)) (b : Mbist),
    s.m.up = true → s.m.mbist = some b → b.stage = 1 → (b.crm = true ∨ (s.m.slice b.hs).evac = none) →
    exec (.mbistStageDone fail) s =
      .next (s.after (({ s.m with mbist := some { b with stage := 2 } } : Mach).setReg Reg.tstMbPct 1000))) ∧
  (∀ (s : State) (x : Fin 16) (y : Fin 16384) (b : Mbist),
    s.m.up = true → s.m.mbist = some b → b.stage = 2 →
    exec (.mbistStageDone (some (x, y))) s =
      .next (s.after (((({ s.m with mbist := some { b with stage := 3, fail := true } } : Mach).setReg Reg.tstMbPct 9000).setBits (badReg b.crm b.hs) (1#32 <<< (4 * (b.hs % 8) + b.bank))).setReg Reg.tstMbPos (BitVec.ofNat 32 (x.val * 65536 + y.val))))) ∧
  (∀ (s : State) (b : Mbist),
    s.m.up = true → s.m.mbist = some b → b.stage = 2 →
    exec (.mbistStageDone none) s =
      .next (s.after ((({ s.m with mbist := some { b with stage := 3, fail := false } } : Mach).setReg Reg.tstMbPct 9000).setReg Reg.tstMbPos (if b.crm then 1023 else 16383)))) ∧
  (∀ (s : State) (fail : Option (Fin 16 × Fin 16384)) (b : Mbist),
    s.m.up = true → s.m.mbist = some b → b.stage = 3 →
    exec (.mbistStageDone fail) s =
      .next (s.after ((s.m.mbEnd (if b.fail then 3 else 0)).setReg Reg.tstMbPct 10000))) ∧
  (∀ (s : State),
    s.m.up = true → s.m.lbOk = true →
    exec (.lbistStart .s) s =
      .next (s.replied ({ (s.m.setFld Reg.tstLbstat 0 4 0).setReg Reg.tstLbPct 0 with lbist := true }))) ∧
  (∀ (s : State),
    s.m.up = true → s.m.lbist = true →
    exec (.lbistDone 0 0) s =
      .next (s.after ((List.range 34).foldl (fun (m : Mach) h => m.modS h fun v => { v with rr := 0 }) ((((({ s.m with lbist := false } : Mach).setReg Reg.tstLbres0 0).setReg Reg.tstLbres1 0).setReg Reg.tstLbPct 10000).setFld Reg.tstLbstat 0 4 0)))) ∧
  (∀ (s : State) (res0 res1 : W32),
    s.m.up = true → s.m.lbist = true →
    exec (.lbistDone res0 res1) s =
      .next (s.after (let m := (((({ s.m with lbist := false } : Mach).setReg Reg.tstLbres0 res0).setReg Reg.tstLbres1 (res1 &&& 0x7FF)).setReg Reg.tstLbPct 10000).setFld Reg.tstLbstat 0 4 (if res0 = 0 ∧ res1 &&& 0x7FF = 0 then 0 else 3); let m := (List.range 34).foldl (fun (m : Mach) h => m.modS h fun v => { v with rr := 0 }) m; (List.range 34).foldl (fun (m : Mach) h => if (if h < 32 then res0.getLsbD h else (res1 &&& 0x7FF).getLsbD (h - 32)) = false then m else match (m.slice h).role with | .active => let m := (m.modS h fun v => { v with run := .stopped }).capture { src := h, code := 0x1D, cls := .f }; { m with due := m.due ++ [.slice h true .fault] } | .spare => m.modS h fun v => { v with role := .unusable } | _ => m) m)))

/-- A request of a target that Table 15-5 lists for the state, authorised where it asks for it (and with a valid key for PROVISIONED), with
none running and no drain, starts at stage 1. Its stages verify and start the drain, end the drain, flush, burn the fuses, wipe the
arrays (each lock that goes with them is lost) and, for DECOMMISSIONED, erase the store, and restart bring-up. A DEBUG authorisation
opens debug. PATCH_RAISE burns the minimum of a controller up to its running patch. GRANT applies the oldest held write as an S write
and DENY discards it. (R400, R402, R403, R404, R405, R408.) -/
def Obligations.LifecycleAndHeldRequests : Prop :=
  (∀ (s : State) (w : World) (need : Nat),
    s.m.up = true → (w = .s ∨ s.m.lcState = 0) → s.m.lc = none → lcNeeds s.m.lcState (s.m.fld Reg.secLcstat 4 2) 1 = some need → (need = 0 ∨ s.authOk need = true) → s.m.drain = none → ecValid (keyOfWords ((List.range 24).map fun i => s.m.reg (Reg.secKey + 4 * i))).1 (keyOfWords ((List.range 24).map fun i => s.m.reg (Reg.secKey + 4 * i))).2 = true →
    exec (.lcProvision w) s =
      .next (State.answered ({ s with m := { ((s.m.setFld Reg.secLcstat 12 4 0).setReg Reg.secLcPct 0).setReg Reg.secLcPos 1 with lc := some { target := 1, stage := 1 } } }))) ∧
  (∀ (s : State) (w : World) (need : Nat),
    s.m.up = true → (w = .s ∨ s.m.lcState = 0) → s.m.lc = none → lcNeeds s.m.lcState (s.m.fld Reg.secLcstat 4 2) 2 = some need → (need = 0 ∨ s.authOk need = true) → s.m.drain = none →
    exec (.lcDeploy w) s =
      .next (State.answered ({ s with m := { ((s.m.setFld Reg.secLcstat 12 4 0).setReg Reg.secLcPct 0).setReg Reg.secLcPos 1 with lc := some { target := 2, stage := 1 } } }))) ∧
  (∀ (s : State) (w : World) (need : Nat),
    s.m.up = true → (w = .s ∨ s.m.lcState = 0) → s.m.lc = none → lcNeeds s.m.lcState (s.m.fld Reg.secLcstat 4 2) 3 = some need → (need = 0 ∨ s.authOk need = true) → s.m.drain = none →
    exec (.lcRma w) s =
      .next (State.answered ({ s with m := { ((s.m.setFld Reg.secLcstat 12 4 0).setReg Reg.secLcPct 0).setReg Reg.secLcPos 1 with lc := some { target := 3, stage := 1 } } }))) ∧
  (∀ (s : State) (w : World) (need : Nat),
    s.m.up = true → (w = .s ∨ s.m.lcState = 0) → s.m.lc = none → lcNeeds s.m.lcState (s.m.fld Reg.secLcstat 4 2) 4 = some need → (need = 0 ∨ s.authOk need = true) → s.m.drain = none →
    exec (.lcDecommission w) s =
      .next (State.answered ({ s with m := { ((s.m.setFld Reg.secLcstat 12 4 0).setReg Reg.secLcPct 0).setReg Reg.secLcPos 1 with lc := some { target := 4, stage := 1 } } }))) ∧
  (∀ (s : State) (w : World),
    s.m.up = true → (w = .s ∨ s.m.lcState = 0) → s.m.lc = none → s.authOk 4 = true →
    exec (.debugAuthCheck w) s =
      .next (State.answered ({ s with m := { s.m.setFld Reg.secLcstat 12 4 0 with dbgOpen := true } }))) ∧
  (∀ (s : State) (l : LcTrans),
    s.m.up = true → s.m.lc = some l → l.stage = 1 →
    exec .lifecycleStageDone s =
      .next (State.settle ({ s with m := (s.m.drainStart .lifecycle).lcStage l 2 }))) ∧
  (∀ (s : State) (l : LcTrans),
    s.m.up = true → s.m.lc = some l → l.stage = 2 →
    exec .lifecycleStageDone s =
      .next (State.settle ({ s with m := if l.target = 4 then s.m.drainEnd.lcStage l 4 else (s.m.drainEnd.lcStage l 3).startFlush }))) ∧
  (∀ (s : State) (l : LcTrans),
    s.m.up = true → s.m.lc = some l → l.stage = 3 →
    exec .lifecycleStageDone s =
      .next (State.settle ({ s.flushAll with m := s.flushAll.m.lcStage l 4 }))) ∧
  (∀ (s : State) (l : LcTrans),
    s.m.up = true → s.m.lc = some l → l.stage = 4 →
    exec .lifecycleStageDone s =
      .next (State.settle (let f := s.fuse.burn s.m.lcState l.target ((List.range 24).map fun i => s.m.reg (Reg.secKey + 4 * i)) 3; { s with fuse := f, m := (s.m.fused f).lcStage { l with old := s.m.lcState } 5 }))) ∧
  (∀ (s : State) (l : LcTrans),
    s.m.up = true → s.m.lc = some l → l.stage = 5 →
    exec .lifecycleStageDone s =
      .next (State.settle (let m := ((({ s.m with rcr := { s.m.rcr with buf := [], run := [], got := [], pend := [] } } : Mach).wipe s.fuse false 2).setReg Reg.secLcPct (s.m.reg Reg.secLcPct)).setReg Reg.secLcPos (s.m.reg Reg.secLcPos); let m := (List.range 34).foldl (fun (m : Mach) h => (List.range (s.m.slice h).locks).foldl (fun (m : Mach) _ => m.lockLost h) m) m; if l.target = 4 then { s with m := m.lcStage { l with bad := s.stuck } 6 } else ({ s with m } : State).lcRestart { l with bad := s.stuck } l.old))) ∧
  (∀ (s : State) (l : LcTrans),
    s.m.up = true → s.m.lc = some l → l.stage = 6 →
    exec .lifecycleStageDone s =
      .next (State.settle (s.eraseStore.lcRestart l l.old))) ∧
  (∀ (s : State) (w : World) (ctrl : BitVec 2),
    s.m.up = true → (w = .s ∨ s.m.lcState = 0) → ctrl.toNat < 3 → (s.m.ctrl.get {} ctrl.toNat).run = 2 → s.m.fld (Reg.secPatch + 4 * ctrl.toNat) 30 2 = 1 → s.m.fld (Reg.secPatch + 4 * ctrl.toNat) 8 6 < s.m.fld (Reg.secPatch + 4 * ctrl.toNat) 0 6 →
    exec (.patchRaise w ctrl) s =
      .next (State.answered (let f := { s.fuse with min := s.fuse.min.setIfInBounds ctrl.toNat (BitVec.ofNat 32 (2 ^ s.m.fld (Reg.secPatch + 4 * ctrl.toNat) 0 6 - 1)) }; { s with fuse := f, m := s.m.fused f }))) ∧
  (∀ (s : State) (w : World) (x : BitVec 20 × W32) (rest : List (BitVec 20 × W32)),
    s.m.up = true → (w = .s ∨ s.m.lcState = 0) → s.m.heldq = x :: rest →
    exec (.grant w) s =
      .next (State.answered (({ s with m := { s.m with heldq := rest } } : State).writeWith (fun s _ _ _ => s) .s x.1.toNat x.2))) ∧
  (∀ (s : State) (w : World) (x : BitVec 20 × W32) (rest : List (BitVec 20 × W32)),
    s.m.up = true → (w = .s ∨ s.m.lcState = 0) → s.m.heldq = x :: rest →
    exec (.deny w) s =
      .next (State.answered ({ s with m := { s.m with heldq := rest } })))

/-- RMP_INV from the S world, with none running and for all of homed space or a range aligned and inside it, removes the overlapping entries
of all five caches, marks the walks in flight, and is busy while one is. RC_DISABLE from the S world clears rc_en and empties all five
caches. PRED_CLR stores the fields of GLB_ATMCTL and, with pred_clr = 1 while no clear runs, empties each far history at once and starts
the clear, which PRED_CLEAR_DONE ends with every counter at 0. A write of GLB_WCCTL that clears wc_en or sets eack_off closes every open
buffer. WC_BUFFER_TIMEOUT closes an open buffer, counts it, and issues its write, or discards it at a fenced target. (R40, R42, R43,
R182, R189, R197, R199.) -/
def Obligations.MapPredictorAndCombining : Prop :=
  (∀ (s : State) (all : Bool) (sizeLog2 : BitVec 6),
    s.m.up = true → s.m.invBusy = false → (all = true ∨ 12 ≤ sizeLog2.toNat ∧ sizeLog2.toNat ≤ 46 ∧ s.m.rangeOk (s.m.pair Reg.rmpInvBaseLo Reg.rmpInvBaseHi).toNat sizeLog2.toNat = true) →
    exec (.rmpInv .s all sizeLog2) s =
      .next (s.replied ({ s.m.rcInvalidate (s.m.offPa (s.m.pair Reg.rmpInvBaseLo Reg.rmpInvBaseHi).toNat).toNat sizeLog2.toNat all false with invBusy := (s.m.rcInvalidate (s.m.offPa (s.m.pair Reg.rmpInvBaseLo Reg.rmpInvBaseHi).toNat).toNat sizeLog2.toNat all false).markedWalk false }))) ∧
  (∀ (s : State),
    s.m.up = true →
    exec (.rcDisable .s) s =
      .next (s.replied ((List.range 5).foldl (fun (m : Mach) g => m.modG g fun v => { v with rc := [] }) (s.m.setFld Reg.rmpCtl 1 1 0)))) ∧
  (∀ (s : State) (w : World) (data : W32),
    s.m.up = true → (data.getLsbD 1 = false ∨ s.m.active.any (fun h => (s.m.slice h).predClr) = false) →
    exec (.predClr w data) s =
      .next (s.replied (if data.getLsbD 1 then (s.m.setReg Reg.glbAtmctl (data &&& 0x10701#32)).active.foldl (fun (m : Mach) h => m.modS h fun v => { v with predClr := true, hist := [] }) (s.m.setReg Reg.glbAtmctl (data &&& 0x10701#32)) else s.m.setReg Reg.glbAtmctl (data &&& 0x10701#32)))) ∧
  (∀ (s : State),
    s.m.up = true →
    exec .predClearDone s =
      .next (s.after ((List.range 34).foldl (fun (m : Mach) h => if (m.slice h).predClr then m.modS h fun v => { v with predClr := false, pred := [] } else m) s.m))) ∧
  (∀ (s : State) (w : World) (data : W32),
    s.m.up = true →
    exec (.wcEnClear w data) s =
      .next (s.replied (if (s.m.reg Reg.glbWcctl).getLsbD 0 = true ∧ data.getLsbD 0 = false ∨ (s.m.reg Reg.glbWcctl).getLsbD 1 = false ∧ data.getLsbD 1 = true then (s.m.setReg Reg.glbWcctl (data &&& 0x1FFF0003#32)).active.foldl (fun (m : Mach) h => m.wcCloseAll h) (s.m.setReg Reg.glbWcctl (data &&& 0x1FFF0003#32)) else s.m.setReg Reg.glbWcctl (data &&& 0x1FFF0003#32)))) ∧
  (∀ (s : State) (w : World) (data : W32),
    s.m.up = true →
    exec (.eackOffSet w data) s =
      .next (s.replied (if (s.m.reg Reg.glbWcctl).getLsbD 0 = true ∧ data.getLsbD 0 = false ∨ (s.m.reg Reg.glbWcctl).getLsbD 1 = false ∧ data.getLsbD 1 = true then (s.m.setReg Reg.glbWcctl (data &&& 0x1FFF0003#32)).active.foldl (fun (m : Mach) h => m.wcCloseAll h) (s.m.setReg Reg.glbWcctl (data &&& 0x1FFF0003#32)) else s.m.setReg Reg.glbWcctl (data &&& 0x1FFF0003#32)))) ∧
  (∀ (s : State) (hs : SliceId) (buf : Fin 16) (v : WcBuf),
    s.m.up = true → (s.m.slice hs.val).wcb buf.val = some v → v.wr = none → v.bad = false → ((s.m.bump hs.val Reg.hscWccls).bump hs.val Reg.hscWctmo).portDown (atPort v.attr) = false →
    exec (.wcBufferTimeout hs buf) s =
      .next (s.after (let op : Opc := if v.mask = BitVec.allOnes 64 then .mwr else .mwm; let tag := wrTag none (192 + buf.val); let m := ((s.m.bump hs.val Reg.hscWccls).bump hs.val Reg.hscWctmo).noteWrite hs.val (offOf v.key) (some v.attr); let t := m.modS hs.val fun y => y.setWc buf.val (some { v with wr := some { op, port := atPort v.attr, off := offOf v.key, mask := v.mask, use := .demand, htag := tag, seq := (m.slice hs.val).seq, early := true, notes := v.notes } }); t.emit (atPort v.attr) { op, htag := t.htag hs.val tag, key := v.key, mask := v.mask, data := v.data }))) ∧
  (∀ (s : State) (hs : SliceId) (buf : Fin 16) (v : WcBuf),
    s.m.up = true → (s.m.slice hs.val).wcb buf.val = some v → v.wr = none → ((s.m.bump hs.val Reg.hscWccls).bump hs.val Reg.hscWctmo).portDown (atPort v.attr) = true →
    exec (.wcBufferTimeout hs buf) s =
      .next (s.after (v.notes.foldl (fun (m : Mach) n => m.sendNote n true) (((((s.m.bump hs.val Reg.hscWccls).bump hs.val Reg.hscWctmo).modS hs.val fun y => y.setWc buf.val none)).lostWrite (atPort v.attr) (offOf v.key)))))

/-- HS_EINJ from the S world, in BLANK, PROVISIONED or RMA or with debug open, stores arm, tgt and byte where arm is 0 or the target is
listed. MSP_READ from the S world of an entry Table 17-4 lists, with no read in progress and no rehoming, starts a read where the domain
has power and ends OFF at once where it has none; MSP_READ_DONE returns it. HSC_CLR and PCTL_CLR zero every counter of the page and
store freeze; HSC_FREEZE and PCTL_FREEZE store it. PG_LOCK of the GLB page locks it. (R420, R430, R431, R432, R435, R440.) -/
def Obligations.SliceAndPortPages : Prop :=
  (∀ (s : State) (hs : SliceId) (data : W32),
    s.m.up = true → (s.m.lcState = 0 ∨ s.m.lcState = 1 ∨ s.m.lcState = 3 ∨ s.m.dbgOpen = true) → (data.getLsbD 31 = false ∨ (data.extractLsb' 0 4 = 1 ∧ (data.extractLsb' 8 4).toNat < 8) ∨ ((data.extractLsb' 0 4 = 2 ∨ data.extractLsb' 0 4 = 3 ∨ data.extractLsb' 0 4 = 6) ∧ (data.extractLsb' 8 4).toNat < 6) ∨ data.extractLsb' 0 4 = 4 ∨ data.extractLsb' 0 4 = 7) →
    exec (.hsEinj .s hs data) s =
      .next (s.replied (s.m.setReg (hsA hs.val Reg.hsEinj) (data &&& 0x80000F0F#32)))) ∧
  (∀ (s : State) (hs : SliceId) (array : BitVec 4) (chunk : BitVec 2),
    s.m.up = true → (s.m.slice hs.val).msp = none → s.m.rvpHolds hs.val = false → mspOk array chunk (s.m.fld (hsA hs.val Reg.hsMspIdx) 0 18) = true → s.m.unpowered (mspDom hs.val array (s.m.fld (hsA hs.val Reg.hsMspIdx) 0 18)) = false →
    exec (.mspRead .s hs array chunk) s =
      .next (s.replied ((s.m.modS hs.val fun v => { v with gated := false }).modS hs.val fun v => { v with msp := some { array, chunk, idx := BitVec.ofNat 18 (s.m.fld (hsA hs.val Reg.hsMspIdx) 0 18) } }))) ∧
  (∀ (s : State) (hs : SliceId) (array : BitVec 4) (chunk : BitVec 2),
    s.m.up = true → (s.m.slice hs.val).msp = none → s.m.rvpHolds hs.val = false → mspOk array chunk (s.m.fld (hsA hs.val Reg.hsMspIdx) 0 18) = true → s.m.unpowered (mspDom hs.val array (s.m.fld (hsA hs.val Reg.hsMspIdx) 0 18)) = true →
    exec (.mspRead .s hs array chunk) s =
      .next (s.replied (s.m.mspEnd hs.val 3 false 0 0))) ∧
  (∀ (s : State) (hs : SliceId) (r : Msp),
    s.m.up = true → (s.m.slice hs.val).msp = some r →
    exec (.mspReadDone hs) s =
      .next (s.after (if s.m.unpowered (mspDom hs.val r.array r.idx.toNat) then s.m.mspEnd hs.val 3 false 0 0 else ({ s.m with free := s.m.free + 2 } : Mach).mspEnd hs.val 0 (s.m.mspRead hs.val r).1 (s.m.mspRead hs.val r).2.1 (s.m.mspRead hs.val r).2.2))) ∧
  (∀ (s : State) (w : World) (hs : SliceId) (freeze : Bool),
    s.m.up = true →
    exec (.hscClr w hs freeze) s =
      .next (s.replied (((hscRows.filter fun r => r.off ≠ Reg.hscCtl).map fun r => hscA hs.val r.off).foldl (fun (m : Mach) a => m.setReg a 0) (s.m.setReg (hscA hs.val Reg.hscCtl) (if freeze then 1 else 0))))) ∧
  (∀ (s : State) (w : World) (hs : SliceId) (on : Bool),
    s.m.up = true →
    exec (.hscFreeze w hs on) s =
      .next (s.replied (s.m.setReg (hscA hs.val Reg.hscCtl) (if on then 1 else 0)))) ∧
  (∀ (s : State) (w : World) (port : PortId) (freeze : Bool),
    s.m.up = true → s.m.populated port.val = true →
    exec (.pctlClr w port freeze) s =
      .next (s.replied ((portCounters.map fun o => portA port.val o).foldl (fun (m : Mach) a => m.setReg a 0) (s.m.setReg (portA port.val Reg.pPctl) (if freeze then 1 else 0))))) ∧
  (∀ (s : State) (w : World) (port : PortId) (on : Bool),
    s.m.up = true → s.m.populated port.val = true →
    exec (.pctlFreeze w port on) s =
      .next (s.replied (s.m.setReg (portA port.val Reg.pPctl) (if on then 1 else 0)))) ∧
  (∀ (s : State) (w : World),
    s.m.up = true →
    exec (.pgLock w 0) s =
      .next (s.replied (s.m.setReg (Reg.pgLock 0) 1)))
end

