-- ==== Sys2Proof/Laws/PerInstr.lean ====
section
/-! SUPPORT. What holds of each command as syntax, one lemma for each constructor. -/

namespace Sys2Proof.Laws.UnitsExist

open Sys2Proof

/-- Every unit that a well-formed command names is one that the package has (Tables 01-2, 01-3 and 14-1). -/
def Statement (i : Instr) : Prop := WellFormed i = true → ∀ u ∈ i.units, u.ok = true

theorem of_none {i : Instr} (h : i.units = []) : Statement i := fun _ u hu => by rw [h] at hu; cases hu
theorem of_port {i : Instr} (p : PortId) (h : i.units = [.port p.val]) : Statement i := fun _ u hu => by
  rw [h] at hu; cases List.mem_singleton.1 hu; exact decide_eq_true p.isLt
theorem of_slice {i : Instr} (k : SliceId) (h : i.units = [.slice k.val]) : Statement i := fun _ u hu => by
  rw [h] at hu; cases List.mem_singleton.1 hu; exact decide_eq_true k.isLt
theorem of_entry {i : Instr} (k : SliceId) (t : Fin 512) (h : i.units = [.entry k.val t.val]) : Statement i := fun _ u hu => by
  rw [h] at hu; cases List.mem_singleton.1 hu; exact decide_eq_true ⟨k.isLt, t.isLt⟩
theorem of_bank {i : Instr} (k : SliceId) (b : Fin 4) (h : i.units = [.bank k.val b.val]) : Statement i := fun _ u hu => by
  rw [h] at hu; cases List.mem_singleton.1 hu; exact decide_eq_true ⟨k.isLt, b.isLt⟩
theorem of_dom {i : Instr} (d : BitVec 8) (h : i.units = [.dom d.toNat]) (w : WellFormed i = true → domOk d = true) : Statement i :=
  fun v u hu => by rw [h] at hu; cases List.mem_singleton.1 hu; exact w v

theorem rds (r : Req) : Statement (.rds r) := of_port r.port rfl
theorem rdo (r : Req) : Statement (.rdo r) := of_port r.port rfl
theorem rdc (r : Req) : Statement (.rdc r) := of_port r.port rfl
theorem upg (r : Req) : Statement (.upg r) := of_port r.port rfl
theorem wrl (r : Req) : Statement (.wrl r) := of_port r.port rfl
theorem wrp (r : Req) (mask : Mask) : Statement (.wrp r mask) := of_port r.port rfl
theorem wbd (r : Req) : Statement (.wbd r) := of_port r.port rfl
theorem evh (r : Req) : Statement (.evh r) := of_port r.port rfl
theorem atm (r : Req) (aop : BitVec 8) (a : BitVec 128) (b : BitVec 128) : Statement (.atm r aop a b) := of_port r.port rfl
theorem rsl (r : Req) : Statement (.rsl r) := of_port r.port rfl
theorem scd (r : Req) : Statement (.scd r) := of_port r.port rfl
theorem bar (r : Req) : Statement (.bar r) := of_port r.port rfl
theorem mcl (r : Req) : Statement (.mcl r) := of_port r.port rfl
theorem qenq (r : Req) (qid : BitVec 20) (n : BitVec 4) (word : W64) : Statement (.qenq r qid n word) := of_port r.port rfl
theorem qenq8 (r : Req) (qid : BitVec 20) (n : BitVec 4) : Statement (.qenq8 r qid n) := of_port r.port rfl
theorem qdeq (r : Req) (qid : BitVec 20) (n : BitVec 4) : Statement (.qdeq r qid n) := of_port r.port rfl
theorem qpeek (r : Req) (qid : BitVec 20) (n : BitVec 4) : Statement (.qpeek r qid n) := of_port r.port rfl
theorem qmark (r : Req) (qid : BitVec 20) (n : BitVec 4) : Statement (.qmark r qid n) := of_port r.port rfl
theorem qrewind (r : Req) (qid : BitVec 20) (n : BitVec 4) : Statement (.qrewind r qid n) := of_port r.port rfl
theorem qrelease (r : Req) (qid : BitVec 20) (n : BitVec 4) : Statement (.qrelease r qid n) := of_port r.port rfl
theorem turnStart (hs : SliceId) (te : Fin 512) : Statement (.turnStart hs te) := of_entry hs te rfl
theorem turnResume (hs : SliceId) (te : Fin 512) : Statement (.turnResume hs te) := of_entry hs te rfl
theorem wayChoiceRetry (hs : SliceId) (te : Fin 512) : Statement (.wayChoiceRetry hs te) := of_entry hs te rfl
theorem sri (r : Rsp) : Statement (.sri r) := of_port r.port rfl
theorem srs (r : Rsp) : Statement (.srs r) := of_port r.port rfl
theorem srf (r : Rsp) : Statement (.srf r) := of_port r.port rfl
theorem srfo (r : Rsp) : Statement (.srfo r) := of_port r.port rfl
theorem dtw (d : Dtw) : Statement (.dtw d) := of_port d.port rfl
theorem forwardedDat (port : PortId) (op : DatOp) (agent : BitVec 5) (tid : Tid) (psn : Bool) (data : Line) : Statement (.forwardedDat port op agent tid psn data) := of_port port rfl
theorem forwarderRspRelease (port : PortId) : Statement (.forwarderRspRelease port) := of_port port rfl
theorem mrt (port : PortId) (htag : BitVec 14) (psn : Bool) (ue : Bool) (data : Line) : Statement (.mrt port htag psn ue data) := of_port port rfl
theorem mwc (port : PortId) (htag : BitVec 14) : Statement (.mwc port htag) := of_port port rfl
theorem bisnp (port : PortId) (form : BiForm) (len : BitVec 2) (off : Off) (biId : BitVec 12) (biTag : BitVec 12) : Statement (.bisnp port form len off biId biTag) := of_port port rfl
theorem mbs (port : PortId) : Statement (.mbs port) := of_port port rfl
theorem mbr (port : PortId) : Statement (.mbr port) := of_port port rfl
theorem retireNote (port : PortId) : Statement (.retireNote port) := of_port port rfl
theorem mclClearNotice (port : PortId) : Statement (.mclClearNotice port) := of_port port rfl
theorem messageFlitReceive (port : PortId) (flit : BitVec 640) : Statement (.messageFlitReceive port flit) := of_port port rfl
theorem flitCrcFail (flit : BadFlit) : Statement (.flitCrcFail flit) := of_port flit.port rfl
theorem nak (flit : CtrlFlit) (ackSeq : Seq) : Statement (.nak flit ackSeq) := of_port flit.port rfl
theorem idle (port : PortId) (ack : AckField) : Statement (.idle port ack) := of_port port rfl
theorem init (flit : CtrlFlit) (ptype : BitVec 2) (ver : BitVec 8) : Statement (.init flit ptype ver) := of_port flit.port rfl
theorem cradv (flit : CtrlFlit) (cr : BitVec 64) : Statement (.cradv flit cr) := of_port flit.port rfl
theorem resume (flit : CtrlFlit) (lastSeq : Seq) (valid : Bool) : Statement (.resume flit lastSeq valid) := of_port flit.port rfl
theorem replayTimeout (port : PortId) : Statement (.replayTimeout port) := of_port port rfl
theorem txReplayTimer (port : PortId) : Statement (.txReplayTimer port) := of_port port rfl
theorem retrainRequest (port : PortId) : Statement (.retrainRequest port) := of_port port rfl
theorem retrainComplete (port : PortId) (rate : BitVec 4) (lanes : BitVec 7) : Statement (.retrainComplete port rate lanes) := of_port port rfl
theorem retrainTimeout (port : PortId) : Statement (.retrainTimeout port) := of_port port rfl
theorem linkTrained (port : PortId) (rate : BitVec 4) (lanes : BitVec 7) : Statement (.linkTrained port rate lanes) := of_port port rfl
theorem linkTrainTimeout (port : PortId) : Statement (.linkTrainTimeout port) := of_port port rfl
theorem l1Entry (port : PortId) : Statement (.l1Entry port) := of_port port rfl
theorem l1Exit (port : PortId) : Statement (.l1Exit port) := of_port port rfl
theorem snoopResponseTimeout (hs : SliceId) (te : Fin 512) : Statement (.snoopResponseTimeout hs te) := of_entry hs te rfl
theorem evictVictim (hs : SliceId) (off : Off) : Statement (.evictVictim hs off) := of_slice hs rfl
theorem copyRemoval (hs : SliceId) (off : Off) : Statement (.copyRemoval hs off) := of_slice hs rfl
theorem recount (hs : SliceId) : Statement (.recount hs) := of_slice hs rfl
theorem rebuildStart (hs : SliceId) : Statement (.rebuildStart hs) := of_slice hs rfl
theorem setSweepTag (hs : SliceId) : Statement (.setSweepTag hs) := of_slice hs rfl
theorem bankAutoOff (hs : SliceId) (bank : Fin 4) : Statement (.bankAutoOff hs bank) := of_bank hs bank rfl
theorem evacuate (w : World) (hs : SliceId) (bank : Fin 4) : Statement (.evacuate w hs bank) := of_bank hs bank rfl
theorem bankPowerOn (w : World) (hs : SliceId) (bank : Fin 4) : Statement (.bankPowerOn w hs bank) := of_bank hs bank rfl
theorem evacuationAbort (w : World) (hs : SliceId) (bank : Fin 4) : Statement (.evacuationAbort w hs bank) := of_bank hs bank rfl
theorem evacuationMove (hs : SliceId) : Statement (.evacuationMove hs) := of_slice hs rfl
theorem sfPartitionEnable (w : World) (data : W32) : Statement (.sfPartitionEnable w data) := of_none rfl
theorem rmpInv (w : World) (all : Bool) (sizeLog2 : BitVec 6) : Statement (.rmpInv w all sizeLog2) := of_none rfl
theorem rcDisable (w : World) : Statement (.rcDisable w) := of_none rfl
theorem predClr (w : World) (data : W32) : Statement (.predClr w data) := of_none rfl
theorem predClearDone : Statement .predClearDone := of_none rfl
theorem wcEnClear (w : World) (data : W32) : Statement (.wcEnClear w data) := of_none rfl
theorem eackOffSet (w : World) (data : W32) : Statement (.eackOffSet w data) := of_none rfl
theorem wcBufferTimeout (hs : SliceId) (buf : Fin 16) : Statement (.wcBufferTimeout hs buf) := of_slice hs rfl
theorem create (w : World) : Statement (.create w) := of_none rfl
theorem destroy (w : World) : Statement (.destroy w) := of_none rfl
theorem reset (w : World) : Statement (.reset w) := of_none rfl
theorem info (w : World) : Statement (.info w) := of_none rfl
theorem pageout (w : World) : Statement (.pageout w) := of_none rfl
theorem qobDisable (w : World) : Statement (.qobDisable w) := of_none rfl
theorem queueHandOver (w : World) (newFirst : BitVec 11) : Statement (.queueHandOver w newFirst) := of_none rfl
theorem handOverQid : Statement .handOverQid := of_none rfl
theorem invcrm (w : World) (all : Bool) (il : Bool) (sizeLog2 : BitVec 6) : Statement (.invcrm w all il sizeLog2) := of_none rfl
theorem flushqw (w : World) (all : Bool) (il : Bool) (sizeLog2 : BitVec 6) : Statement (.flushqw w all il sizeLog2) := of_none rfl
theorem invrc (w : World) (all : Bool) (il : Bool) (sizeLog2 : BitVec 6) : Statement (.invrc w all il sizeLog2) := of_none rfl
theorem zero (w : World) (all : Bool) (il : Bool) (sizeLog2 : BitVec 6) : Statement (.zero w all il sizeLog2) := of_none rfl
theorem scrubsp (w : World) (all : Bool) (il : Bool) (sizeLog2 : BitVec 6) : Statement (.scrubsp w all il sizeLog2) := of_none rfl
theorem abort (w : World) : Statement (.abort w) := of_none rfl
theorem tmpAck (w : World) (data : W32) : Statement (.tmpAck w data) := of_none rfl
theorem invcrmSet (hs : SliceId) : Statement (.invcrmSet hs) := of_slice hs rfl
theorem flushqwSlot (hs : SliceId) : Statement (.flushqwSlot hs) := of_slice hs rfl
theorem zeroLine : Statement .zeroLine := of_none rfl
theorem scrubspBucket : Statement .scrubspBucket := of_none rfl
theorem crmDisable (w : World) (data : W32) : Statement (.crmDisable w data) := of_none rfl
theorem crmEnable (w : World) (data : W32) : Statement (.crmEnable w data) := of_none rfl
theorem pfDisable (w : World) (data : W32) : Statement (.pfDisable w data) := of_none rfl
theorem prefetchIssue (hs : SliceId) : Statement (.prefetchIssue hs) := of_slice hs rfl
theorem prefetchExpiry (hs : SliceId) : Statement (.prefetchExpiry hs) := of_slice hs rfl
theorem wayDisable (w : World) (hs : SliceId) (wayDis : BitVec 8) : Statement (.wayDisable w hs wayDis) := of_slice hs rfl
theorem lock (w : World) (sizeLog2 : BitVec 6) : Statement (.lock w sizeLog2) := of_none rfl
theorem unlock (w : World) (sizeLog2 : BitVec 6) : Statement (.unlock w sizeLog2) := of_none rfl
theorem lockLine : Statement .lockLine := of_none rfl
theorem unlockLine : Statement .unlockLine := of_none rfl
theorem lockWayHandover (w : World) (sWays : BitVec 3) : Statement (.lockWayHandover w sWays) := of_none rfl
theorem lockWayWipeSet (hs : SliceId) : Statement (.lockWayWipeSet hs) := of_slice hs rfl
theorem quiesce (w : World) (port : PortId) (on : Bool) : Statement (.quiesce w port on) := of_port port rfl
theorem portFenceCmd (w : World) (port : PortId) : Statement (.portFenceCmd w port) := of_port port rfl
theorem lctlRetrain (w : World) (port : PortId) : Statement (.lctlRetrain w port) := of_port port rfl
theorem softReset (w : World) : Statement (.softReset w) := of_none rfl
theorem sliceReset (w : World) (hs : BitVec 6) : Statement (.sliceReset w hs) := of_none rfl
theorem portReset (w : World) (ptype : BitVec 2) (num : BitVec 6) : Statement (.portReset w ptype num) := of_none rfl
theorem warmReset : Statement .warmReset := of_none rfl
theorem resetDrainDone : Statement .resetDrainDone := of_none rfl
theorem zeroiseEntry (hs : SliceId) : Statement (.zeroiseEntry hs) := of_slice hs rfl
theorem por : Statement .por := of_none rfl
theorem porRelease : Statement .porRelease := of_none rfl
theorem bringupStepDone (img : Image) : Statement (.bringupStepDone img) := of_none rfl
theorem domainOn (w : World) (dom : BitVec 8) : Statement (.domainOn w dom) := of_none rfl
theorem domainOff (w : World) (dom : BitVec 8) : Statement (.domainOff w dom) := of_none rfl
theorem domainWakeDone (dom : BitVec 8) : Statement (.domainWakeDone dom) := of_dom dom rfl id
theorem domainDrainDone (dom : BitVec 8) : Statement (.domainDrainDone dom) := of_dom dom rfl id
theorem slicePowerDown (hs : SliceId) : Statement (.slicePowerDown hs) := of_slice hs rfl
theorem sliceWake (hs : SliceId) : Statement (.sliceWake hs) := of_slice hs rfl
theorem sliceClockGate (hs : SliceId) : Statement (.sliceClockGate hs) := of_slice hs rfl
theorem sliceClockRestart (hs : SliceId) : Statement (.sliceClockRestart hs) := of_slice hs rfl
theorem freqSet (w : World) (data : W32) : Statement (.freqSet w data) := of_none rfl
theorem freqRelockDone : Statement .freqRelockDone := of_none rfl
theorem tmon0Trip : Statement .tmon0Trip := of_none rfl
theorem tmon0Clear : Statement .tmon0Clear := of_none rfl
theorem tmon1Trip : Statement .tmon1Trip := of_none rfl
theorem vmonTrip (k : Vmon) : Statement (.vmonTrip k) := of_none rfl
theorem watchdogExpiry (c : Ctrl) : Statement (.watchdogExpiry c) := of_none rfl
theorem controllerRestart (c : Ctrl) : Statement (.controllerRestart c) := of_none rfl
theorem opsecTick : Statement .opsecTick := of_none rfl
theorem configParityScan (addr : BitVec 20) (bytes : BitVec 4) : Statement (.configParityScan addr bytes) := of_none rfl
theorem faultWindowExpiry (win : FaultWin) : Statement (.faultWindowExpiry win) := of_none rfl
theorem fltReleaseHead (w : World) : Statement (.fltReleaseHead w) := of_none rfl
theorem fltClearLost (w : World) (src : Fin 64) : Statement (.fltClearLost w src) := of_none rfl
theorem safeStateDeadline : Statement .safeStateDeadline := of_none rfl
theorem safeStateWritesDone : Statement .safeStateWritesDone := of_none rfl
theorem safeStateFlushDone : Statement .safeStateFlushDone := of_none rfl
theorem rehomeCmd (w : World) (hs : BitVec 6) : Statement (.rehomeCmd w hs) := of_none rfl
theorem rehomePrepDone : Statement .rehomePrepDone := of_none rfl
theorem rehomeFreezeDone : Statement .rehomeFreezeDone := of_none rfl
theorem rehomeCopySet : Statement .rehomeCopySet := of_none rfl
theorem ownerSweepSet (hs : SliceId) : Statement (.ownerSweepSet hs) := of_slice hs rfl
theorem recordFlushWrite (bufErr : Bool) (writeErr : Bool) : Statement (.recordFlushWrite bufErr writeErr) := of_none rfl
theorem flushBudgetResume : Statement .flushBudgetResume := of_none rfl
theorem recorderHeadScanDone : Statement .recorderHeadScanDone := of_none rfl
theorem snapshotDone (read : SnapRead) : Statement (.snapshotDone read) := of_none rfl
theorem recPeriodTrigger : Statement .recPeriodTrigger := of_none rfl
theorem freezeTimeout : Statement .freezeTimeout := of_none rfl
theorem flush (w : World) : Statement (.flush w) := of_none rfl
theorem freeze (w : World) : Statement (.freeze w) := of_none rfl
theorem unfreeze (w : World) : Statement (.unfreeze w) := of_none rfl
theorem first (w : World) : Statement (.first w) := of_none rfl
theorem last (w : World) : Statement (.last w) := of_none rfl
theorem next (w : World) : Statement (.next w) := of_none rfl
theorem prev (w : World) : Statement (.prev w) := of_none rfl
theorem seek (w : World) : Statement (.seek w) := of_none rfl
theorem ack (w : World) : Statement (.ack w) := of_none rfl
theorem snap (w : World) (sets : BitVec 8) : Statement (.snap w sets) := of_none rfl
theorem snapsetHandover (w : World) (set : Fin 8) (world : World) : Statement (.snapsetHandover w set world) := of_none rfl
theorem mbistStart (w : World) (hs : BitVec 6) (tgt : Bool) (bank : Fin 4) : Statement (.mbistStart w hs tgt bank) := of_none rfl
theorem mbistAbort (w : World) : Statement (.mbistAbort w) := of_none rfl
theorem mbistStageDone (fail : Option (Fin 16 × Fin 16384)) : Statement (.mbistStageDone fail) := of_none rfl
theorem lbistStart (w : World) : Statement (.lbistStart w) := of_none rfl
theorem lbistDone (res0 : W32) (res1 : W32) : Statement (.lbistDone res0 res1) := of_none rfl
theorem grant (w : World) : Statement (.grant w) := of_none rfl
theorem deny (w : World) : Statement (.deny w) := of_none rfl
theorem lcProvision (w : World) : Statement (.lcProvision w) := of_none rfl
theorem lcDeploy (w : World) : Statement (.lcDeploy w) := of_none rfl
theorem lcRma (w : World) : Statement (.lcRma w) := of_none rfl
theorem lcDecommission (w : World) : Statement (.lcDecommission w) := of_none rfl
theorem debugAuthCheck (w : World) : Statement (.debugAuthCheck w) := of_none rfl
theorem lifecycleStageDone : Statement .lifecycleStageDone := of_none rfl
theorem patchRaise (w : World) (ctrl : BitVec 2) : Statement (.patchRaise w ctrl) := of_none rfl
theorem hsEinj (w : World) (hs : SliceId) (data : W32) : Statement (.hsEinj w hs data) := of_slice hs rfl
theorem mspRead (w : World) (hs : SliceId) (array : BitVec 4) (chunk : BitVec 2) : Statement (.mspRead w hs array chunk) := of_slice hs rfl
theorem mspReadDone (hs : SliceId) : Statement (.mspReadDone hs) := of_slice hs rfl
theorem hscClr (w : World) (hs : SliceId) (freeze : Bool) : Statement (.hscClr w hs freeze) := of_slice hs rfl
theorem hscFreeze (w : World) (hs : SliceId) (on : Bool) : Statement (.hscFreeze w hs on) := of_slice hs rfl
theorem pctlClr (w : World) (port : PortId) (freeze : Bool) : Statement (.pctlClr w port freeze) := of_port port rfl
theorem pctlFreeze (w : World) (port : PortId) (on : Bool) : Statement (.pctlFreeze w port on) := of_port port rfl
theorem pgLock (w : World) (page : BitVec 8) : Statement (.pgLock w page) := of_none rfl
theorem loRead (w : World) (addr : BitVec 20) : Statement (.loRead w addr) := of_none rfl
theorem pairHiWrite (w : World) (addr : BitVec 20) (data : W32) : Statement (.pairHiWrite w addr data) := of_none rfl
theorem registerWrite (w : World) (addr : BitVec 20) (data : W32) : Statement (.registerWrite w addr data) := of_none rfl
theorem mgmtPerr : Statement .mgmtPerr := of_none rfl
theorem controllerFault (c : Ctrl) (trap : Bool) (pc : W32) : Statement (.controllerFault c trap pc) := of_none rfl
theorem sliceControlLogicFault (hs : SliceId) : Statement (.sliceControlLogicFault hs) := of_slice hs rfl

end Sys2Proof.Laws.UnitsExist
end

