-- ==== Sys2Proof/Laws/State.lean ====
section
/-! SUPPORT. What each update of the machine leaves as it was: one lemma for each field and each named read, so that no later proof
unfolds a record update. -/

namespace Sys2Proof.Machine

set_option Elab.async false

-- ===== setReg =====


@[simp] theorem Mach.setReg_integ (m : Mach) (a : Nat) (v : W32) : (m.setReg a v).integ = m.integ := rfl
@[simp] theorem Mach.setReg_up (m : Mach) (a : Nat) (v : W32) : (m.setReg a v).up = m.up := rfl
@[simp] theorem Mach.setReg_slices (m : Mach) (a : Nat) (v : W32) : (m.setReg a v).slices = m.slices := rfl
@[simp] theorem Mach.setReg_ports (m : Mach) (a : Nat) (v : W32) : (m.setReg a v).ports = m.ports := rfl
@[simp] theorem Mach.setReg_groups (m : Mach) (a : Nat) (v : W32) : (m.setReg a v).groups = m.groups := rfl
@[simp] theorem Mach.setReg_doms (m : Mach) (a : Nat) (v : W32) : (m.setReg a v).doms = m.doms := rfl
@[simp] theorem Mach.setReg_latch (m : Mach) (a : Nat) (v : W32) : (m.setReg a v).latch = m.latch := rfl
@[simp] theorem Mach.setReg_heldLo (m : Mach) (a : Nat) (v : W32) : (m.setReg a v).heldLo = m.heldLo := rfl
@[simp] theorem Mach.setReg_resp (m : Mach) (a : Nat) (v : W32) : (m.setReg a v).resp = m.resp := rfl
@[simp] theorem Mach.setReg_caps (m : Mach) (a : Nat) (v : W32) : (m.setReg a v).caps = m.caps := rfl
@[simp] theorem Mach.setReg_capSeq (m : Mach) (a : Nat) (v : W32) : (m.setReg a v).capSeq = m.capSeq := rfl
@[simp] theorem Mach.setReg_lost (m : Mach) (a : Nat) (v : W32) : (m.setReg a v).lost = m.lost := rfl
@[simp] theorem Mach.setReg_win (m : Mach) (a : Nat) (v : W32) : (m.setReg a v).win = m.win := rfl
@[simp] theorem Mach.setReg_due (m : Mach) (a : Nat) (v : W32) : (m.setReg a v).due = m.due := rfl
@[simp] theorem Mach.setReg_yard (m : Mach) (a : Nat) (v : W32) : (m.setReg a v).yard = m.yard := rfl
@[simp] theorem Mach.setReg_fagent (m : Mach) (a : Nat) (v : W32) : (m.setReg a v).fagent = m.fagent := rfl
@[simp] theorem Mach.setReg_sweeps (m : Mach) (a : Nat) (v : W32) : (m.setReg a v).sweeps = m.sweeps := rfl
@[simp] theorem Mach.setReg_metaDn (m : Mach) (a : Nat) (v : W32) : (m.setReg a v).metaDn = m.metaDn := rfl
@[simp] theorem Mach.setReg_safe (m : Mach) (a : Nat) (v : W32) : (m.setReg a v).safe = m.safe := rfl
@[simp] theorem Mach.setReg_fatal (m : Mach) (a : Nat) (v : W32) : (m.setReg a v).fatal = m.fatal := rfl
@[simp] theorem Mach.setReg_rehome (m : Mach) (a : Nat) (v : W32) : (m.setReg a v).rehome = m.rehome := rfl
@[simp] theorem Mach.setReg_rhq (m : Mach) (a : Nat) (v : W32) : (m.setReg a v).rhq = m.rhq := rfl
@[simp] theorem Mach.setReg_ctrl (m : Mach) (a : Nat) (v : W32) : (m.setReg a v).ctrl = m.ctrl := rfl
@[simp] theorem Mach.setReg_rcr (m : Mach) (a : Nat) (v : W32) : (m.setReg a v).rcr = m.rcr := rfl
@[simp] theorem Mach.setReg_tmp (m : Mach) (a : Nat) (v : W32) : (m.setReg a v).tmp = m.tmp := rfl
@[simp] theorem Mach.setReg_tmpq (m : Mach) (a : Nat) (v : W32) : (m.setReg a v).tmpq = m.tmpq := rfl
@[simp] theorem Mach.setReg_lk (m : Mach) (a : Nat) (v : W32) : (m.setReg a v).lk = m.lk := rfl
@[simp] theorem Mach.setReg_qcmd (m : Mach) (a : Nat) (v : W32) : (m.setReg a v).qcmd = m.qcmd := rfl
@[simp] theorem Mach.setReg_qho (m : Mach) (a : Nat) (v : W32) : (m.setReg a v).qho = m.qho := rfl
@[simp] theorem Mach.setReg_invBusy (m : Mach) (a : Nat) (v : W32) : (m.setReg a v).invBusy = m.invBusy := rfl
@[simp] theorem Mach.setReg_domCmd (m : Mach) (a : Nat) (v : W32) : (m.setReg a v).domCmd = m.domCmd := rfl
@[simp] theorem Mach.setReg_domq (m : Mach) (a : Nat) (v : W32) : (m.setReg a v).domq = m.domq := rfl
@[simp] theorem Mach.setReg_freqTo (m : Mach) (a : Nat) (v : W32) : (m.setReg a v).freqTo = m.freqTo := rfl
@[simp] theorem Mach.setReg_cur (m : Mach) (a : Nat) (v : W32) : (m.setReg a v).cur = m.cur := rfl
@[simp] theorem Mach.setReg_throttle (m : Mach) (a : Nat) (v : W32) : (m.setReg a v).throttle = m.throttle := rfl
@[simp] theorem Mach.setReg_vmon (m : Mach) (a : Nat) (v : W32) : (m.setReg a v).vmon = m.vmon := rfl
@[simp] theorem Mach.setReg_tmon (m : Mach) (a : Nat) (v : W32) : (m.setReg a v).tmon = m.tmon := rfl
@[simp] theorem Mach.setReg_step (m : Mach) (a : Nat) (v : W32) : (m.setReg a v).step = m.step := rfl
@[simp] theorem Mach.setReg_halted (m : Mach) (a : Nat) (v : W32) : (m.setReg a v).halted = m.halted := rfl
@[simp] theorem Mach.setReg_mapped (m : Mach) (a : Nat) (v : W32) : (m.setReg a v).mapped = m.mapped := rfl
@[simp] theorem Mach.setReg_cpFails (m : Mach) (a : Nat) (v : W32) : (m.setReg a v).cpFails = m.cpFails := rfl
@[simp] theorem Mach.setReg_drain (m : Mach) (a : Nat) (v : W32) : (m.setReg a v).drain = m.drain := rfl
@[simp] theorem Mach.setReg_image (m : Mach) (a : Nat) (v : W32) : (m.setReg a v).image = m.image := rfl
@[simp] theorem Mach.setReg_heldq (m : Mach) (a : Nat) (v : W32) : (m.setReg a v).heldq = m.heldq := rfl
@[simp] theorem Mach.setReg_lc (m : Mach) (a : Nat) (v : W32) : (m.setReg a v).lc = m.lc := rfl
@[simp] theorem Mach.setReg_dbgOpen (m : Mach) (a : Nat) (v : W32) : (m.setReg a v).dbgOpen = m.dbgOpen := rfl
@[simp] theorem Mach.setReg_recOff (m : Mach) (a : Nat) (v : W32) : (m.setReg a v).recOff = m.recOff := rfl
@[simp] theorem Mach.setReg_mbist (m : Mach) (a : Nat) (v : W32) : (m.setReg a v).mbist = m.mbist := rfl
@[simp] theorem Mach.setReg_lbist (m : Mach) (a : Nat) (v : W32) : (m.setReg a v).lbist = m.lbist := rfl
@[simp] theorem Mach.setReg_free (m : Mach) (a : Nat) (v : W32) : (m.setReg a v).free = m.free := rfl
@[simp] theorem Mach.setReg_cslot (m : Mach) (a : Nat) (v : W32) : (m.setReg a v).cslot = m.cslot := rfl
@[simp] theorem Mach.setReg_slice (m : Mach) (a : Nat) (v : W32) (h : Nat) : (m.setReg a v).slice h = m.slice h := rfl
@[simp] theorem Mach.setReg_te (m : Mach) (a : Nat) (v : W32) (h : Nat) (t : Nat) : (m.setReg a v).te h t = m.te h t := rfl
@[simp] theorem Mach.setReg_active (m : Mach) (a : Nat) (v : W32) : (m.setReg a v).active = m.active := rfl
@[simp] theorem Mach.setReg_htag (m : Mach) (a : Nat) (v : W32) (h : Nat) (t : Nat) : (m.setReg a v).htag h t = m.htag h t := rfl
@[simp] theorem Mach.setReg_port (m : Mach) (a : Nat) (v : W32) (p : Nat) : (m.setReg a v).port p = m.port p := rfl
@[simp] theorem Mach.setReg_portDown (m : Mach) (a : Nat) (v : W32) (p : Nat) : (m.setReg a v).portDown p = m.portDown p := rfl
@[simp] theorem Mach.setReg_group (m : Mach) (a : Nat) (v : W32) (g : Nat) : (m.setReg a v).group g = m.group g := rfl
@[simp] theorem Mach.setReg_dom (m : Mach) (a : Nat) (v : W32) (d : Nat) : (m.setReg a v).dom d = m.dom d := rfl
@[simp] theorem Mach.setReg_populated (m : Mach) (a : Nat) (v : W32) (p : Nat) : (m.setReg a v).populated p = m.populated p := rfl
@[simp] theorem Mach.setReg_isCxl (m : Mach) (a : Nat) (v : W32) (p : Nat) : (m.setReg a v).isCxl p = m.isCxl p := rfl
@[simp] theorem Mach.setReg_agPop (m : Mach) (a : Nat) (v : W32) (x : Nat) : (m.setReg a v).agPop x = m.agPop x := rfl
@[simp] theorem Mach.setReg_agFenced (m : Mach) (a : Nat) (v : W32) (x : Nat) : (m.setReg a v).agFenced x = m.agFenced x := rfl

-- ===== setSlice =====


@[simp] theorem Mach.setSlice_integ (m : Mach) (k : Nat) (v : Slice) : (m.setSlice k v).integ = m.integ := rfl
@[simp] theorem Mach.setSlice_up (m : Mach) (k : Nat) (v : Slice) : (m.setSlice k v).up = m.up := rfl
@[simp] theorem Mach.setSlice_regs (m : Mach) (k : Nat) (v : Slice) : (m.setSlice k v).regs = m.regs := rfl
@[simp] theorem Mach.setSlice_ports (m : Mach) (k : Nat) (v : Slice) : (m.setSlice k v).ports = m.ports := rfl
@[simp] theorem Mach.setSlice_groups (m : Mach) (k : Nat) (v : Slice) : (m.setSlice k v).groups = m.groups := rfl
@[simp] theorem Mach.setSlice_doms (m : Mach) (k : Nat) (v : Slice) : (m.setSlice k v).doms = m.doms := rfl
@[simp] theorem Mach.setSlice_latch (m : Mach) (k : Nat) (v : Slice) : (m.setSlice k v).latch = m.latch := rfl
@[simp] theorem Mach.setSlice_heldLo (m : Mach) (k : Nat) (v : Slice) : (m.setSlice k v).heldLo = m.heldLo := rfl
@[simp] theorem Mach.setSlice_resp (m : Mach) (k : Nat) (v : Slice) : (m.setSlice k v).resp = m.resp := rfl
@[simp] theorem Mach.setSlice_caps (m : Mach) (k : Nat) (v : Slice) : (m.setSlice k v).caps = m.caps := rfl
@[simp] theorem Mach.setSlice_capSeq (m : Mach) (k : Nat) (v : Slice) : (m.setSlice k v).capSeq = m.capSeq := rfl
@[simp] theorem Mach.setSlice_lost (m : Mach) (k : Nat) (v : Slice) : (m.setSlice k v).lost = m.lost := rfl
@[simp] theorem Mach.setSlice_win (m : Mach) (k : Nat) (v : Slice) : (m.setSlice k v).win = m.win := rfl
@[simp] theorem Mach.setSlice_due (m : Mach) (k : Nat) (v : Slice) : (m.setSlice k v).due = m.due := rfl
@[simp] theorem Mach.setSlice_yard (m : Mach) (k : Nat) (v : Slice) : (m.setSlice k v).yard = m.yard := rfl
@[simp] theorem Mach.setSlice_fagent (m : Mach) (k : Nat) (v : Slice) : (m.setSlice k v).fagent = m.fagent := rfl
@[simp] theorem Mach.setSlice_sweeps (m : Mach) (k : Nat) (v : Slice) : (m.setSlice k v).sweeps = m.sweeps := rfl
@[simp] theorem Mach.setSlice_metaDn (m : Mach) (k : Nat) (v : Slice) : (m.setSlice k v).metaDn = m.metaDn := rfl
@[simp] theorem Mach.setSlice_safe (m : Mach) (k : Nat) (v : Slice) : (m.setSlice k v).safe = m.safe := rfl
@[simp] theorem Mach.setSlice_fatal (m : Mach) (k : Nat) (v : Slice) : (m.setSlice k v).fatal = m.fatal := rfl
@[simp] theorem Mach.setSlice_rehome (m : Mach) (k : Nat) (v : Slice) : (m.setSlice k v).rehome = m.rehome := rfl
@[simp] theorem Mach.setSlice_rhq (m : Mach) (k : Nat) (v : Slice) : (m.setSlice k v).rhq = m.rhq := rfl
@[simp] theorem Mach.setSlice_ctrl (m : Mach) (k : Nat) (v : Slice) : (m.setSlice k v).ctrl = m.ctrl := rfl
@[simp] theorem Mach.setSlice_rcr (m : Mach) (k : Nat) (v : Slice) : (m.setSlice k v).rcr = m.rcr := rfl
@[simp] theorem Mach.setSlice_tmp (m : Mach) (k : Nat) (v : Slice) : (m.setSlice k v).tmp = m.tmp := rfl
@[simp] theorem Mach.setSlice_tmpq (m : Mach) (k : Nat) (v : Slice) : (m.setSlice k v).tmpq = m.tmpq := rfl
@[simp] theorem Mach.setSlice_lk (m : Mach) (k : Nat) (v : Slice) : (m.setSlice k v).lk = m.lk := rfl
@[simp] theorem Mach.setSlice_qcmd (m : Mach) (k : Nat) (v : Slice) : (m.setSlice k v).qcmd = m.qcmd := rfl
@[simp] theorem Mach.setSlice_qho (m : Mach) (k : Nat) (v : Slice) : (m.setSlice k v).qho = m.qho := rfl
@[simp] theorem Mach.setSlice_invBusy (m : Mach) (k : Nat) (v : Slice) : (m.setSlice k v).invBusy = m.invBusy := rfl
@[simp] theorem Mach.setSlice_domCmd (m : Mach) (k : Nat) (v : Slice) : (m.setSlice k v).domCmd = m.domCmd := rfl
@[simp] theorem Mach.setSlice_domq (m : Mach) (k : Nat) (v : Slice) : (m.setSlice k v).domq = m.domq := rfl
@[simp] theorem Mach.setSlice_freqTo (m : Mach) (k : Nat) (v : Slice) : (m.setSlice k v).freqTo = m.freqTo := rfl
@[simp] theorem Mach.setSlice_cur (m : Mach) (k : Nat) (v : Slice) : (m.setSlice k v).cur = m.cur := rfl
@[simp] theorem Mach.setSlice_throttle (m : Mach) (k : Nat) (v : Slice) : (m.setSlice k v).throttle = m.throttle := rfl
@[simp] theorem Mach.setSlice_vmon (m : Mach) (k : Nat) (v : Slice) : (m.setSlice k v).vmon = m.vmon := rfl
@[simp] theorem Mach.setSlice_tmon (m : Mach) (k : Nat) (v : Slice) : (m.setSlice k v).tmon = m.tmon := rfl
@[simp] theorem Mach.setSlice_step (m : Mach) (k : Nat) (v : Slice) : (m.setSlice k v).step = m.step := rfl
@[simp] theorem Mach.setSlice_halted (m : Mach) (k : Nat) (v : Slice) : (m.setSlice k v).halted = m.halted := rfl
@[simp] theorem Mach.setSlice_mapped (m : Mach) (k : Nat) (v : Slice) : (m.setSlice k v).mapped = m.mapped := rfl
@[simp] theorem Mach.setSlice_cpFails (m : Mach) (k : Nat) (v : Slice) : (m.setSlice k v).cpFails = m.cpFails := rfl
@[simp] theorem Mach.setSlice_drain (m : Mach) (k : Nat) (v : Slice) : (m.setSlice k v).drain = m.drain := rfl
@[simp] theorem Mach.setSlice_image (m : Mach) (k : Nat) (v : Slice) : (m.setSlice k v).image = m.image := rfl
@[simp] theorem Mach.setSlice_heldq (m : Mach) (k : Nat) (v : Slice) : (m.setSlice k v).heldq = m.heldq := rfl
@[simp] theorem Mach.setSlice_lc (m : Mach) (k : Nat) (v : Slice) : (m.setSlice k v).lc = m.lc := rfl
@[simp] theorem Mach.setSlice_dbgOpen (m : Mach) (k : Nat) (v : Slice) : (m.setSlice k v).dbgOpen = m.dbgOpen := rfl
@[simp] theorem Mach.setSlice_recOff (m : Mach) (k : Nat) (v : Slice) : (m.setSlice k v).recOff = m.recOff := rfl
@[simp] theorem Mach.setSlice_mbist (m : Mach) (k : Nat) (v : Slice) : (m.setSlice k v).mbist = m.mbist := rfl
@[simp] theorem Mach.setSlice_lbist (m : Mach) (k : Nat) (v : Slice) : (m.setSlice k v).lbist = m.lbist := rfl
@[simp] theorem Mach.setSlice_free (m : Mach) (k : Nat) (v : Slice) : (m.setSlice k v).free = m.free := rfl
@[simp] theorem Mach.setSlice_cslot (m : Mach) (k : Nat) (v : Slice) : (m.setSlice k v).cslot = m.cslot := rfl
@[simp] theorem Mach.setSlice_port (m : Mach) (k : Nat) (v : Slice) (p : Nat) : (m.setSlice k v).port p = m.port p := rfl
@[simp] theorem Mach.setSlice_portDown (m : Mach) (k : Nat) (v : Slice) (p : Nat) : (m.setSlice k v).portDown p = m.portDown p := rfl
@[simp] theorem Mach.setSlice_group (m : Mach) (k : Nat) (v : Slice) (g : Nat) : (m.setSlice k v).group g = m.group g := rfl
@[simp] theorem Mach.setSlice_dom (m : Mach) (k : Nat) (v : Slice) (d : Nat) : (m.setSlice k v).dom d = m.dom d := rfl
@[simp] theorem Mach.setSlice_reg (m : Mach) (k : Nat) (v : Slice) (b : Nat) : (m.setSlice k v).reg b = m.reg b := rfl
@[simp] theorem Mach.setSlice_bit (m : Mach) (k : Nat) (v : Slice) (b : Nat) (i : Nat) : (m.setSlice k v).bit b i = m.bit b i := rfl
@[simp] theorem Mach.setSlice_fld (m : Mach) (k : Nat) (v : Slice) (b : Nat) (lo : Nat) (w : Nat) : (m.setSlice k v).fld b lo w = m.fld b lo w := rfl
@[simp] theorem Mach.setSlice_pair (m : Mach) (k : Nat) (v : Slice) (b : Nat) (c : Nat) : (m.setSlice k v).pair b c = m.pair b c := rfl
@[simp] theorem Mach.setSlice_hsOf (m : Mach) (k : Nat) (v : Slice) (l : Nat) : (m.setSlice k v).hsOf l = m.hsOf l := rfl
@[simp] theorem Mach.setSlice_paOf (m : Mach) (k : Nat) (v : Slice) (o : Off) : (m.setSlice k v).paOf o = m.paOf o := rfl
@[simp] theorem Mach.setSlice_homed (m : Mach) (k : Nat) (v : Slice) (x : Nat) : (m.setSlice k v).homed x = m.homed x := rfl
@[simp] theorem Mach.setSlice_hvalid (m : Mach) (k : Nat) (v : Slice) : (m.setSlice k v).hvalid = m.hvalid := rfl
@[simp] theorem Mach.setSlice_hbase (m : Mach) (k : Nat) (v : Slice) : (m.setSlice k v).hbase = m.hbase := rfl
@[simp] theorem Mach.setSlice_hlog2 (m : Mach) (k : Nat) (v : Slice) : (m.setSlice k v).hlog2 = m.hlog2 := rfl
@[simp] theorem Mach.setSlice_lcState (m : Mach) (k : Nat) (v : Slice) : (m.setSlice k v).lcState = m.lcState := rfl
@[simp] theorem Mach.setSlice_seedPort (m : Mach) (k : Nat) (v : Slice) (x : Nat) : (m.setSlice k v).seedPort x = m.seedPort x := rfl
@[simp] theorem Mach.setSlice_spillPort (m : Mach) (k : Nat) (v : Slice) : (m.setSlice k v).spillPort = m.spillPort := rfl
@[simp] theorem Mach.setSlice_descPort (m : Mach) (k : Nat) (v : Slice) : (m.setSlice k v).descPort = m.descPort := rfl
@[simp] theorem Mach.setSlice_descPa (m : Mach) (k : Nat) (v : Slice) (q : BitVec 20) : (m.setSlice k v).descPa q = m.descPa q := rfl
@[simp] theorem Mach.setSlice_populated (m : Mach) (k : Nat) (v : Slice) (p : Nat) : (m.setSlice k v).populated p = m.populated p := rfl
@[simp] theorem Mach.setSlice_isCxl (m : Mach) (k : Nat) (v : Slice) (p : Nat) : (m.setSlice k v).isCxl p = m.isCxl p := rfl
@[simp] theorem Mach.setSlice_agPop (m : Mach) (k : Nat) (v : Slice) (x : Nat) : (m.setSlice k v).agPop x = m.agPop x := rfl
@[simp] theorem Mach.setSlice_agFenced (m : Mach) (k : Nat) (v : Slice) (x : Nat) : (m.setSlice k v).agFenced x = m.agFenced x := rfl

-- ===== setPort =====


@[simp] theorem Mach.setPort_integ (m : Mach) (k : Nat) (v : Port) : (m.setPort k v).integ = m.integ := rfl
@[simp] theorem Mach.setPort_up (m : Mach) (k : Nat) (v : Port) : (m.setPort k v).up = m.up := rfl
@[simp] theorem Mach.setPort_regs (m : Mach) (k : Nat) (v : Port) : (m.setPort k v).regs = m.regs := rfl
@[simp] theorem Mach.setPort_slices (m : Mach) (k : Nat) (v : Port) : (m.setPort k v).slices = m.slices := rfl
@[simp] theorem Mach.setPort_groups (m : Mach) (k : Nat) (v : Port) : (m.setPort k v).groups = m.groups := rfl
@[simp] theorem Mach.setPort_doms (m : Mach) (k : Nat) (v : Port) : (m.setPort k v).doms = m.doms := rfl
@[simp] theorem Mach.setPort_latch (m : Mach) (k : Nat) (v : Port) : (m.setPort k v).latch = m.latch := rfl
@[simp] theorem Mach.setPort_heldLo (m : Mach) (k : Nat) (v : Port) : (m.setPort k v).heldLo = m.heldLo := rfl
@[simp] theorem Mach.setPort_resp (m : Mach) (k : Nat) (v : Port) : (m.setPort k v).resp = m.resp := rfl
@[simp] theorem Mach.setPort_caps (m : Mach) (k : Nat) (v : Port) : (m.setPort k v).caps = m.caps := rfl
@[simp] theorem Mach.setPort_capSeq (m : Mach) (k : Nat) (v : Port) : (m.setPort k v).capSeq = m.capSeq := rfl
@[simp] theorem Mach.setPort_lost (m : Mach) (k : Nat) (v : Port) : (m.setPort k v).lost = m.lost := rfl
@[simp] theorem Mach.setPort_win (m : Mach) (k : Nat) (v : Port) : (m.setPort k v).win = m.win := rfl
@[simp] theorem Mach.setPort_due (m : Mach) (k : Nat) (v : Port) : (m.setPort k v).due = m.due := rfl
@[simp] theorem Mach.setPort_yard (m : Mach) (k : Nat) (v : Port) : (m.setPort k v).yard = m.yard := rfl
@[simp] theorem Mach.setPort_fagent (m : Mach) (k : Nat) (v : Port) : (m.setPort k v).fagent = m.fagent := rfl
@[simp] theorem Mach.setPort_sweeps (m : Mach) (k : Nat) (v : Port) : (m.setPort k v).sweeps = m.sweeps := rfl
@[simp] theorem Mach.setPort_metaDn (m : Mach) (k : Nat) (v : Port) : (m.setPort k v).metaDn = m.metaDn := rfl
@[simp] theorem Mach.setPort_safe (m : Mach) (k : Nat) (v : Port) : (m.setPort k v).safe = m.safe := rfl
@[simp] theorem Mach.setPort_fatal (m : Mach) (k : Nat) (v : Port) : (m.setPort k v).fatal = m.fatal := rfl
@[simp] theorem Mach.setPort_rehome (m : Mach) (k : Nat) (v : Port) : (m.setPort k v).rehome = m.rehome := rfl
@[simp] theorem Mach.setPort_rhq (m : Mach) (k : Nat) (v : Port) : (m.setPort k v).rhq = m.rhq := rfl
@[simp] theorem Mach.setPort_ctrl (m : Mach) (k : Nat) (v : Port) : (m.setPort k v).ctrl = m.ctrl := rfl
@[simp] theorem Mach.setPort_rcr (m : Mach) (k : Nat) (v : Port) : (m.setPort k v).rcr = m.rcr := rfl
@[simp] theorem Mach.setPort_tmp (m : Mach) (k : Nat) (v : Port) : (m.setPort k v).tmp = m.tmp := rfl
@[simp] theorem Mach.setPort_tmpq (m : Mach) (k : Nat) (v : Port) : (m.setPort k v).tmpq = m.tmpq := rfl
@[simp] theorem Mach.setPort_lk (m : Mach) (k : Nat) (v : Port) : (m.setPort k v).lk = m.lk := rfl
@[simp] theorem Mach.setPort_qcmd (m : Mach) (k : Nat) (v : Port) : (m.setPort k v).qcmd = m.qcmd := rfl
@[simp] theorem Mach.setPort_qho (m : Mach) (k : Nat) (v : Port) : (m.setPort k v).qho = m.qho := rfl
@[simp] theorem Mach.setPort_invBusy (m : Mach) (k : Nat) (v : Port) : (m.setPort k v).invBusy = m.invBusy := rfl
@[simp] theorem Mach.setPort_domCmd (m : Mach) (k : Nat) (v : Port) : (m.setPort k v).domCmd = m.domCmd := rfl
@[simp] theorem Mach.setPort_domq (m : Mach) (k : Nat) (v : Port) : (m.setPort k v).domq = m.domq := rfl
@[simp] theorem Mach.setPort_freqTo (m : Mach) (k : Nat) (v : Port) : (m.setPort k v).freqTo = m.freqTo := rfl
@[simp] theorem Mach.setPort_cur (m : Mach) (k : Nat) (v : Port) : (m.setPort k v).cur = m.cur := rfl
@[simp] theorem Mach.setPort_throttle (m : Mach) (k : Nat) (v : Port) : (m.setPort k v).throttle = m.throttle := rfl
@[simp] theorem Mach.setPort_vmon (m : Mach) (k : Nat) (v : Port) : (m.setPort k v).vmon = m.vmon := rfl
@[simp] theorem Mach.setPort_tmon (m : Mach) (k : Nat) (v : Port) : (m.setPort k v).tmon = m.tmon := rfl
@[simp] theorem Mach.setPort_step (m : Mach) (k : Nat) (v : Port) : (m.setPort k v).step = m.step := rfl
@[simp] theorem Mach.setPort_halted (m : Mach) (k : Nat) (v : Port) : (m.setPort k v).halted = m.halted := rfl
@[simp] theorem Mach.setPort_mapped (m : Mach) (k : Nat) (v : Port) : (m.setPort k v).mapped = m.mapped := rfl
@[simp] theorem Mach.setPort_cpFails (m : Mach) (k : Nat) (v : Port) : (m.setPort k v).cpFails = m.cpFails := rfl
@[simp] theorem Mach.setPort_drain (m : Mach) (k : Nat) (v : Port) : (m.setPort k v).drain = m.drain := rfl
@[simp] theorem Mach.setPort_image (m : Mach) (k : Nat) (v : Port) : (m.setPort k v).image = m.image := rfl
@[simp] theorem Mach.setPort_heldq (m : Mach) (k : Nat) (v : Port) : (m.setPort k v).heldq = m.heldq := rfl
@[simp] theorem Mach.setPort_lc (m : Mach) (k : Nat) (v : Port) : (m.setPort k v).lc = m.lc := rfl
@[simp] theorem Mach.setPort_dbgOpen (m : Mach) (k : Nat) (v : Port) : (m.setPort k v).dbgOpen = m.dbgOpen := rfl
@[simp] theorem Mach.setPort_recOff (m : Mach) (k : Nat) (v : Port) : (m.setPort k v).recOff = m.recOff := rfl
@[simp] theorem Mach.setPort_mbist (m : Mach) (k : Nat) (v : Port) : (m.setPort k v).mbist = m.mbist := rfl
@[simp] theorem Mach.setPort_lbist (m : Mach) (k : Nat) (v : Port) : (m.setPort k v).lbist = m.lbist := rfl
@[simp] theorem Mach.setPort_free (m : Mach) (k : Nat) (v : Port) : (m.setPort k v).free = m.free := rfl
@[simp] theorem Mach.setPort_cslot (m : Mach) (k : Nat) (v : Port) : (m.setPort k v).cslot = m.cslot := rfl
@[simp] theorem Mach.setPort_slice (m : Mach) (k : Nat) (v : Port) (h : Nat) : (m.setPort k v).slice h = m.slice h := rfl
@[simp] theorem Mach.setPort_te (m : Mach) (k : Nat) (v : Port) (h : Nat) (t : Nat) : (m.setPort k v).te h t = m.te h t := rfl
@[simp] theorem Mach.setPort_active (m : Mach) (k : Nat) (v : Port) : (m.setPort k v).active = m.active := rfl
@[simp] theorem Mach.setPort_htag (m : Mach) (k : Nat) (v : Port) (h : Nat) (t : Nat) : (m.setPort k v).htag h t = m.htag h t := rfl
@[simp] theorem Mach.setPort_group (m : Mach) (k : Nat) (v : Port) (g : Nat) : (m.setPort k v).group g = m.group g := rfl
@[simp] theorem Mach.setPort_dom (m : Mach) (k : Nat) (v : Port) (d : Nat) : (m.setPort k v).dom d = m.dom d := rfl
@[simp] theorem Mach.setPort_reg (m : Mach) (k : Nat) (v : Port) (b : Nat) : (m.setPort k v).reg b = m.reg b := rfl
@[simp] theorem Mach.setPort_bit (m : Mach) (k : Nat) (v : Port) (b : Nat) (i : Nat) : (m.setPort k v).bit b i = m.bit b i := rfl
@[simp] theorem Mach.setPort_fld (m : Mach) (k : Nat) (v : Port) (b : Nat) (lo : Nat) (w : Nat) : (m.setPort k v).fld b lo w = m.fld b lo w := rfl
@[simp] theorem Mach.setPort_pair (m : Mach) (k : Nat) (v : Port) (b : Nat) (c : Nat) : (m.setPort k v).pair b c = m.pair b c := rfl
@[simp] theorem Mach.setPort_hsOf (m : Mach) (k : Nat) (v : Port) (l : Nat) : (m.setPort k v).hsOf l = m.hsOf l := rfl
@[simp] theorem Mach.setPort_paOf (m : Mach) (k : Nat) (v : Port) (o : Off) : (m.setPort k v).paOf o = m.paOf o := rfl
@[simp] theorem Mach.setPort_homed (m : Mach) (k : Nat) (v : Port) (x : Nat) : (m.setPort k v).homed x = m.homed x := rfl
@[simp] theorem Mach.setPort_hvalid (m : Mach) (k : Nat) (v : Port) : (m.setPort k v).hvalid = m.hvalid := rfl
@[simp] theorem Mach.setPort_hbase (m : Mach) (k : Nat) (v : Port) : (m.setPort k v).hbase = m.hbase := rfl
@[simp] theorem Mach.setPort_hlog2 (m : Mach) (k : Nat) (v : Port) : (m.setPort k v).hlog2 = m.hlog2 := rfl
@[simp] theorem Mach.setPort_lcState (m : Mach) (k : Nat) (v : Port) : (m.setPort k v).lcState = m.lcState := rfl
@[simp] theorem Mach.setPort_seedPort (m : Mach) (k : Nat) (v : Port) (x : Nat) : (m.setPort k v).seedPort x = m.seedPort x := rfl
@[simp] theorem Mach.setPort_spillPort (m : Mach) (k : Nat) (v : Port) : (m.setPort k v).spillPort = m.spillPort := rfl
@[simp] theorem Mach.setPort_descPort (m : Mach) (k : Nat) (v : Port) : (m.setPort k v).descPort = m.descPort := rfl
@[simp] theorem Mach.setPort_descPa (m : Mach) (k : Nat) (v : Port) (q : BitVec 20) : (m.setPort k v).descPa q = m.descPa q := rfl
@[simp] theorem Mach.setPort_populated (m : Mach) (k : Nat) (v : Port) (p : Nat) : (m.setPort k v).populated p = m.populated p := rfl
@[simp] theorem Mach.setPort_isCxl (m : Mach) (k : Nat) (v : Port) (p : Nat) : (m.setPort k v).isCxl p = m.isCxl p := rfl
@[simp] theorem Mach.setPort_agPop (m : Mach) (k : Nat) (v : Port) (x : Nat) : (m.setPort k v).agPop x = m.agPop x := rfl
@[simp] theorem Mach.setPort_agFenced (m : Mach) (k : Nat) (v : Port) (x : Nat) : (m.setPort k v).agFenced x = m.agFenced x := rfl

-- ===== setDom =====


@[simp] theorem Mach.setDom_integ (m : Mach) (k : Nat) (v : DomSt) : (m.setDom k v).integ = m.integ := rfl
@[simp] theorem Mach.setDom_up (m : Mach) (k : Nat) (v : DomSt) : (m.setDom k v).up = m.up := rfl
@[simp] theorem Mach.setDom_regs (m : Mach) (k : Nat) (v : DomSt) : (m.setDom k v).regs = m.regs := rfl
@[simp] theorem Mach.setDom_slices (m : Mach) (k : Nat) (v : DomSt) : (m.setDom k v).slices = m.slices := rfl
@[simp] theorem Mach.setDom_ports (m : Mach) (k : Nat) (v : DomSt) : (m.setDom k v).ports = m.ports := rfl
@[simp] theorem Mach.setDom_groups (m : Mach) (k : Nat) (v : DomSt) : (m.setDom k v).groups = m.groups := rfl
@[simp] theorem Mach.setDom_latch (m : Mach) (k : Nat) (v : DomSt) : (m.setDom k v).latch = m.latch := rfl
@[simp] theorem Mach.setDom_heldLo (m : Mach) (k : Nat) (v : DomSt) : (m.setDom k v).heldLo = m.heldLo := rfl
@[simp] theorem Mach.setDom_resp (m : Mach) (k : Nat) (v : DomSt) : (m.setDom k v).resp = m.resp := rfl
@[simp] theorem Mach.setDom_caps (m : Mach) (k : Nat) (v : DomSt) : (m.setDom k v).caps = m.caps := rfl
@[simp] theorem Mach.setDom_capSeq (m : Mach) (k : Nat) (v : DomSt) : (m.setDom k v).capSeq = m.capSeq := rfl
@[simp] theorem Mach.setDom_lost (m : Mach) (k : Nat) (v : DomSt) : (m.setDom k v).lost = m.lost := rfl
@[simp] theorem Mach.setDom_win (m : Mach) (k : Nat) (v : DomSt) : (m.setDom k v).win = m.win := rfl
@[simp] theorem Mach.setDom_due (m : Mach) (k : Nat) (v : DomSt) : (m.setDom k v).due = m.due := rfl
@[simp] theorem Mach.setDom_yard (m : Mach) (k : Nat) (v : DomSt) : (m.setDom k v).yard = m.yard := rfl
@[simp] theorem Mach.setDom_fagent (m : Mach) (k : Nat) (v : DomSt) : (m.setDom k v).fagent = m.fagent := rfl
@[simp] theorem Mach.setDom_sweeps (m : Mach) (k : Nat) (v : DomSt) : (m.setDom k v).sweeps = m.sweeps := rfl
@[simp] theorem Mach.setDom_metaDn (m : Mach) (k : Nat) (v : DomSt) : (m.setDom k v).metaDn = m.metaDn := rfl
@[simp] theorem Mach.setDom_safe (m : Mach) (k : Nat) (v : DomSt) : (m.setDom k v).safe = m.safe := rfl
@[simp] theorem Mach.setDom_fatal (m : Mach) (k : Nat) (v : DomSt) : (m.setDom k v).fatal = m.fatal := rfl
@[simp] theorem Mach.setDom_rehome (m : Mach) (k : Nat) (v : DomSt) : (m.setDom k v).rehome = m.rehome := rfl
@[simp] theorem Mach.setDom_rhq (m : Mach) (k : Nat) (v : DomSt) : (m.setDom k v).rhq = m.rhq := rfl
@[simp] theorem Mach.setDom_ctrl (m : Mach) (k : Nat) (v : DomSt) : (m.setDom k v).ctrl = m.ctrl := rfl
@[simp] theorem Mach.setDom_rcr (m : Mach) (k : Nat) (v : DomSt) : (m.setDom k v).rcr = m.rcr := rfl
@[simp] theorem Mach.setDom_tmp (m : Mach) (k : Nat) (v : DomSt) : (m.setDom k v).tmp = m.tmp := rfl
@[simp] theorem Mach.setDom_tmpq (m : Mach) (k : Nat) (v : DomSt) : (m.setDom k v).tmpq = m.tmpq := rfl
@[simp] theorem Mach.setDom_lk (m : Mach) (k : Nat) (v : DomSt) : (m.setDom k v).lk = m.lk := rfl
@[simp] theorem Mach.setDom_qcmd (m : Mach) (k : Nat) (v : DomSt) : (m.setDom k v).qcmd = m.qcmd := rfl
@[simp] theorem Mach.setDom_qho (m : Mach) (k : Nat) (v : DomSt) : (m.setDom k v).qho = m.qho := rfl
@[simp] theorem Mach.setDom_invBusy (m : Mach) (k : Nat) (v : DomSt) : (m.setDom k v).invBusy = m.invBusy := rfl
@[simp] theorem Mach.setDom_domCmd (m : Mach) (k : Nat) (v : DomSt) : (m.setDom k v).domCmd = m.domCmd := rfl
@[simp] theorem Mach.setDom_domq (m : Mach) (k : Nat) (v : DomSt) : (m.setDom k v).domq = m.domq := rfl
@[simp] theorem Mach.setDom_freqTo (m : Mach) (k : Nat) (v : DomSt) : (m.setDom k v).freqTo = m.freqTo := rfl
@[simp] theorem Mach.setDom_cur (m : Mach) (k : Nat) (v : DomSt) : (m.setDom k v).cur = m.cur := rfl
@[simp] theorem Mach.setDom_throttle (m : Mach) (k : Nat) (v : DomSt) : (m.setDom k v).throttle = m.throttle := rfl
@[simp] theorem Mach.setDom_vmon (m : Mach) (k : Nat) (v : DomSt) : (m.setDom k v).vmon = m.vmon := rfl
@[simp] theorem Mach.setDom_tmon (m : Mach) (k : Nat) (v : DomSt) : (m.setDom k v).tmon = m.tmon := rfl
@[simp] theorem Mach.setDom_step (m : Mach) (k : Nat) (v : DomSt) : (m.setDom k v).step = m.step := rfl
@[simp] theorem Mach.setDom_halted (m : Mach) (k : Nat) (v : DomSt) : (m.setDom k v).halted = m.halted := rfl
@[simp] theorem Mach.setDom_mapped (m : Mach) (k : Nat) (v : DomSt) : (m.setDom k v).mapped = m.mapped := rfl
@[simp] theorem Mach.setDom_cpFails (m : Mach) (k : Nat) (v : DomSt) : (m.setDom k v).cpFails = m.cpFails := rfl
@[simp] theorem Mach.setDom_drain (m : Mach) (k : Nat) (v : DomSt) : (m.setDom k v).drain = m.drain := rfl
@[simp] theorem Mach.setDom_image (m : Mach) (k : Nat) (v : DomSt) : (m.setDom k v).image = m.image := rfl
@[simp] theorem Mach.setDom_heldq (m : Mach) (k : Nat) (v : DomSt) : (m.setDom k v).heldq = m.heldq := rfl
@[simp] theorem Mach.setDom_lc (m : Mach) (k : Nat) (v : DomSt) : (m.setDom k v).lc = m.lc := rfl
@[simp] theorem Mach.setDom_dbgOpen (m : Mach) (k : Nat) (v : DomSt) : (m.setDom k v).dbgOpen = m.dbgOpen := rfl
@[simp] theorem Mach.setDom_recOff (m : Mach) (k : Nat) (v : DomSt) : (m.setDom k v).recOff = m.recOff := rfl
@[simp] theorem Mach.setDom_mbist (m : Mach) (k : Nat) (v : DomSt) : (m.setDom k v).mbist = m.mbist := rfl
@[simp] theorem Mach.setDom_lbist (m : Mach) (k : Nat) (v : DomSt) : (m.setDom k v).lbist = m.lbist := rfl
@[simp] theorem Mach.setDom_free (m : Mach) (k : Nat) (v : DomSt) : (m.setDom k v).free = m.free := rfl
@[simp] theorem Mach.setDom_cslot (m : Mach) (k : Nat) (v : DomSt) : (m.setDom k v).cslot = m.cslot := rfl
@[simp] theorem Mach.setDom_slice (m : Mach) (k : Nat) (v : DomSt) (h : Nat) : (m.setDom k v).slice h = m.slice h := rfl
@[simp] theorem Mach.setDom_te (m : Mach) (k : Nat) (v : DomSt) (h : Nat) (t : Nat) : (m.setDom k v).te h t = m.te h t := rfl
@[simp] theorem Mach.setDom_active (m : Mach) (k : Nat) (v : DomSt) : (m.setDom k v).active = m.active := rfl
@[simp] theorem Mach.setDom_htag (m : Mach) (k : Nat) (v : DomSt) (h : Nat) (t : Nat) : (m.setDom k v).htag h t = m.htag h t := rfl
@[simp] theorem Mach.setDom_port (m : Mach) (k : Nat) (v : DomSt) (p : Nat) : (m.setDom k v).port p = m.port p := rfl
@[simp] theorem Mach.setDom_portDown (m : Mach) (k : Nat) (v : DomSt) (p : Nat) : (m.setDom k v).portDown p = m.portDown p := rfl
@[simp] theorem Mach.setDom_group (m : Mach) (k : Nat) (v : DomSt) (g : Nat) : (m.setDom k v).group g = m.group g := rfl
@[simp] theorem Mach.setDom_reg (m : Mach) (k : Nat) (v : DomSt) (b : Nat) : (m.setDom k v).reg b = m.reg b := rfl
@[simp] theorem Mach.setDom_bit (m : Mach) (k : Nat) (v : DomSt) (b : Nat) (i : Nat) : (m.setDom k v).bit b i = m.bit b i := rfl
@[simp] theorem Mach.setDom_fld (m : Mach) (k : Nat) (v : DomSt) (b : Nat) (lo : Nat) (w : Nat) : (m.setDom k v).fld b lo w = m.fld b lo w := rfl
@[simp] theorem Mach.setDom_pair (m : Mach) (k : Nat) (v : DomSt) (b : Nat) (c : Nat) : (m.setDom k v).pair b c = m.pair b c := rfl
@[simp] theorem Mach.setDom_hsOf (m : Mach) (k : Nat) (v : DomSt) (l : Nat) : (m.setDom k v).hsOf l = m.hsOf l := rfl
@[simp] theorem Mach.setDom_paOf (m : Mach) (k : Nat) (v : DomSt) (o : Off) : (m.setDom k v).paOf o = m.paOf o := rfl
@[simp] theorem Mach.setDom_homed (m : Mach) (k : Nat) (v : DomSt) (x : Nat) : (m.setDom k v).homed x = m.homed x := rfl
@[simp] theorem Mach.setDom_hvalid (m : Mach) (k : Nat) (v : DomSt) : (m.setDom k v).hvalid = m.hvalid := rfl
@[simp] theorem Mach.setDom_hbase (m : Mach) (k : Nat) (v : DomSt) : (m.setDom k v).hbase = m.hbase := rfl
@[simp] theorem Mach.setDom_hlog2 (m : Mach) (k : Nat) (v : DomSt) : (m.setDom k v).hlog2 = m.hlog2 := rfl
@[simp] theorem Mach.setDom_lcState (m : Mach) (k : Nat) (v : DomSt) : (m.setDom k v).lcState = m.lcState := rfl
@[simp] theorem Mach.setDom_seedPort (m : Mach) (k : Nat) (v : DomSt) (x : Nat) : (m.setDom k v).seedPort x = m.seedPort x := rfl
@[simp] theorem Mach.setDom_spillPort (m : Mach) (k : Nat) (v : DomSt) : (m.setDom k v).spillPort = m.spillPort := rfl
@[simp] theorem Mach.setDom_descPort (m : Mach) (k : Nat) (v : DomSt) : (m.setDom k v).descPort = m.descPort := rfl
@[simp] theorem Mach.setDom_descPa (m : Mach) (k : Nat) (v : DomSt) (q : BitVec 20) : (m.setDom k v).descPa q = m.descPa q := rfl
@[simp] theorem Mach.setDom_populated (m : Mach) (k : Nat) (v : DomSt) (p : Nat) : (m.setDom k v).populated p = m.populated p := rfl
@[simp] theorem Mach.setDom_isCxl (m : Mach) (k : Nat) (v : DomSt) (p : Nat) : (m.setDom k v).isCxl p = m.isCxl p := rfl
@[simp] theorem Mach.setDom_agPop (m : Mach) (k : Nat) (v : DomSt) (x : Nat) : (m.setDom k v).agPop x = m.agPop x := rfl
@[simp] theorem Mach.setDom_agFenced (m : Mach) (k : Nat) (v : DomSt) (x : Nat) : (m.setDom k v).agFenced x = m.agFenced x := rfl

-- ===== modG =====


@[simp] theorem Mach.modG_integ (m : Mach) (k : Nat) (f : Group → Group) : (m.modG k f).integ = m.integ := rfl
@[simp] theorem Mach.modG_up (m : Mach) (k : Nat) (f : Group → Group) : (m.modG k f).up = m.up := rfl
@[simp] theorem Mach.modG_regs (m : Mach) (k : Nat) (f : Group → Group) : (m.modG k f).regs = m.regs := rfl
@[simp] theorem Mach.modG_slices (m : Mach) (k : Nat) (f : Group → Group) : (m.modG k f).slices = m.slices := rfl
@[simp] theorem Mach.modG_ports (m : Mach) (k : Nat) (f : Group → Group) : (m.modG k f).ports = m.ports := rfl
@[simp] theorem Mach.modG_doms (m : Mach) (k : Nat) (f : Group → Group) : (m.modG k f).doms = m.doms := rfl
@[simp] theorem Mach.modG_latch (m : Mach) (k : Nat) (f : Group → Group) : (m.modG k f).latch = m.latch := rfl
@[simp] theorem Mach.modG_heldLo (m : Mach) (k : Nat) (f : Group → Group) : (m.modG k f).heldLo = m.heldLo := rfl
@[simp] theorem Mach.modG_resp (m : Mach) (k : Nat) (f : Group → Group) : (m.modG k f).resp = m.resp := rfl
@[simp] theorem Mach.modG_caps (m : Mach) (k : Nat) (f : Group → Group) : (m.modG k f).caps = m.caps := rfl
@[simp] theorem Mach.modG_capSeq (m : Mach) (k : Nat) (f : Group → Group) : (m.modG k f).capSeq = m.capSeq := rfl
@[simp] theorem Mach.modG_lost (m : Mach) (k : Nat) (f : Group → Group) : (m.modG k f).lost = m.lost := rfl
@[simp] theorem Mach.modG_win (m : Mach) (k : Nat) (f : Group → Group) : (m.modG k f).win = m.win := rfl
@[simp] theorem Mach.modG_due (m : Mach) (k : Nat) (f : Group → Group) : (m.modG k f).due = m.due := rfl
@[simp] theorem Mach.modG_yard (m : Mach) (k : Nat) (f : Group → Group) : (m.modG k f).yard = m.yard := rfl
@[simp] theorem Mach.modG_fagent (m : Mach) (k : Nat) (f : Group → Group) : (m.modG k f).fagent = m.fagent := rfl
@[simp] theorem Mach.modG_sweeps (m : Mach) (k : Nat) (f : Group → Group) : (m.modG k f).sweeps = m.sweeps := rfl
@[simp] theorem Mach.modG_metaDn (m : Mach) (k : Nat) (f : Group → Group) : (m.modG k f).metaDn = m.metaDn := rfl
@[simp] theorem Mach.modG_safe (m : Mach) (k : Nat) (f : Group → Group) : (m.modG k f).safe = m.safe := rfl
@[simp] theorem Mach.modG_fatal (m : Mach) (k : Nat) (f : Group → Group) : (m.modG k f).fatal = m.fatal := rfl
@[simp] theorem Mach.modG_rehome (m : Mach) (k : Nat) (f : Group → Group) : (m.modG k f).rehome = m.rehome := rfl
@[simp] theorem Mach.modG_rhq (m : Mach) (k : Nat) (f : Group → Group) : (m.modG k f).rhq = m.rhq := rfl
@[simp] theorem Mach.modG_ctrl (m : Mach) (k : Nat) (f : Group → Group) : (m.modG k f).ctrl = m.ctrl := rfl
@[simp] theorem Mach.modG_rcr (m : Mach) (k : Nat) (f : Group → Group) : (m.modG k f).rcr = m.rcr := rfl
@[simp] theorem Mach.modG_tmp (m : Mach) (k : Nat) (f : Group → Group) : (m.modG k f).tmp = m.tmp := rfl
@[simp] theorem Mach.modG_tmpq (m : Mach) (k : Nat) (f : Group → Group) : (m.modG k f).tmpq = m.tmpq := rfl
@[simp] theorem Mach.modG_lk (m : Mach) (k : Nat) (f : Group → Group) : (m.modG k f).lk = m.lk := rfl
@[simp] theorem Mach.modG_qcmd (m : Mach) (k : Nat) (f : Group → Group) : (m.modG k f).qcmd = m.qcmd := rfl
@[simp] theorem Mach.modG_qho (m : Mach) (k : Nat) (f : Group → Group) : (m.modG k f).qho = m.qho := rfl
@[simp] theorem Mach.modG_invBusy (m : Mach) (k : Nat) (f : Group → Group) : (m.modG k f).invBusy = m.invBusy := rfl
@[simp] theorem Mach.modG_domCmd (m : Mach) (k : Nat) (f : Group → Group) : (m.modG k f).domCmd = m.domCmd := rfl
@[simp] theorem Mach.modG_domq (m : Mach) (k : Nat) (f : Group → Group) : (m.modG k f).domq = m.domq := rfl
@[simp] theorem Mach.modG_freqTo (m : Mach) (k : Nat) (f : Group → Group) : (m.modG k f).freqTo = m.freqTo := rfl
@[simp] theorem Mach.modG_cur (m : Mach) (k : Nat) (f : Group → Group) : (m.modG k f).cur = m.cur := rfl
@[simp] theorem Mach.modG_throttle (m : Mach) (k : Nat) (f : Group → Group) : (m.modG k f).throttle = m.throttle := rfl
@[simp] theorem Mach.modG_vmon (m : Mach) (k : Nat) (f : Group → Group) : (m.modG k f).vmon = m.vmon := rfl
@[simp] theorem Mach.modG_tmon (m : Mach) (k : Nat) (f : Group → Group) : (m.modG k f).tmon = m.tmon := rfl
@[simp] theorem Mach.modG_step (m : Mach) (k : Nat) (f : Group → Group) : (m.modG k f).step = m.step := rfl
@[simp] theorem Mach.modG_halted (m : Mach) (k : Nat) (f : Group → Group) : (m.modG k f).halted = m.halted := rfl
@[simp] theorem Mach.modG_mapped (m : Mach) (k : Nat) (f : Group → Group) : (m.modG k f).mapped = m.mapped := rfl
@[simp] theorem Mach.modG_cpFails (m : Mach) (k : Nat) (f : Group → Group) : (m.modG k f).cpFails = m.cpFails := rfl
@[simp] theorem Mach.modG_drain (m : Mach) (k : Nat) (f : Group → Group) : (m.modG k f).drain = m.drain := rfl
@[simp] theorem Mach.modG_image (m : Mach) (k : Nat) (f : Group → Group) : (m.modG k f).image = m.image := rfl
@[simp] theorem Mach.modG_heldq (m : Mach) (k : Nat) (f : Group → Group) : (m.modG k f).heldq = m.heldq := rfl
@[simp] theorem Mach.modG_lc (m : Mach) (k : Nat) (f : Group → Group) : (m.modG k f).lc = m.lc := rfl
@[simp] theorem Mach.modG_dbgOpen (m : Mach) (k : Nat) (f : Group → Group) : (m.modG k f).dbgOpen = m.dbgOpen := rfl
@[simp] theorem Mach.modG_recOff (m : Mach) (k : Nat) (f : Group → Group) : (m.modG k f).recOff = m.recOff := rfl
@[simp] theorem Mach.modG_mbist (m : Mach) (k : Nat) (f : Group → Group) : (m.modG k f).mbist = m.mbist := rfl
@[simp] theorem Mach.modG_lbist (m : Mach) (k : Nat) (f : Group → Group) : (m.modG k f).lbist = m.lbist := rfl
@[simp] theorem Mach.modG_free (m : Mach) (k : Nat) (f : Group → Group) : (m.modG k f).free = m.free := rfl
@[simp] theorem Mach.modG_cslot (m : Mach) (k : Nat) (f : Group → Group) : (m.modG k f).cslot = m.cslot := rfl
@[simp] theorem Mach.modG_slice (m : Mach) (k : Nat) (f : Group → Group) (h : Nat) : (m.modG k f).slice h = m.slice h := rfl
@[simp] theorem Mach.modG_te (m : Mach) (k : Nat) (f : Group → Group) (h : Nat) (t : Nat) : (m.modG k f).te h t = m.te h t := rfl
@[simp] theorem Mach.modG_active (m : Mach) (k : Nat) (f : Group → Group) : (m.modG k f).active = m.active := rfl
@[simp] theorem Mach.modG_htag (m : Mach) (k : Nat) (f : Group → Group) (h : Nat) (t : Nat) : (m.modG k f).htag h t = m.htag h t := rfl
@[simp] theorem Mach.modG_port (m : Mach) (k : Nat) (f : Group → Group) (p : Nat) : (m.modG k f).port p = m.port p := rfl
@[simp] theorem Mach.modG_portDown (m : Mach) (k : Nat) (f : Group → Group) (p : Nat) : (m.modG k f).portDown p = m.portDown p := rfl
@[simp] theorem Mach.modG_dom (m : Mach) (k : Nat) (f : Group → Group) (d : Nat) : (m.modG k f).dom d = m.dom d := rfl
@[simp] theorem Mach.modG_reg (m : Mach) (k : Nat) (f : Group → Group) (b : Nat) : (m.modG k f).reg b = m.reg b := rfl
@[simp] theorem Mach.modG_bit (m : Mach) (k : Nat) (f : Group → Group) (b : Nat) (i : Nat) : (m.modG k f).bit b i = m.bit b i := rfl
@[simp] theorem Mach.modG_fld (m : Mach) (k : Nat) (f : Group → Group) (b : Nat) (lo : Nat) (w : Nat) : (m.modG k f).fld b lo w = m.fld b lo w := rfl
@[simp] theorem Mach.modG_pair (m : Mach) (k : Nat) (f : Group → Group) (b : Nat) (c : Nat) : (m.modG k f).pair b c = m.pair b c := rfl
@[simp] theorem Mach.modG_hsOf (m : Mach) (k : Nat) (f : Group → Group) (l : Nat) : (m.modG k f).hsOf l = m.hsOf l := rfl
@[simp] theorem Mach.modG_paOf (m : Mach) (k : Nat) (f : Group → Group) (o : Off) : (m.modG k f).paOf o = m.paOf o := rfl
@[simp] theorem Mach.modG_homed (m : Mach) (k : Nat) (f : Group → Group) (x : Nat) : (m.modG k f).homed x = m.homed x := rfl
@[simp] theorem Mach.modG_hvalid (m : Mach) (k : Nat) (f : Group → Group) : (m.modG k f).hvalid = m.hvalid := rfl
@[simp] theorem Mach.modG_hbase (m : Mach) (k : Nat) (f : Group → Group) : (m.modG k f).hbase = m.hbase := rfl
@[simp] theorem Mach.modG_hlog2 (m : Mach) (k : Nat) (f : Group → Group) : (m.modG k f).hlog2 = m.hlog2 := rfl
@[simp] theorem Mach.modG_lcState (m : Mach) (k : Nat) (f : Group → Group) : (m.modG k f).lcState = m.lcState := rfl
@[simp] theorem Mach.modG_seedPort (m : Mach) (k : Nat) (f : Group → Group) (x : Nat) : (m.modG k f).seedPort x = m.seedPort x := rfl
@[simp] theorem Mach.modG_spillPort (m : Mach) (k : Nat) (f : Group → Group) : (m.modG k f).spillPort = m.spillPort := rfl
@[simp] theorem Mach.modG_descPort (m : Mach) (k : Nat) (f : Group → Group) : (m.modG k f).descPort = m.descPort := rfl
@[simp] theorem Mach.modG_descPa (m : Mach) (k : Nat) (f : Group → Group) (q : BitVec 20) : (m.modG k f).descPa q = m.descPa q := rfl
@[simp] theorem Mach.modG_populated (m : Mach) (k : Nat) (f : Group → Group) (p : Nat) : (m.modG k f).populated p = m.populated p := rfl
@[simp] theorem Mach.modG_isCxl (m : Mach) (k : Nat) (f : Group → Group) (p : Nat) : (m.modG k f).isCxl p = m.isCxl p := rfl
@[simp] theorem Mach.modG_agPop (m : Mach) (k : Nat) (f : Group → Group) (x : Nat) : (m.modG k f).agPop x = m.agPop x := rfl
@[simp] theorem Mach.modG_agFenced (m : Mach) (k : Nat) (f : Group → Group) (x : Nat) : (m.modG k f).agFenced x = m.agFenced x := rfl

-- ===== the updates made of them: every field but the one they write, and every read that does not use it =====

@[simp] theorem Mach.setFld_frame (m : Mach) (a lo w n : Nat) :
    (m.setFld a lo w n).integ = m.integ ∧ (m.setFld a lo w n).up = m.up ∧ (m.setFld a lo w n).slices = m.slices ∧
    (m.setFld a lo w n).ports = m.ports ∧ (m.setFld a lo w n).groups = m.groups ∧ (m.setFld a lo w n).doms = m.doms ∧
    (m.setFld a lo w n).latch = m.latch ∧ (m.setFld a lo w n).heldLo = m.heldLo ∧ (m.setFld a lo w n).resp = m.resp ∧
    (m.setFld a lo w n).caps = m.caps ∧ (m.setFld a lo w n).capSeq = m.capSeq ∧ (m.setFld a lo w n).lost = m.lost ∧
    (m.setFld a lo w n).win = m.win ∧ (m.setFld a lo w n).due = m.due ∧ (m.setFld a lo w n).yard = m.yard ∧
    (m.setFld a lo w n).fagent = m.fagent ∧ (m.setFld a lo w n).sweeps = m.sweeps ∧ (m.setFld a lo w n).metaDn = m.metaDn ∧
    (m.setFld a lo w n).safe = m.safe ∧ (m.setFld a lo w n).fatal = m.fatal ∧ (m.setFld a lo w n).rehome = m.rehome ∧
    (m.setFld a lo w n).rhq = m.rhq ∧ (m.setFld a lo w n).ctrl = m.ctrl ∧ (m.setFld a lo w n).rcr = m.rcr ∧
    (m.setFld a lo w n).tmp = m.tmp ∧ (m.setFld a lo w n).tmpq = m.tmpq ∧ (m.setFld a lo w n).lk = m.lk ∧
    (m.setFld a lo w n).qcmd = m.qcmd ∧ (m.setFld a lo w n).qho = m.qho ∧ (m.setFld a lo w n).invBusy = m.invBusy ∧
    (m.setFld a lo w n).domCmd = m.domCmd ∧ (m.setFld a lo w n).domq = m.domq ∧ (m.setFld a lo w n).freqTo = m.freqTo ∧
    (m.setFld a lo w n).cur = m.cur ∧ (m.setFld a lo w n).throttle = m.throttle ∧ (m.setFld a lo w n).vmon = m.vmon ∧
    (m.setFld a lo w n).tmon = m.tmon ∧ (m.setFld a lo w n).step = m.step ∧ (m.setFld a lo w n).halted = m.halted ∧
    (m.setFld a lo w n).mapped = m.mapped ∧ (m.setFld a lo w n).cpFails = m.cpFails ∧ (m.setFld a lo w n).drain = m.drain ∧
    (m.setFld a lo w n).image = m.image ∧ (m.setFld a lo w n).heldq = m.heldq ∧ (m.setFld a lo w n).lc = m.lc ∧
    (m.setFld a lo w n).dbgOpen = m.dbgOpen ∧ (m.setFld a lo w n).recOff = m.recOff ∧ (m.setFld a lo w n).mbist = m.mbist ∧
    (m.setFld a lo w n).lbist = m.lbist ∧ (m.setFld a lo w n).free = m.free ∧ (m.setFld a lo w n).cslot = m.cslot ∧
    (∀ (h2 : Nat), (m.setFld a lo w n).slice h2 = m.slice h2) ∧ (∀ (h2 : Nat) (t2 : Nat), (m.setFld a lo w n).te h2 t2 = m.te h2 t2) ∧
    (m.setFld a lo w n).active = m.active ∧ (∀ (h2 : Nat) (t2 : Nat), (m.setFld a lo w n).htag h2 t2 = m.htag h2 t2) ∧
    (∀ (p2 : Nat), (m.setFld a lo w n).port p2 = m.port p2) ∧ (∀ (p2 : Nat), (m.setFld a lo w n).portDown p2 = m.portDown p2) ∧
    (∀ (g2 : Nat), (m.setFld a lo w n).group g2 = m.group g2) ∧ (∀ (d2 : Nat), (m.setFld a lo w n).dom d2 = m.dom d2) ∧
    (∀ (p2 : Nat), (m.setFld a lo w n).populated p2 = m.populated p2) ∧ (∀ (p2 : Nat), (m.setFld a lo w n).isCxl p2 = m.isCxl p2) ∧
    (∀ (x : Nat), (m.setFld a lo w n).agPop x = m.agPop x) ∧ (∀ (x : Nat), (m.setFld a lo w n).agFenced x = m.agFenced x) := by
  unfold Mach.setFld; simp

@[simp] theorem Mach.setBits_frame (m : Mach) (a : Nat) (b : W32) :
    (m.setBits a b).integ = m.integ ∧ (m.setBits a b).up = m.up ∧ (m.setBits a b).slices = m.slices ∧ (m.setBits a b).ports = m.ports ∧
    (m.setBits a b).groups = m.groups ∧ (m.setBits a b).doms = m.doms ∧ (m.setBits a b).latch = m.latch ∧
    (m.setBits a b).heldLo = m.heldLo ∧ (m.setBits a b).resp = m.resp ∧ (m.setBits a b).caps = m.caps ∧
    (m.setBits a b).capSeq = m.capSeq ∧ (m.setBits a b).lost = m.lost ∧ (m.setBits a b).win = m.win ∧ (m.setBits a b).due = m.due ∧
    (m.setBits a b).yard = m.yard ∧ (m.setBits a b).fagent = m.fagent ∧ (m.setBits a b).sweeps = m.sweeps ∧
    (m.setBits a b).metaDn = m.metaDn ∧ (m.setBits a b).safe = m.safe ∧ (m.setBits a b).fatal = m.fatal ∧
    (m.setBits a b).rehome = m.rehome ∧ (m.setBits a b).rhq = m.rhq ∧ (m.setBits a b).ctrl = m.ctrl ∧ (m.setBits a b).rcr = m.rcr ∧
    (m.setBits a b).tmp = m.tmp ∧ (m.setBits a b).tmpq = m.tmpq ∧ (m.setBits a b).lk = m.lk ∧ (m.setBits a b).qcmd = m.qcmd ∧
    (m.setBits a b).qho = m.qho ∧ (m.setBits a b).invBusy = m.invBusy ∧ (m.setBits a b).domCmd = m.domCmd ∧
    (m.setBits a b).domq = m.domq ∧ (m.setBits a b).freqTo = m.freqTo ∧ (m.setBits a b).cur = m.cur ∧
    (m.setBits a b).throttle = m.throttle ∧ (m.setBits a b).vmon = m.vmon ∧ (m.setBits a b).tmon = m.tmon ∧
    (m.setBits a b).step = m.step ∧ (m.setBits a b).halted = m.halted ∧ (m.setBits a b).mapped = m.mapped ∧
    (m.setBits a b).cpFails = m.cpFails ∧ (m.setBits a b).drain = m.drain ∧ (m.setBits a b).image = m.image ∧
    (m.setBits a b).heldq = m.heldq ∧ (m.setBits a b).lc = m.lc ∧ (m.setBits a b).dbgOpen = m.dbgOpen ∧
    (m.setBits a b).recOff = m.recOff ∧ (m.setBits a b).mbist = m.mbist ∧ (m.setBits a b).lbist = m.lbist ∧
    (m.setBits a b).free = m.free ∧ (m.setBits a b).cslot = m.cslot ∧ (∀ (h2 : Nat), (m.setBits a b).slice h2 = m.slice h2) ∧
    (∀ (h2 : Nat) (t2 : Nat), (m.setBits a b).te h2 t2 = m.te h2 t2) ∧ (m.setBits a b).active = m.active ∧
    (∀ (h2 : Nat) (t2 : Nat), (m.setBits a b).htag h2 t2 = m.htag h2 t2) ∧ (∀ (p2 : Nat), (m.setBits a b).port p2 = m.port p2) ∧
    (∀ (p2 : Nat), (m.setBits a b).portDown p2 = m.portDown p2) ∧ (∀ (g2 : Nat), (m.setBits a b).group g2 = m.group g2) ∧
    (∀ (d2 : Nat), (m.setBits a b).dom d2 = m.dom d2) ∧ (∀ (p2 : Nat), (m.setBits a b).populated p2 = m.populated p2) ∧
    (∀ (p2 : Nat), (m.setBits a b).isCxl p2 = m.isCxl p2) ∧ (∀ (x : Nat), (m.setBits a b).agPop x = m.agPop x) ∧
    (∀ (x : Nat), (m.setBits a b).agFenced x = m.agFenced x) := by
  unfold Mach.setBits; simp

@[simp] theorem Mach.clrBits_frame (m : Mach) (a : Nat) (b : W32) :
    (m.clrBits a b).integ = m.integ ∧ (m.clrBits a b).up = m.up ∧ (m.clrBits a b).slices = m.slices ∧ (m.clrBits a b).ports = m.ports ∧
    (m.clrBits a b).groups = m.groups ∧ (m.clrBits a b).doms = m.doms ∧ (m.clrBits a b).latch = m.latch ∧
    (m.clrBits a b).heldLo = m.heldLo ∧ (m.clrBits a b).resp = m.resp ∧ (m.clrBits a b).caps = m.caps ∧
    (m.clrBits a b).capSeq = m.capSeq ∧ (m.clrBits a b).lost = m.lost ∧ (m.clrBits a b).win = m.win ∧ (m.clrBits a b).due = m.due ∧
    (m.clrBits a b).yard = m.yard ∧ (m.clrBits a b).fagent = m.fagent ∧ (m.clrBits a b).sweeps = m.sweeps ∧
    (m.clrBits a b).metaDn = m.metaDn ∧ (m.clrBits a b).safe = m.safe ∧ (m.clrBits a b).fatal = m.fatal ∧
    (m.clrBits a b).rehome = m.rehome ∧ (m.clrBits a b).rhq = m.rhq ∧ (m.clrBits a b).ctrl = m.ctrl ∧ (m.clrBits a b).rcr = m.rcr ∧
    (m.clrBits a b).tmp = m.tmp ∧ (m.clrBits a b).tmpq = m.tmpq ∧ (m.clrBits a b).lk = m.lk ∧ (m.clrBits a b).qcmd = m.qcmd ∧
    (m.clrBits a b).qho = m.qho ∧ (m.clrBits a b).invBusy = m.invBusy ∧ (m.clrBits a b).domCmd = m.domCmd ∧
    (m.clrBits a b).domq = m.domq ∧ (m.clrBits a b).freqTo = m.freqTo ∧ (m.clrBits a b).cur = m.cur ∧
    (m.clrBits a b).throttle = m.throttle ∧ (m.clrBits a b).vmon = m.vmon ∧ (m.clrBits a b).tmon = m.tmon ∧
    (m.clrBits a b).step = m.step ∧ (m.clrBits a b).halted = m.halted ∧ (m.clrBits a b).mapped = m.mapped ∧
    (m.clrBits a b).cpFails = m.cpFails ∧ (m.clrBits a b).drain = m.drain ∧ (m.clrBits a b).image = m.image ∧
    (m.clrBits a b).heldq = m.heldq ∧ (m.clrBits a b).lc = m.lc ∧ (m.clrBits a b).dbgOpen = m.dbgOpen ∧
    (m.clrBits a b).recOff = m.recOff ∧ (m.clrBits a b).mbist = m.mbist ∧ (m.clrBits a b).lbist = m.lbist ∧
    (m.clrBits a b).free = m.free ∧ (m.clrBits a b).cslot = m.cslot ∧ (∀ (h2 : Nat), (m.clrBits a b).slice h2 = m.slice h2) ∧
    (∀ (h2 : Nat) (t2 : Nat), (m.clrBits a b).te h2 t2 = m.te h2 t2) ∧ (m.clrBits a b).active = m.active ∧
    (∀ (h2 : Nat) (t2 : Nat), (m.clrBits a b).htag h2 t2 = m.htag h2 t2) ∧ (∀ (p2 : Nat), (m.clrBits a b).port p2 = m.port p2) ∧
    (∀ (p2 : Nat), (m.clrBits a b).portDown p2 = m.portDown p2) ∧ (∀ (g2 : Nat), (m.clrBits a b).group g2 = m.group g2) ∧
    (∀ (d2 : Nat), (m.clrBits a b).dom d2 = m.dom d2) ∧ (∀ (p2 : Nat), (m.clrBits a b).populated p2 = m.populated p2) ∧
    (∀ (p2 : Nat), (m.clrBits a b).isCxl p2 = m.isCxl p2) ∧ (∀ (x : Nat), (m.clrBits a b).agPop x = m.agPop x) ∧
    (∀ (x : Nat), (m.clrBits a b).agFenced x = m.agFenced x) := by
  unfold Mach.clrBits; simp

@[simp] theorem Mach.setPair_frame (m : Mach) (a b : Nat) (v : W64) :
    (m.setPair a b v).integ = m.integ ∧ (m.setPair a b v).up = m.up ∧ (m.setPair a b v).slices = m.slices ∧
    (m.setPair a b v).ports = m.ports ∧ (m.setPair a b v).groups = m.groups ∧ (m.setPair a b v).doms = m.doms ∧
    (m.setPair a b v).latch = m.latch ∧ (m.setPair a b v).heldLo = m.heldLo ∧ (m.setPair a b v).resp = m.resp ∧
    (m.setPair a b v).caps = m.caps ∧ (m.setPair a b v).capSeq = m.capSeq ∧ (m.setPair a b v).lost = m.lost ∧
    (m.setPair a b v).win = m.win ∧ (m.setPair a b v).due = m.due ∧ (m.setPair a b v).yard = m.yard ∧
    (m.setPair a b v).fagent = m.fagent ∧ (m.setPair a b v).sweeps = m.sweeps ∧ (m.setPair a b v).metaDn = m.metaDn ∧
    (m.setPair a b v).safe = m.safe ∧ (m.setPair a b v).fatal = m.fatal ∧ (m.setPair a b v).rehome = m.rehome ∧
    (m.setPair a b v).rhq = m.rhq ∧ (m.setPair a b v).ctrl = m.ctrl ∧ (m.setPair a b v).rcr = m.rcr ∧ (m.setPair a b v).tmp = m.tmp ∧
    (m.setPair a b v).tmpq = m.tmpq ∧ (m.setPair a b v).lk = m.lk ∧ (m.setPair a b v).qcmd = m.qcmd ∧ (m.setPair a b v).qho = m.qho ∧
    (m.setPair a b v).invBusy = m.invBusy ∧ (m.setPair a b v).domCmd = m.domCmd ∧ (m.setPair a b v).domq = m.domq ∧
    (m.setPair a b v).freqTo = m.freqTo ∧ (m.setPair a b v).cur = m.cur ∧ (m.setPair a b v).throttle = m.throttle ∧
    (m.setPair a b v).vmon = m.vmon ∧ (m.setPair a b v).tmon = m.tmon ∧ (m.setPair a b v).step = m.step ∧
    (m.setPair a b v).halted = m.halted ∧ (m.setPair a b v).mapped = m.mapped ∧ (m.setPair a b v).cpFails = m.cpFails ∧
    (m.setPair a b v).drain = m.drain ∧ (m.setPair a b v).image = m.image ∧ (m.setPair a b v).heldq = m.heldq ∧
    (m.setPair a b v).lc = m.lc ∧ (m.setPair a b v).dbgOpen = m.dbgOpen ∧ (m.setPair a b v).recOff = m.recOff ∧
    (m.setPair a b v).mbist = m.mbist ∧ (m.setPair a b v).lbist = m.lbist ∧ (m.setPair a b v).free = m.free ∧
    (m.setPair a b v).cslot = m.cslot ∧ (∀ (h2 : Nat), (m.setPair a b v).slice h2 = m.slice h2) ∧
    (∀ (h2 : Nat) (t2 : Nat), (m.setPair a b v).te h2 t2 = m.te h2 t2) ∧ (m.setPair a b v).active = m.active ∧
    (∀ (h2 : Nat) (t2 : Nat), (m.setPair a b v).htag h2 t2 = m.htag h2 t2) ∧ (∀ (p2 : Nat), (m.setPair a b v).port p2 = m.port p2) ∧
    (∀ (p2 : Nat), (m.setPair a b v).portDown p2 = m.portDown p2) ∧ (∀ (g2 : Nat), (m.setPair a b v).group g2 = m.group g2) ∧
    (∀ (d2 : Nat), (m.setPair a b v).dom d2 = m.dom d2) ∧ (∀ (p2 : Nat), (m.setPair a b v).populated p2 = m.populated p2) ∧
    (∀ (p2 : Nat), (m.setPair a b v).isCxl p2 = m.isCxl p2) ∧ (∀ (x : Nat), (m.setPair a b v).agPop x = m.agPop x) ∧
    (∀ (x : Nat), (m.setPair a b v).agFenced x = m.agFenced x) := by
  unfold Mach.setPair; simp

@[simp] theorem Mach.count_frame (m : Mach) (a n : Nat) :
    (m.count a n).integ = m.integ ∧ (m.count a n).up = m.up ∧ (m.count a n).slices = m.slices ∧ (m.count a n).ports = m.ports ∧
    (m.count a n).groups = m.groups ∧ (m.count a n).doms = m.doms ∧ (m.count a n).latch = m.latch ∧ (m.count a n).heldLo = m.heldLo ∧
    (m.count a n).resp = m.resp ∧ (m.count a n).caps = m.caps ∧ (m.count a n).capSeq = m.capSeq ∧ (m.count a n).lost = m.lost ∧
    (m.count a n).win = m.win ∧ (m.count a n).due = m.due ∧ (m.count a n).yard = m.yard ∧ (m.count a n).fagent = m.fagent ∧
    (m.count a n).sweeps = m.sweeps ∧ (m.count a n).metaDn = m.metaDn ∧ (m.count a n).safe = m.safe ∧ (m.count a n).fatal = m.fatal ∧
    (m.count a n).rehome = m.rehome ∧ (m.count a n).rhq = m.rhq ∧ (m.count a n).ctrl = m.ctrl ∧ (m.count a n).rcr = m.rcr ∧
    (m.count a n).tmp = m.tmp ∧ (m.count a n).tmpq = m.tmpq ∧ (m.count a n).lk = m.lk ∧ (m.count a n).qcmd = m.qcmd ∧
    (m.count a n).qho = m.qho ∧ (m.count a n).invBusy = m.invBusy ∧ (m.count a n).domCmd = m.domCmd ∧ (m.count a n).domq = m.domq ∧
    (m.count a n).freqTo = m.freqTo ∧ (m.count a n).cur = m.cur ∧ (m.count a n).throttle = m.throttle ∧ (m.count a n).vmon = m.vmon ∧
    (m.count a n).tmon = m.tmon ∧ (m.count a n).step = m.step ∧ (m.count a n).halted = m.halted ∧ (m.count a n).mapped = m.mapped ∧
    (m.count a n).cpFails = m.cpFails ∧ (m.count a n).drain = m.drain ∧ (m.count a n).image = m.image ∧ (m.count a n).heldq = m.heldq ∧
    (m.count a n).lc = m.lc ∧ (m.count a n).dbgOpen = m.dbgOpen ∧ (m.count a n).recOff = m.recOff ∧ (m.count a n).mbist = m.mbist ∧
    (m.count a n).lbist = m.lbist ∧ (m.count a n).free = m.free ∧ (m.count a n).cslot = m.cslot ∧
    (∀ (h2 : Nat), (m.count a n).slice h2 = m.slice h2) ∧ (∀ (h2 : Nat) (t2 : Nat), (m.count a n).te h2 t2 = m.te h2 t2) ∧
    (m.count a n).active = m.active ∧ (∀ (h2 : Nat) (t2 : Nat), (m.count a n).htag h2 t2 = m.htag h2 t2) ∧
    (∀ (p2 : Nat), (m.count a n).port p2 = m.port p2) ∧ (∀ (p2 : Nat), (m.count a n).portDown p2 = m.portDown p2) ∧
    (∀ (g2 : Nat), (m.count a n).group g2 = m.group g2) ∧ (∀ (d2 : Nat), (m.count a n).dom d2 = m.dom d2) ∧
    (∀ (p2 : Nat), (m.count a n).populated p2 = m.populated p2) ∧ (∀ (p2 : Nat), (m.count a n).isCxl p2 = m.isCxl p2) ∧
    (∀ (x : Nat), (m.count a n).agPop x = m.agPop x) ∧ (∀ (x : Nat), (m.count a n).agFenced x = m.agFenced x) := by
  unfold Mach.count; simp

@[simp] theorem Mach.bump_frame (m : Mach) (h o n : Nat) :
    (m.bump h o n).integ = m.integ ∧ (m.bump h o n).up = m.up ∧ (m.bump h o n).slices = m.slices ∧ (m.bump h o n).ports = m.ports ∧
    (m.bump h o n).groups = m.groups ∧ (m.bump h o n).doms = m.doms ∧ (m.bump h o n).latch = m.latch ∧ (m.bump h o n).heldLo = m.heldLo ∧
    (m.bump h o n).resp = m.resp ∧ (m.bump h o n).caps = m.caps ∧ (m.bump h o n).capSeq = m.capSeq ∧ (m.bump h o n).lost = m.lost ∧
    (m.bump h o n).win = m.win ∧ (m.bump h o n).due = m.due ∧ (m.bump h o n).yard = m.yard ∧ (m.bump h o n).fagent = m.fagent ∧
    (m.bump h o n).sweeps = m.sweeps ∧ (m.bump h o n).metaDn = m.metaDn ∧ (m.bump h o n).safe = m.safe ∧ (m.bump h o n).fatal = m.fatal ∧
    (m.bump h o n).rehome = m.rehome ∧ (m.bump h o n).rhq = m.rhq ∧ (m.bump h o n).ctrl = m.ctrl ∧ (m.bump h o n).rcr = m.rcr ∧
    (m.bump h o n).tmp = m.tmp ∧ (m.bump h o n).tmpq = m.tmpq ∧ (m.bump h o n).lk = m.lk ∧ (m.bump h o n).qcmd = m.qcmd ∧
    (m.bump h o n).qho = m.qho ∧ (m.bump h o n).invBusy = m.invBusy ∧ (m.bump h o n).domCmd = m.domCmd ∧ (m.bump h o n).domq = m.domq ∧
    (m.bump h o n).freqTo = m.freqTo ∧ (m.bump h o n).cur = m.cur ∧ (m.bump h o n).throttle = m.throttle ∧ (m.bump h o n).vmon = m.vmon ∧
    (m.bump h o n).tmon = m.tmon ∧ (m.bump h o n).step = m.step ∧ (m.bump h o n).halted = m.halted ∧ (m.bump h o n).mapped = m.mapped ∧
    (m.bump h o n).cpFails = m.cpFails ∧ (m.bump h o n).drain = m.drain ∧ (m.bump h o n).image = m.image ∧
    (m.bump h o n).heldq = m.heldq ∧ (m.bump h o n).lc = m.lc ∧ (m.bump h o n).dbgOpen = m.dbgOpen ∧ (m.bump h o n).recOff = m.recOff ∧
    (m.bump h o n).mbist = m.mbist ∧ (m.bump h o n).lbist = m.lbist ∧ (m.bump h o n).free = m.free ∧ (m.bump h o n).cslot = m.cslot ∧
    (∀ (h2 : Nat), (m.bump h o n).slice h2 = m.slice h2) ∧ (∀ (h2 : Nat) (t2 : Nat), (m.bump h o n).te h2 t2 = m.te h2 t2) ∧
    (m.bump h o n).active = m.active ∧ (∀ (h2 : Nat) (t2 : Nat), (m.bump h o n).htag h2 t2 = m.htag h2 t2) ∧
    (∀ (p2 : Nat), (m.bump h o n).port p2 = m.port p2) ∧ (∀ (p2 : Nat), (m.bump h o n).portDown p2 = m.portDown p2) ∧
    (∀ (g2 : Nat), (m.bump h o n).group g2 = m.group g2) ∧ (∀ (d2 : Nat), (m.bump h o n).dom d2 = m.dom d2) ∧
    (∀ (p2 : Nat), (m.bump h o n).populated p2 = m.populated p2) ∧ (∀ (p2 : Nat), (m.bump h o n).isCxl p2 = m.isCxl p2) ∧
    (∀ (x : Nat), (m.bump h o n).agPop x = m.agPop x) ∧ (∀ (x : Nat), (m.bump h o n).agFenced x = m.agFenced x) := by
  unfold Mach.bump; split <;> simp

@[simp] theorem Mach.bump64_frame (m : Mach) (h o n : Nat) :
    (m.bump64 h o n).integ = m.integ ∧ (m.bump64 h o n).up = m.up ∧ (m.bump64 h o n).slices = m.slices ∧
    (m.bump64 h o n).ports = m.ports ∧ (m.bump64 h o n).groups = m.groups ∧ (m.bump64 h o n).doms = m.doms ∧
    (m.bump64 h o n).latch = m.latch ∧ (m.bump64 h o n).heldLo = m.heldLo ∧ (m.bump64 h o n).resp = m.resp ∧
    (m.bump64 h o n).caps = m.caps ∧ (m.bump64 h o n).capSeq = m.capSeq ∧ (m.bump64 h o n).lost = m.lost ∧ (m.bump64 h o n).win = m.win ∧
    (m.bump64 h o n).due = m.due ∧ (m.bump64 h o n).yard = m.yard ∧ (m.bump64 h o n).fagent = m.fagent ∧
    (m.bump64 h o n).sweeps = m.sweeps ∧ (m.bump64 h o n).metaDn = m.metaDn ∧ (m.bump64 h o n).safe = m.safe ∧
    (m.bump64 h o n).fatal = m.fatal ∧ (m.bump64 h o n).rehome = m.rehome ∧ (m.bump64 h o n).rhq = m.rhq ∧
    (m.bump64 h o n).ctrl = m.ctrl ∧ (m.bump64 h o n).rcr = m.rcr ∧ (m.bump64 h o n).tmp = m.tmp ∧ (m.bump64 h o n).tmpq = m.tmpq ∧
    (m.bump64 h o n).lk = m.lk ∧ (m.bump64 h o n).qcmd = m.qcmd ∧ (m.bump64 h o n).qho = m.qho ∧ (m.bump64 h o n).invBusy = m.invBusy ∧
    (m.bump64 h o n).domCmd = m.domCmd ∧ (m.bump64 h o n).domq = m.domq ∧ (m.bump64 h o n).freqTo = m.freqTo ∧
    (m.bump64 h o n).cur = m.cur ∧ (m.bump64 h o n).throttle = m.throttle ∧ (m.bump64 h o n).vmon = m.vmon ∧
    (m.bump64 h o n).tmon = m.tmon ∧ (m.bump64 h o n).step = m.step ∧ (m.bump64 h o n).halted = m.halted ∧
    (m.bump64 h o n).mapped = m.mapped ∧ (m.bump64 h o n).cpFails = m.cpFails ∧ (m.bump64 h o n).drain = m.drain ∧
    (m.bump64 h o n).image = m.image ∧ (m.bump64 h o n).heldq = m.heldq ∧ (m.bump64 h o n).lc = m.lc ∧
    (m.bump64 h o n).dbgOpen = m.dbgOpen ∧ (m.bump64 h o n).recOff = m.recOff ∧ (m.bump64 h o n).mbist = m.mbist ∧
    (m.bump64 h o n).lbist = m.lbist ∧ (m.bump64 h o n).free = m.free ∧ (m.bump64 h o n).cslot = m.cslot ∧
    (∀ (h2 : Nat), (m.bump64 h o n).slice h2 = m.slice h2) ∧ (∀ (h2 : Nat) (t2 : Nat), (m.bump64 h o n).te h2 t2 = m.te h2 t2) ∧
    (m.bump64 h o n).active = m.active ∧ (∀ (h2 : Nat) (t2 : Nat), (m.bump64 h o n).htag h2 t2 = m.htag h2 t2) ∧
    (∀ (p2 : Nat), (m.bump64 h o n).port p2 = m.port p2) ∧ (∀ (p2 : Nat), (m.bump64 h o n).portDown p2 = m.portDown p2) ∧
    (∀ (g2 : Nat), (m.bump64 h o n).group g2 = m.group g2) ∧ (∀ (d2 : Nat), (m.bump64 h o n).dom d2 = m.dom d2) ∧
    (∀ (p2 : Nat), (m.bump64 h o n).populated p2 = m.populated p2) ∧ (∀ (p2 : Nat), (m.bump64 h o n).isCxl p2 = m.isCxl p2) ∧
    (∀ (x : Nat), (m.bump64 h o n).agPop x = m.agPop x) ∧ (∀ (x : Nat), (m.bump64 h o n).agFenced x = m.agFenced x) := by
  unfold Mach.bump64; split <;> simp

@[simp] theorem Mach.bumpP_frame (m : Mach) (p o n : Nat) :
    (m.bumpP p o n).integ = m.integ ∧ (m.bumpP p o n).up = m.up ∧ (m.bumpP p o n).slices = m.slices ∧ (m.bumpP p o n).ports = m.ports ∧
    (m.bumpP p o n).groups = m.groups ∧ (m.bumpP p o n).doms = m.doms ∧ (m.bumpP p o n).latch = m.latch ∧
    (m.bumpP p o n).heldLo = m.heldLo ∧ (m.bumpP p o n).resp = m.resp ∧ (m.bumpP p o n).caps = m.caps ∧
    (m.bumpP p o n).capSeq = m.capSeq ∧ (m.bumpP p o n).lost = m.lost ∧ (m.bumpP p o n).win = m.win ∧ (m.bumpP p o n).due = m.due ∧
    (m.bumpP p o n).yard = m.yard ∧ (m.bumpP p o n).fagent = m.fagent ∧ (m.bumpP p o n).sweeps = m.sweeps ∧
    (m.bumpP p o n).metaDn = m.metaDn ∧ (m.bumpP p o n).safe = m.safe ∧ (m.bumpP p o n).fatal = m.fatal ∧
    (m.bumpP p o n).rehome = m.rehome ∧ (m.bumpP p o n).rhq = m.rhq ∧ (m.bumpP p o n).ctrl = m.ctrl ∧ (m.bumpP p o n).rcr = m.rcr ∧
    (m.bumpP p o n).tmp = m.tmp ∧ (m.bumpP p o n).tmpq = m.tmpq ∧ (m.bumpP p o n).lk = m.lk ∧ (m.bumpP p o n).qcmd = m.qcmd ∧
    (m.bumpP p o n).qho = m.qho ∧ (m.bumpP p o n).invBusy = m.invBusy ∧ (m.bumpP p o n).domCmd = m.domCmd ∧
    (m.bumpP p o n).domq = m.domq ∧ (m.bumpP p o n).freqTo = m.freqTo ∧ (m.bumpP p o n).cur = m.cur ∧
    (m.bumpP p o n).throttle = m.throttle ∧ (m.bumpP p o n).vmon = m.vmon ∧ (m.bumpP p o n).tmon = m.tmon ∧
    (m.bumpP p o n).step = m.step ∧ (m.bumpP p o n).halted = m.halted ∧ (m.bumpP p o n).mapped = m.mapped ∧
    (m.bumpP p o n).cpFails = m.cpFails ∧ (m.bumpP p o n).drain = m.drain ∧ (m.bumpP p o n).image = m.image ∧
    (m.bumpP p o n).heldq = m.heldq ∧ (m.bumpP p o n).lc = m.lc ∧ (m.bumpP p o n).dbgOpen = m.dbgOpen ∧
    (m.bumpP p o n).recOff = m.recOff ∧ (m.bumpP p o n).mbist = m.mbist ∧ (m.bumpP p o n).lbist = m.lbist ∧
    (m.bumpP p o n).free = m.free ∧ (m.bumpP p o n).cslot = m.cslot ∧ (∀ (h2 : Nat), (m.bumpP p o n).slice h2 = m.slice h2) ∧
    (∀ (h2 : Nat) (t2 : Nat), (m.bumpP p o n).te h2 t2 = m.te h2 t2) ∧ (m.bumpP p o n).active = m.active ∧
    (∀ (h2 : Nat) (t2 : Nat), (m.bumpP p o n).htag h2 t2 = m.htag h2 t2) ∧ (∀ (p2 : Nat), (m.bumpP p o n).port p2 = m.port p2) ∧
    (∀ (p2 : Nat), (m.bumpP p o n).portDown p2 = m.portDown p2) ∧ (∀ (g2 : Nat), (m.bumpP p o n).group g2 = m.group g2) ∧
    (∀ (d2 : Nat), (m.bumpP p o n).dom d2 = m.dom d2) ∧ (∀ (p2 : Nat), (m.bumpP p o n).populated p2 = m.populated p2) ∧
    (∀ (p2 : Nat), (m.bumpP p o n).isCxl p2 = m.isCxl p2) ∧ (∀ (x : Nat), (m.bumpP p o n).agPop x = m.agPop x) ∧
    (∀ (x : Nat), (m.bumpP p o n).agFenced x = m.agFenced x) := by
  unfold Mach.bumpP; split <;> simp

@[simp] theorem Mach.bumpP64_frame (m : Mach) (p o : Nat) :
    (m.bumpP64 p o).integ = m.integ ∧ (m.bumpP64 p o).up = m.up ∧ (m.bumpP64 p o).slices = m.slices ∧ (m.bumpP64 p o).ports = m.ports ∧
    (m.bumpP64 p o).groups = m.groups ∧ (m.bumpP64 p o).doms = m.doms ∧ (m.bumpP64 p o).latch = m.latch ∧
    (m.bumpP64 p o).heldLo = m.heldLo ∧ (m.bumpP64 p o).resp = m.resp ∧ (m.bumpP64 p o).caps = m.caps ∧
    (m.bumpP64 p o).capSeq = m.capSeq ∧ (m.bumpP64 p o).lost = m.lost ∧ (m.bumpP64 p o).win = m.win ∧ (m.bumpP64 p o).due = m.due ∧
    (m.bumpP64 p o).yard = m.yard ∧ (m.bumpP64 p o).fagent = m.fagent ∧ (m.bumpP64 p o).sweeps = m.sweeps ∧
    (m.bumpP64 p o).metaDn = m.metaDn ∧ (m.bumpP64 p o).safe = m.safe ∧ (m.bumpP64 p o).fatal = m.fatal ∧
    (m.bumpP64 p o).rehome = m.rehome ∧ (m.bumpP64 p o).rhq = m.rhq ∧ (m.bumpP64 p o).ctrl = m.ctrl ∧ (m.bumpP64 p o).rcr = m.rcr ∧
    (m.bumpP64 p o).tmp = m.tmp ∧ (m.bumpP64 p o).tmpq = m.tmpq ∧ (m.bumpP64 p o).lk = m.lk ∧ (m.bumpP64 p o).qcmd = m.qcmd ∧
    (m.bumpP64 p o).qho = m.qho ∧ (m.bumpP64 p o).invBusy = m.invBusy ∧ (m.bumpP64 p o).domCmd = m.domCmd ∧
    (m.bumpP64 p o).domq = m.domq ∧ (m.bumpP64 p o).freqTo = m.freqTo ∧ (m.bumpP64 p o).cur = m.cur ∧
    (m.bumpP64 p o).throttle = m.throttle ∧ (m.bumpP64 p o).vmon = m.vmon ∧ (m.bumpP64 p o).tmon = m.tmon ∧
    (m.bumpP64 p o).step = m.step ∧ (m.bumpP64 p o).halted = m.halted ∧ (m.bumpP64 p o).mapped = m.mapped ∧
    (m.bumpP64 p o).cpFails = m.cpFails ∧ (m.bumpP64 p o).drain = m.drain ∧ (m.bumpP64 p o).image = m.image ∧
    (m.bumpP64 p o).heldq = m.heldq ∧ (m.bumpP64 p o).lc = m.lc ∧ (m.bumpP64 p o).dbgOpen = m.dbgOpen ∧
    (m.bumpP64 p o).recOff = m.recOff ∧ (m.bumpP64 p o).mbist = m.mbist ∧ (m.bumpP64 p o).lbist = m.lbist ∧
    (m.bumpP64 p o).free = m.free ∧ (m.bumpP64 p o).cslot = m.cslot ∧ (∀ (h2 : Nat), (m.bumpP64 p o).slice h2 = m.slice h2) ∧
    (∀ (h2 : Nat) (t2 : Nat), (m.bumpP64 p o).te h2 t2 = m.te h2 t2) ∧ (m.bumpP64 p o).active = m.active ∧
    (∀ (h2 : Nat) (t2 : Nat), (m.bumpP64 p o).htag h2 t2 = m.htag h2 t2) ∧ (∀ (p2 : Nat), (m.bumpP64 p o).port p2 = m.port p2) ∧
    (∀ (p2 : Nat), (m.bumpP64 p o).portDown p2 = m.portDown p2) ∧ (∀ (g2 : Nat), (m.bumpP64 p o).group g2 = m.group g2) ∧
    (∀ (d2 : Nat), (m.bumpP64 p o).dom d2 = m.dom d2) ∧ (∀ (p2 : Nat), (m.bumpP64 p o).populated p2 = m.populated p2) ∧
    (∀ (p2 : Nat), (m.bumpP64 p o).isCxl p2 = m.isCxl p2) ∧ (∀ (x : Nat), (m.bumpP64 p o).agPop x = m.agPop x) ∧
    (∀ (x : Nat), (m.bumpP64 p o).agFenced x = m.agFenced x) := by
  unfold Mach.bumpP64; split <;> simp

@[simp] theorem Mach.err_frame (m : Mach) (h i : Nat) :
    (m.err h i).integ = m.integ ∧ (m.err h i).up = m.up ∧ (m.err h i).slices = m.slices ∧ (m.err h i).ports = m.ports ∧
    (m.err h i).groups = m.groups ∧ (m.err h i).doms = m.doms ∧ (m.err h i).latch = m.latch ∧ (m.err h i).heldLo = m.heldLo ∧
    (m.err h i).resp = m.resp ∧ (m.err h i).caps = m.caps ∧ (m.err h i).capSeq = m.capSeq ∧ (m.err h i).lost = m.lost ∧
    (m.err h i).win = m.win ∧ (m.err h i).due = m.due ∧ (m.err h i).yard = m.yard ∧ (m.err h i).fagent = m.fagent ∧
    (m.err h i).sweeps = m.sweeps ∧ (m.err h i).metaDn = m.metaDn ∧ (m.err h i).safe = m.safe ∧ (m.err h i).fatal = m.fatal ∧
    (m.err h i).rehome = m.rehome ∧ (m.err h i).rhq = m.rhq ∧ (m.err h i).ctrl = m.ctrl ∧ (m.err h i).rcr = m.rcr ∧
    (m.err h i).tmp = m.tmp ∧ (m.err h i).tmpq = m.tmpq ∧ (m.err h i).lk = m.lk ∧ (m.err h i).qcmd = m.qcmd ∧ (m.err h i).qho = m.qho ∧
    (m.err h i).invBusy = m.invBusy ∧ (m.err h i).domCmd = m.domCmd ∧ (m.err h i).domq = m.domq ∧ (m.err h i).freqTo = m.freqTo ∧
    (m.err h i).cur = m.cur ∧ (m.err h i).throttle = m.throttle ∧ (m.err h i).vmon = m.vmon ∧ (m.err h i).tmon = m.tmon ∧
    (m.err h i).step = m.step ∧ (m.err h i).halted = m.halted ∧ (m.err h i).mapped = m.mapped ∧ (m.err h i).cpFails = m.cpFails ∧
    (m.err h i).drain = m.drain ∧ (m.err h i).image = m.image ∧ (m.err h i).heldq = m.heldq ∧ (m.err h i).lc = m.lc ∧
    (m.err h i).dbgOpen = m.dbgOpen ∧ (m.err h i).recOff = m.recOff ∧ (m.err h i).mbist = m.mbist ∧ (m.err h i).lbist = m.lbist ∧
    (m.err h i).free = m.free ∧ (m.err h i).cslot = m.cslot ∧ (∀ (h2 : Nat), (m.err h i).slice h2 = m.slice h2) ∧
    (∀ (h2 : Nat) (t2 : Nat), (m.err h i).te h2 t2 = m.te h2 t2) ∧ (m.err h i).active = m.active ∧
    (∀ (h2 : Nat) (t2 : Nat), (m.err h i).htag h2 t2 = m.htag h2 t2) ∧ (∀ (p2 : Nat), (m.err h i).port p2 = m.port p2) ∧
    (∀ (p2 : Nat), (m.err h i).portDown p2 = m.portDown p2) ∧ (∀ (g2 : Nat), (m.err h i).group g2 = m.group g2) ∧
    (∀ (d2 : Nat), (m.err h i).dom d2 = m.dom d2) ∧ (∀ (p2 : Nat), (m.err h i).populated p2 = m.populated p2) ∧
    (∀ (p2 : Nat), (m.err h i).isCxl p2 = m.isCxl p2) ∧ (∀ (x : Nat), (m.err h i).agPop x = m.agPop x) ∧
    (∀ (x : Nat), (m.err h i).agFenced x = m.agFenced x) := by
  unfold Mach.err; simp

@[simp] theorem Mach.modP_frame (m : Mach) (p : Nat) (f : Port → Port) :
    (m.modP p f).integ = m.integ ∧ (m.modP p f).up = m.up ∧ (m.modP p f).regs = m.regs ∧ (m.modP p f).slices = m.slices ∧
    (m.modP p f).groups = m.groups ∧ (m.modP p f).doms = m.doms ∧ (m.modP p f).latch = m.latch ∧ (m.modP p f).heldLo = m.heldLo ∧
    (m.modP p f).resp = m.resp ∧ (m.modP p f).caps = m.caps ∧ (m.modP p f).capSeq = m.capSeq ∧ (m.modP p f).lost = m.lost ∧
    (m.modP p f).win = m.win ∧ (m.modP p f).due = m.due ∧ (m.modP p f).yard = m.yard ∧ (m.modP p f).fagent = m.fagent ∧
    (m.modP p f).sweeps = m.sweeps ∧ (m.modP p f).metaDn = m.metaDn ∧ (m.modP p f).safe = m.safe ∧ (m.modP p f).fatal = m.fatal ∧
    (m.modP p f).rehome = m.rehome ∧ (m.modP p f).rhq = m.rhq ∧ (m.modP p f).ctrl = m.ctrl ∧ (m.modP p f).rcr = m.rcr ∧
    (m.modP p f).tmp = m.tmp ∧ (m.modP p f).tmpq = m.tmpq ∧ (m.modP p f).lk = m.lk ∧ (m.modP p f).qcmd = m.qcmd ∧
    (m.modP p f).qho = m.qho ∧ (m.modP p f).invBusy = m.invBusy ∧ (m.modP p f).domCmd = m.domCmd ∧ (m.modP p f).domq = m.domq ∧
    (m.modP p f).freqTo = m.freqTo ∧ (m.modP p f).cur = m.cur ∧ (m.modP p f).throttle = m.throttle ∧ (m.modP p f).vmon = m.vmon ∧
    (m.modP p f).tmon = m.tmon ∧ (m.modP p f).step = m.step ∧ (m.modP p f).halted = m.halted ∧ (m.modP p f).mapped = m.mapped ∧
    (m.modP p f).cpFails = m.cpFails ∧ (m.modP p f).drain = m.drain ∧ (m.modP p f).image = m.image ∧ (m.modP p f).heldq = m.heldq ∧
    (m.modP p f).lc = m.lc ∧ (m.modP p f).dbgOpen = m.dbgOpen ∧ (m.modP p f).recOff = m.recOff ∧ (m.modP p f).mbist = m.mbist ∧
    (m.modP p f).lbist = m.lbist ∧ (m.modP p f).free = m.free ∧ (m.modP p f).cslot = m.cslot ∧
    (∀ (h2 : Nat), (m.modP p f).slice h2 = m.slice h2) ∧ (∀ (h2 : Nat) (t2 : Nat), (m.modP p f).te h2 t2 = m.te h2 t2) ∧
    (m.modP p f).active = m.active ∧ (∀ (h2 : Nat) (t2 : Nat), (m.modP p f).htag h2 t2 = m.htag h2 t2) ∧
    (∀ (g2 : Nat), (m.modP p f).group g2 = m.group g2) ∧ (∀ (d2 : Nat), (m.modP p f).dom d2 = m.dom d2) ∧
    (∀ (b2 : Nat), (m.modP p f).reg b2 = m.reg b2) ∧ (∀ (b2 : Nat) (i2 : Nat), (m.modP p f).bit b2 i2 = m.bit b2 i2) ∧
    (∀ (b2 : Nat) (lo2 : Nat) (w2 : Nat), (m.modP p f).fld b2 lo2 w2 = m.fld b2 lo2 w2) ∧
    (∀ (b2 : Nat) (c2 : Nat), (m.modP p f).pair b2 c2 = m.pair b2 c2) ∧ (∀ (l : Nat), (m.modP p f).hsOf l = m.hsOf l) ∧
    (∀ (o2 : Off), (m.modP p f).paOf o2 = m.paOf o2) ∧ (∀ (x : Nat), (m.modP p f).homed x = m.homed x) ∧ (m.modP p f).hvalid = m.hvalid ∧
    (m.modP p f).hbase = m.hbase ∧ (m.modP p f).hlog2 = m.hlog2 ∧ (m.modP p f).lcState = m.lcState ∧
    (∀ (x : Nat), (m.modP p f).seedPort x = m.seedPort x) ∧ (m.modP p f).spillPort = m.spillPort ∧ (m.modP p f).descPort = m.descPort ∧
    (∀ (q : BitVec 20), (m.modP p f).descPa q = m.descPa q) ∧ (∀ (p2 : Nat), (m.modP p f).populated p2 = m.populated p2) ∧
    (∀ (p2 : Nat), (m.modP p f).isCxl p2 = m.isCxl p2) ∧ (∀ (x : Nat), (m.modP p f).agPop x = m.agPop x) ∧
    (∀ (x : Nat), (m.modP p f).agFenced x = m.agFenced x) := by
  unfold Mach.modP; simp

@[simp] theorem Mach.credit_frame (m : Mach) (p c : Nat) :
    (m.credit p c).integ = m.integ ∧ (m.credit p c).up = m.up ∧ (m.credit p c).regs = m.regs ∧ (m.credit p c).slices = m.slices ∧
    (m.credit p c).groups = m.groups ∧ (m.credit p c).doms = m.doms ∧ (m.credit p c).latch = m.latch ∧ (m.credit p c).heldLo = m.heldLo ∧
    (m.credit p c).resp = m.resp ∧ (m.credit p c).caps = m.caps ∧ (m.credit p c).capSeq = m.capSeq ∧ (m.credit p c).lost = m.lost ∧
    (m.credit p c).win = m.win ∧ (m.credit p c).due = m.due ∧ (m.credit p c).yard = m.yard ∧ (m.credit p c).fagent = m.fagent ∧
    (m.credit p c).sweeps = m.sweeps ∧ (m.credit p c).metaDn = m.metaDn ∧ (m.credit p c).safe = m.safe ∧ (m.credit p c).fatal = m.fatal ∧
    (m.credit p c).rehome = m.rehome ∧ (m.credit p c).rhq = m.rhq ∧ (m.credit p c).ctrl = m.ctrl ∧ (m.credit p c).rcr = m.rcr ∧
    (m.credit p c).tmp = m.tmp ∧ (m.credit p c).tmpq = m.tmpq ∧ (m.credit p c).lk = m.lk ∧ (m.credit p c).qcmd = m.qcmd ∧
    (m.credit p c).qho = m.qho ∧ (m.credit p c).invBusy = m.invBusy ∧ (m.credit p c).domCmd = m.domCmd ∧ (m.credit p c).domq = m.domq ∧
    (m.credit p c).freqTo = m.freqTo ∧ (m.credit p c).cur = m.cur ∧ (m.credit p c).throttle = m.throttle ∧ (m.credit p c).vmon = m.vmon ∧
    (m.credit p c).tmon = m.tmon ∧ (m.credit p c).step = m.step ∧ (m.credit p c).halted = m.halted ∧ (m.credit p c).mapped = m.mapped ∧
    (m.credit p c).cpFails = m.cpFails ∧ (m.credit p c).drain = m.drain ∧ (m.credit p c).image = m.image ∧
    (m.credit p c).heldq = m.heldq ∧ (m.credit p c).lc = m.lc ∧ (m.credit p c).dbgOpen = m.dbgOpen ∧ (m.credit p c).recOff = m.recOff ∧
    (m.credit p c).mbist = m.mbist ∧ (m.credit p c).lbist = m.lbist ∧ (m.credit p c).free = m.free ∧ (m.credit p c).cslot = m.cslot ∧
    (∀ (h2 : Nat), (m.credit p c).slice h2 = m.slice h2) ∧ (∀ (h2 : Nat) (t2 : Nat), (m.credit p c).te h2 t2 = m.te h2 t2) ∧
    (m.credit p c).active = m.active ∧ (∀ (h2 : Nat) (t2 : Nat), (m.credit p c).htag h2 t2 = m.htag h2 t2) ∧
    (∀ (g2 : Nat), (m.credit p c).group g2 = m.group g2) ∧ (∀ (d2 : Nat), (m.credit p c).dom d2 = m.dom d2) ∧
    (∀ (b2 : Nat), (m.credit p c).reg b2 = m.reg b2) ∧ (∀ (b2 : Nat) (i2 : Nat), (m.credit p c).bit b2 i2 = m.bit b2 i2) ∧
    (∀ (b2 : Nat) (lo2 : Nat) (w2 : Nat), (m.credit p c).fld b2 lo2 w2 = m.fld b2 lo2 w2) ∧
    (∀ (b2 : Nat) (c2 : Nat), (m.credit p c).pair b2 c2 = m.pair b2 c2) ∧ (∀ (l : Nat), (m.credit p c).hsOf l = m.hsOf l) ∧
    (∀ (o2 : Off), (m.credit p c).paOf o2 = m.paOf o2) ∧ (∀ (x : Nat), (m.credit p c).homed x = m.homed x) ∧
    (m.credit p c).hvalid = m.hvalid ∧ (m.credit p c).hbase = m.hbase ∧ (m.credit p c).hlog2 = m.hlog2 ∧
    (m.credit p c).lcState = m.lcState ∧ (∀ (x : Nat), (m.credit p c).seedPort x = m.seedPort x) ∧
    (m.credit p c).spillPort = m.spillPort ∧ (m.credit p c).descPort = m.descPort ∧
    (∀ (q : BitVec 20), (m.credit p c).descPa q = m.descPa q) ∧ (∀ (p2 : Nat), (m.credit p c).populated p2 = m.populated p2) ∧
    (∀ (p2 : Nat), (m.credit p c).isCxl p2 = m.isCxl p2) ∧ (∀ (x : Nat), (m.credit p c).agPop x = m.agPop x) ∧
    (∀ (x : Nat), (m.credit p c).agFenced x = m.agFenced x) := by
  unfold Mach.credit; simp

@[simp] theorem Mach.modS_frame (m : Mach) (h : Nat) (f : Slice → Slice) :
    (m.modS h f).integ = m.integ ∧ (m.modS h f).up = m.up ∧ (m.modS h f).regs = m.regs ∧ (m.modS h f).ports = m.ports ∧
    (m.modS h f).groups = m.groups ∧ (m.modS h f).doms = m.doms ∧ (m.modS h f).latch = m.latch ∧ (m.modS h f).heldLo = m.heldLo ∧
    (m.modS h f).resp = m.resp ∧ (m.modS h f).caps = m.caps ∧ (m.modS h f).capSeq = m.capSeq ∧ (m.modS h f).lost = m.lost ∧
    (m.modS h f).win = m.win ∧ (m.modS h f).due = m.due ∧ (m.modS h f).yard = m.yard ∧ (m.modS h f).fagent = m.fagent ∧
    (m.modS h f).sweeps = m.sweeps ∧ (m.modS h f).metaDn = m.metaDn ∧ (m.modS h f).safe = m.safe ∧ (m.modS h f).fatal = m.fatal ∧
    (m.modS h f).rehome = m.rehome ∧ (m.modS h f).rhq = m.rhq ∧ (m.modS h f).ctrl = m.ctrl ∧ (m.modS h f).rcr = m.rcr ∧
    (m.modS h f).tmp = m.tmp ∧ (m.modS h f).tmpq = m.tmpq ∧ (m.modS h f).lk = m.lk ∧ (m.modS h f).qcmd = m.qcmd ∧
    (m.modS h f).qho = m.qho ∧ (m.modS h f).invBusy = m.invBusy ∧ (m.modS h f).domCmd = m.domCmd ∧ (m.modS h f).domq = m.domq ∧
    (m.modS h f).freqTo = m.freqTo ∧ (m.modS h f).cur = m.cur ∧ (m.modS h f).throttle = m.throttle ∧ (m.modS h f).vmon = m.vmon ∧
    (m.modS h f).tmon = m.tmon ∧ (m.modS h f).step = m.step ∧ (m.modS h f).halted = m.halted ∧ (m.modS h f).mapped = m.mapped ∧
    (m.modS h f).cpFails = m.cpFails ∧ (m.modS h f).drain = m.drain ∧ (m.modS h f).image = m.image ∧ (m.modS h f).heldq = m.heldq ∧
    (m.modS h f).lc = m.lc ∧ (m.modS h f).dbgOpen = m.dbgOpen ∧ (m.modS h f).recOff = m.recOff ∧ (m.modS h f).mbist = m.mbist ∧
    (m.modS h f).lbist = m.lbist ∧ (m.modS h f).free = m.free ∧ (m.modS h f).cslot = m.cslot ∧
    (∀ (p2 : Nat), (m.modS h f).port p2 = m.port p2) ∧ (∀ (p2 : Nat), (m.modS h f).portDown p2 = m.portDown p2) ∧
    (∀ (g2 : Nat), (m.modS h f).group g2 = m.group g2) ∧ (∀ (d2 : Nat), (m.modS h f).dom d2 = m.dom d2) ∧
    (∀ (b2 : Nat), (m.modS h f).reg b2 = m.reg b2) ∧ (∀ (b2 : Nat) (i2 : Nat), (m.modS h f).bit b2 i2 = m.bit b2 i2) ∧
    (∀ (b2 : Nat) (lo2 : Nat) (w2 : Nat), (m.modS h f).fld b2 lo2 w2 = m.fld b2 lo2 w2) ∧
    (∀ (b2 : Nat) (c2 : Nat), (m.modS h f).pair b2 c2 = m.pair b2 c2) ∧ (∀ (l : Nat), (m.modS h f).hsOf l = m.hsOf l) ∧
    (∀ (o2 : Off), (m.modS h f).paOf o2 = m.paOf o2) ∧ (∀ (x : Nat), (m.modS h f).homed x = m.homed x) ∧ (m.modS h f).hvalid = m.hvalid ∧
    (m.modS h f).hbase = m.hbase ∧ (m.modS h f).hlog2 = m.hlog2 ∧ (m.modS h f).lcState = m.lcState ∧
    (∀ (x : Nat), (m.modS h f).seedPort x = m.seedPort x) ∧ (m.modS h f).spillPort = m.spillPort ∧ (m.modS h f).descPort = m.descPort ∧
    (∀ (q : BitVec 20), (m.modS h f).descPa q = m.descPa q) ∧ (∀ (p2 : Nat), (m.modS h f).populated p2 = m.populated p2) ∧
    (∀ (p2 : Nat), (m.modS h f).isCxl p2 = m.isCxl p2) ∧ (∀ (x : Nat), (m.modS h f).agPop x = m.agPop x) ∧
    (∀ (x : Nat), (m.modS h f).agFenced x = m.agFenced x) := by
  unfold Mach.modS; simp

@[simp] theorem Mach.setTe_frame (m : Mach) (h t : Nat) (e : TE) :
    (m.setTe h t e).integ = m.integ ∧ (m.setTe h t e).up = m.up ∧ (m.setTe h t e).regs = m.regs ∧ (m.setTe h t e).ports = m.ports ∧
    (m.setTe h t e).groups = m.groups ∧ (m.setTe h t e).doms = m.doms ∧ (m.setTe h t e).latch = m.latch ∧
    (m.setTe h t e).heldLo = m.heldLo ∧ (m.setTe h t e).resp = m.resp ∧ (m.setTe h t e).caps = m.caps ∧
    (m.setTe h t e).capSeq = m.capSeq ∧ (m.setTe h t e).lost = m.lost ∧ (m.setTe h t e).win = m.win ∧ (m.setTe h t e).due = m.due ∧
    (m.setTe h t e).yard = m.yard ∧ (m.setTe h t e).fagent = m.fagent ∧ (m.setTe h t e).sweeps = m.sweeps ∧
    (m.setTe h t e).metaDn = m.metaDn ∧ (m.setTe h t e).safe = m.safe ∧ (m.setTe h t e).fatal = m.fatal ∧
    (m.setTe h t e).rehome = m.rehome ∧ (m.setTe h t e).rhq = m.rhq ∧ (m.setTe h t e).ctrl = m.ctrl ∧ (m.setTe h t e).rcr = m.rcr ∧
    (m.setTe h t e).tmp = m.tmp ∧ (m.setTe h t e).tmpq = m.tmpq ∧ (m.setTe h t e).lk = m.lk ∧ (m.setTe h t e).qcmd = m.qcmd ∧
    (m.setTe h t e).qho = m.qho ∧ (m.setTe h t e).invBusy = m.invBusy ∧ (m.setTe h t e).domCmd = m.domCmd ∧
    (m.setTe h t e).domq = m.domq ∧ (m.setTe h t e).freqTo = m.freqTo ∧ (m.setTe h t e).cur = m.cur ∧
    (m.setTe h t e).throttle = m.throttle ∧ (m.setTe h t e).vmon = m.vmon ∧ (m.setTe h t e).tmon = m.tmon ∧
    (m.setTe h t e).step = m.step ∧ (m.setTe h t e).halted = m.halted ∧ (m.setTe h t e).mapped = m.mapped ∧
    (m.setTe h t e).cpFails = m.cpFails ∧ (m.setTe h t e).drain = m.drain ∧ (m.setTe h t e).image = m.image ∧
    (m.setTe h t e).heldq = m.heldq ∧ (m.setTe h t e).lc = m.lc ∧ (m.setTe h t e).dbgOpen = m.dbgOpen ∧
    (m.setTe h t e).recOff = m.recOff ∧ (m.setTe h t e).mbist = m.mbist ∧ (m.setTe h t e).lbist = m.lbist ∧
    (m.setTe h t e).free = m.free ∧ (m.setTe h t e).cslot = m.cslot ∧ (∀ (p2 : Nat), (m.setTe h t e).port p2 = m.port p2) ∧
    (∀ (p2 : Nat), (m.setTe h t e).portDown p2 = m.portDown p2) ∧ (∀ (g2 : Nat), (m.setTe h t e).group g2 = m.group g2) ∧
    (∀ (d2 : Nat), (m.setTe h t e).dom d2 = m.dom d2) ∧ (∀ (b2 : Nat), (m.setTe h t e).reg b2 = m.reg b2) ∧
    (∀ (b2 : Nat) (i2 : Nat), (m.setTe h t e).bit b2 i2 = m.bit b2 i2) ∧
    (∀ (b2 : Nat) (lo2 : Nat) (w2 : Nat), (m.setTe h t e).fld b2 lo2 w2 = m.fld b2 lo2 w2) ∧
    (∀ (b2 : Nat) (c2 : Nat), (m.setTe h t e).pair b2 c2 = m.pair b2 c2) ∧ (∀ (l : Nat), (m.setTe h t e).hsOf l = m.hsOf l) ∧
    (∀ (o2 : Off), (m.setTe h t e).paOf o2 = m.paOf o2) ∧ (∀ (x : Nat), (m.setTe h t e).homed x = m.homed x) ∧
    (m.setTe h t e).hvalid = m.hvalid ∧ (m.setTe h t e).hbase = m.hbase ∧ (m.setTe h t e).hlog2 = m.hlog2 ∧
    (m.setTe h t e).lcState = m.lcState ∧ (∀ (x : Nat), (m.setTe h t e).seedPort x = m.seedPort x) ∧
    (m.setTe h t e).spillPort = m.spillPort ∧ (m.setTe h t e).descPort = m.descPort ∧
    (∀ (q : BitVec 20), (m.setTe h t e).descPa q = m.descPa q) ∧ (∀ (p2 : Nat), (m.setTe h t e).populated p2 = m.populated p2) ∧
    (∀ (p2 : Nat), (m.setTe h t e).isCxl p2 = m.isCxl p2) ∧ (∀ (x : Nat), (m.setTe h t e).agPop x = m.agPop x) ∧
    (∀ (x : Nat), (m.setTe h t e).agFenced x = m.agFenced x) := by
  unfold Mach.setTe; simp

@[simp] theorem Mach.modTe_frame (m : Mach) (h t : Nat) (f : TE → TE) :
    (m.modTe h t f).integ = m.integ ∧ (m.modTe h t f).up = m.up ∧ (m.modTe h t f).regs = m.regs ∧ (m.modTe h t f).ports = m.ports ∧
    (m.modTe h t f).groups = m.groups ∧ (m.modTe h t f).doms = m.doms ∧ (m.modTe h t f).latch = m.latch ∧
    (m.modTe h t f).heldLo = m.heldLo ∧ (m.modTe h t f).resp = m.resp ∧ (m.modTe h t f).caps = m.caps ∧
    (m.modTe h t f).capSeq = m.capSeq ∧ (m.modTe h t f).lost = m.lost ∧ (m.modTe h t f).win = m.win ∧ (m.modTe h t f).due = m.due ∧
    (m.modTe h t f).yard = m.yard ∧ (m.modTe h t f).fagent = m.fagent ∧ (m.modTe h t f).sweeps = m.sweeps ∧
    (m.modTe h t f).metaDn = m.metaDn ∧ (m.modTe h t f).safe = m.safe ∧ (m.modTe h t f).fatal = m.fatal ∧
    (m.modTe h t f).rehome = m.rehome ∧ (m.modTe h t f).rhq = m.rhq ∧ (m.modTe h t f).ctrl = m.ctrl ∧ (m.modTe h t f).rcr = m.rcr ∧
    (m.modTe h t f).tmp = m.tmp ∧ (m.modTe h t f).tmpq = m.tmpq ∧ (m.modTe h t f).lk = m.lk ∧ (m.modTe h t f).qcmd = m.qcmd ∧
    (m.modTe h t f).qho = m.qho ∧ (m.modTe h t f).invBusy = m.invBusy ∧ (m.modTe h t f).domCmd = m.domCmd ∧
    (m.modTe h t f).domq = m.domq ∧ (m.modTe h t f).freqTo = m.freqTo ∧ (m.modTe h t f).cur = m.cur ∧
    (m.modTe h t f).throttle = m.throttle ∧ (m.modTe h t f).vmon = m.vmon ∧ (m.modTe h t f).tmon = m.tmon ∧
    (m.modTe h t f).step = m.step ∧ (m.modTe h t f).halted = m.halted ∧ (m.modTe h t f).mapped = m.mapped ∧
    (m.modTe h t f).cpFails = m.cpFails ∧ (m.modTe h t f).drain = m.drain ∧ (m.modTe h t f).image = m.image ∧
    (m.modTe h t f).heldq = m.heldq ∧ (m.modTe h t f).lc = m.lc ∧ (m.modTe h t f).dbgOpen = m.dbgOpen ∧
    (m.modTe h t f).recOff = m.recOff ∧ (m.modTe h t f).mbist = m.mbist ∧ (m.modTe h t f).lbist = m.lbist ∧
    (m.modTe h t f).free = m.free ∧ (m.modTe h t f).cslot = m.cslot ∧ (∀ (p2 : Nat), (m.modTe h t f).port p2 = m.port p2) ∧
    (∀ (p2 : Nat), (m.modTe h t f).portDown p2 = m.portDown p2) ∧ (∀ (g2 : Nat), (m.modTe h t f).group g2 = m.group g2) ∧
    (∀ (d2 : Nat), (m.modTe h t f).dom d2 = m.dom d2) ∧ (∀ (b2 : Nat), (m.modTe h t f).reg b2 = m.reg b2) ∧
    (∀ (b2 : Nat) (i2 : Nat), (m.modTe h t f).bit b2 i2 = m.bit b2 i2) ∧
    (∀ (b2 : Nat) (lo2 : Nat) (w2 : Nat), (m.modTe h t f).fld b2 lo2 w2 = m.fld b2 lo2 w2) ∧
    (∀ (b2 : Nat) (c2 : Nat), (m.modTe h t f).pair b2 c2 = m.pair b2 c2) ∧ (∀ (l : Nat), (m.modTe h t f).hsOf l = m.hsOf l) ∧
    (∀ (o2 : Off), (m.modTe h t f).paOf o2 = m.paOf o2) ∧ (∀ (x : Nat), (m.modTe h t f).homed x = m.homed x) ∧
    (m.modTe h t f).hvalid = m.hvalid ∧ (m.modTe h t f).hbase = m.hbase ∧ (m.modTe h t f).hlog2 = m.hlog2 ∧
    (m.modTe h t f).lcState = m.lcState ∧ (∀ (x : Nat), (m.modTe h t f).seedPort x = m.seedPort x) ∧
    (m.modTe h t f).spillPort = m.spillPort ∧ (m.modTe h t f).descPort = m.descPort ∧
    (∀ (q : BitVec 20), (m.modTe h t f).descPa q = m.descPa q) ∧ (∀ (p2 : Nat), (m.modTe h t f).populated p2 = m.populated p2) ∧
    (∀ (p2 : Nat), (m.modTe h t f).isCxl p2 = m.isCxl p2) ∧ (∀ (x : Nat), (m.modTe h t f).agPop x = m.agPop x) ∧
    (∀ (x : Nat), (m.modTe h t f).agFenced x = m.agFenced x) := by
  unfold Mach.modTe; simp

end Sys2Proof.Machine
end

