-- ==== Sys2Proof/Laws/Recording.lean ====
section
/-! SUPPORT. Recording and capturing: what they may write, and that they leave the rest of the machine as it was. -/

namespace Sys2Proof.Machine

set_option Elab.async false

/-- The machine with everything blanked that recording and capturing may write. -/
def Mach.unrecorded (m : Mach) : Mach :=
  { m with regs := [], caps := [], capSeq := 0, lost := [], win := [], due := [], rcr := {}, recOff := false, free := 0 }

theorem foldl_unrecorded {α : Type} (f : Mach → α → Mach) (h : ∀ m a, (f m a).unrecorded = m.unrecorded) (l : List α) (m : Mach) :
    (l.foldl f m).unrecorded = m.unrecorded := by
  induction l generalizing m with
  | nil => rfl
  | cons a l ih => rw [List.foldl_cons, ih, h]

@[simp] theorem Mach.setReg_unrecorded (m : Mach) (a : Nat) (v : W32) : (m.setReg a v).unrecorded = m.unrecorded := rfl
@[simp] theorem Mach.setFld_unrecorded (m : Mach) (a lo w n : Nat) : (m.setFld a lo w n).unrecorded = m.unrecorded := rfl
@[simp] theorem Mach.setBits_unrecorded (m : Mach) (a : Nat) (b : W32) : (m.setBits a b).unrecorded = m.unrecorded := rfl
@[simp] theorem Mach.count_unrecorded (m : Mach) (a n : Nat) : (m.count a n).unrecorded = m.unrecorded := rfl
@[simp] theorem Mach.missed_unrecorded (m : Mach) (b : Bool) : (m.missed b).unrecorded = m.unrecorded := rfl
@[simp] theorem Mach.startFlush_unrecorded (m : Mach) : m.startFlush.unrecorded = m.unrecorded := rfl
@[simp] theorem Mach.rcr_unrecorded (m : Mach) (r : RecSt) : ({ m with rcr := r } : Mach).unrecorded = m.unrecorded := rfl
@[simp] theorem Mach.bumpP_unrecorded (m : Mach) (p o n : Nat) : (m.bumpP p o n).unrecorded = m.unrecorded := by
  unfold Mach.bumpP; split <;> rfl

/-- Placing a record writes the recorder's state and registers only. -/
@[simp] theorem Mach.place_unrecorded (m : Mach) (t : BitVec 8) (a b : Bool) (p : List (BitVec 8)) (o : BitVec 4) :
    (m.place t a b p o).unrecorded = m.unrecorded := by
  unfold Mach.place
  dsimp only
  split
  · rfl
  · split
    · split <;> rfl
    · split
      · rfl
      · split
        · rw [Mach.startFlush_unrecorded, Mach.rcr_unrecorded]
          exact foldl_unrecorded (fun m _ => m.missed true) (fun _ _ => rfl) _ _
        · rfl

@[simp] theorem Mach.recordV_unrecorded (m : Mach) (t : Nat) (a : Bool) (p : List (BitVec 8)) (o : BitVec 4) (f : Bool) :
    (m.recordV t a p o f).unrecorded = m.unrecorded := by
  unfold Mach.recordV; split <;> simp

@[simp] theorem Mach.powerRec_unrecorded (m : Mach) (d o n c : Nat) (s f : Bool) : (m.powerRec d o n c s f).unrecorded = m.unrecorded :=
  Mach.recordV_unrecorded ..

@[simp] theorem Mach.trigSets_unrecorded (m : Mach) (b : Nat) (k : BitVec 8) : (m.trigSets b k).unrecorded = m.unrecorded := by
  apply foldl_unrecorded
  intro m a
  dsimp only
  split
  · rfl
  · split
    · rfl
    · split <;> rfl

@[simp] theorem Mach.trigger_unrecorded (m : Mach) (b : Nat) (s : Bool) : (m.trigger b s).unrecorded = m.unrecorded :=
  Mach.trigSets_unrecorded ..

/-- Capturing writes the fault collector, the recorder and registers only. -/
@[simp] theorem Mach.capture_unrecorded (m : Mach) (e : Ev) : (m.capture e).unrecorded = m.unrecorded := by
  unfold Mach.capture
  extract_lets n esc m1 cls r m2 x m3 sec m4 m5 m6 m7
  have h1 : m1.unrecorded = m.unrecorded := by
    unfold m1; split
    · rfl
    · split <;> rfl
  have h3 : m3.unrecorded = m.unrecorded := by
    refine Eq.trans ?_ h1
    show (ite _ _ _ : Mach).unrecorded = _
    split <;> rfl
  have h4 : m4.unrecorded = m.unrecorded := by
    refine Eq.trans ?_ h3
    show (ite _ _ _ : Mach).unrecorded = _
    split
    · rfl
    · exact Mach.place_unrecorded ..
  have h5 : m5.unrecorded = m.unrecorded := (Mach.trigger_unrecorded ..).trans h4
  have h6 : m6.unrecorded = m.unrecorded := by
    refine Eq.trans ?_ h5
    show (ite _ _ _ : Mach).unrecorded = _
    split <;> rfl
  have h7 : m7.unrecorded = m.unrecorded := by
    refine Eq.trans ?_ h6
    show (ite _ _ _ : Mach).unrecorded = _
    split <;> rfl
  refine Eq.trans ?_ h7
  show (ite _ _ _ : Mach).unrecorded = _
  split <;> rfl

@[simp] theorem Mach.protErr_unrecorded (m : Mach) (p : Nat) (a : BitVec 5) (r : BitVec 9) (t : Tid) (pa : BitVec 52) (o : BitVec 5)
    (c : BitVec 3) (u : BitVec 2) : (m.protErr p a r t pa o c u).unrecorded = m.unrecorded := by unfold Mach.protErr; simp

@[simp] theorem Mach.protErrM_unrecorded (m : Mach) (p : Nat) (pa : BitVec 52) (c : BitVec 3) :
    (m.protErrM p pa c).unrecorded = m.unrecorded := by unfold Mach.protErrM; simp

/-- What a machine shares with another that differs in what recording writes alone. -/
theorem Mach.same_of_unrecorded {m m' : Mach} (h : m'.unrecorded = m.unrecorded) :
    m'.integ = m.integ ∧ m'.up = m.up ∧ m'.slices = m.slices ∧ m'.ports = m.ports ∧ m'.groups = m.groups ∧ m'.doms = m.doms ∧
    m'.latch = m.latch ∧ m'.heldLo = m.heldLo ∧ m'.resp = m.resp ∧ m'.yard = m.yard ∧ m'.fagent = m.fagent ∧ m'.sweeps = m.sweeps ∧
    m'.metaDn = m.metaDn ∧ m'.safe = m.safe ∧ m'.fatal = m.fatal ∧ m'.rehome = m.rehome ∧ m'.rhq = m.rhq ∧ m'.ctrl = m.ctrl ∧
    m'.tmp = m.tmp ∧ m'.tmpq = m.tmpq ∧ m'.lk = m.lk ∧ m'.qcmd = m.qcmd ∧ m'.qho = m.qho ∧ m'.invBusy = m.invBusy ∧
    m'.domCmd = m.domCmd ∧ m'.domq = m.domq ∧ m'.freqTo = m.freqTo ∧ m'.cur = m.cur ∧ m'.throttle = m.throttle ∧ m'.vmon = m.vmon ∧
    m'.tmon = m.tmon ∧ m'.step = m.step ∧ m'.halted = m.halted ∧ m'.mapped = m.mapped ∧ m'.cpFails = m.cpFails ∧ m'.drain = m.drain ∧
    m'.image = m.image ∧ m'.heldq = m.heldq ∧ m'.lc = m.lc ∧ m'.dbgOpen = m.dbgOpen ∧ m'.mbist = m.mbist ∧ m'.lbist = m.lbist ∧
    m'.cslot = m.cslot ∧ (∀ (h2 : Nat), m'.slice h2 = m.slice h2) ∧ (∀ (h2 : Nat) (t2 : Nat), m'.te h2 t2 = m.te h2 t2) ∧
    m'.active = m.active ∧ (∀ (h2 : Nat) (t2 : Nat), m'.htag h2 t2 = m.htag h2 t2) ∧ (∀ (p2 : Nat), m'.port p2 = m.port p2) ∧
    (∀ (p2 : Nat), m'.portDown p2 = m.portDown p2) ∧ (∀ (g2 : Nat), m'.group g2 = m.group g2) ∧ (∀ (d2 : Nat), m'.dom d2 = m.dom d2) ∧
    (∀ (p2 : Nat), m'.populated p2 = m.populated p2) ∧ (∀ (p2 : Nat), m'.isCxl p2 = m.isCxl p2) ∧ (∀ (x : Nat), m'.agPop x = m.agPop x) ∧
    (∀ (x : Nat), m'.agFenced x = m.agFenced x) :=
  ⟨(congrArg Mach.integ h :), (congrArg Mach.up h :), (congrArg Mach.slices h :), (congrArg Mach.ports h :), (congrArg Mach.groups h :),
    (congrArg Mach.doms h :), (congrArg Mach.latch h :), (congrArg Mach.heldLo h :), (congrArg Mach.resp h :), (congrArg Mach.yard h :),
    (congrArg Mach.fagent h :), (congrArg Mach.sweeps h :), (congrArg Mach.metaDn h :), (congrArg Mach.safe h :),
    (congrArg Mach.fatal h :), (congrArg Mach.rehome h :), (congrArg Mach.rhq h :), (congrArg Mach.ctrl h :), (congrArg Mach.tmp h :),
    (congrArg Mach.tmpq h :), (congrArg Mach.lk h :), (congrArg Mach.qcmd h :), (congrArg Mach.qho h :), (congrArg Mach.invBusy h :),
    (congrArg Mach.domCmd h :), (congrArg Mach.domq h :), (congrArg Mach.freqTo h :), (congrArg Mach.cur h :),
    (congrArg Mach.throttle h :), (congrArg Mach.vmon h :), (congrArg Mach.tmon h :), (congrArg Mach.step h :),
    (congrArg Mach.halted h :), (congrArg Mach.mapped h :), (congrArg Mach.cpFails h :), (congrArg Mach.drain h :),
    (congrArg Mach.image h :), (congrArg Mach.heldq h :), (congrArg Mach.lc h :), (congrArg Mach.dbgOpen h :), (congrArg Mach.mbist h :),
    (congrArg Mach.lbist h :), (congrArg Mach.cslot h :), fun h2 => (congrArg (Mach.slice · h2) h :),
    fun h2 t2 => (congrArg (Mach.te · h2 t2) h :), (congrArg Mach.active h :), fun h2 t2 => (congrArg (Mach.htag · h2 t2) h :),
    fun p2 => (congrArg (Mach.port · p2) h :), fun p2 => (congrArg (Mach.portDown · p2) h :), fun g2 => (congrArg (Mach.group · g2) h :),
    fun d2 => (congrArg (Mach.dom · d2) h :), fun p2 => (congrArg (Mach.populated · p2) h :), fun p2 => (congrArg (Mach.isCxl · p2) h :),
    fun x => (congrArg (Mach.agPop · x) h :), fun x => (congrArg (Mach.agFenced · x) h :)⟩

@[simp] theorem Mach.place_frame (m : Mach) (t : BitVec 8) (a b : Bool) (p : List (BitVec 8)) (o : BitVec 4) :
    (m.place t a b p o).integ = m.integ ∧ (m.place t a b p o).up = m.up ∧ (m.place t a b p o).slices = m.slices ∧
    (m.place t a b p o).ports = m.ports ∧ (m.place t a b p o).groups = m.groups ∧ (m.place t a b p o).doms = m.doms ∧
    (m.place t a b p o).latch = m.latch ∧ (m.place t a b p o).heldLo = m.heldLo ∧ (m.place t a b p o).resp = m.resp ∧
    (m.place t a b p o).yard = m.yard ∧ (m.place t a b p o).fagent = m.fagent ∧ (m.place t a b p o).sweeps = m.sweeps ∧
    (m.place t a b p o).metaDn = m.metaDn ∧ (m.place t a b p o).safe = m.safe ∧ (m.place t a b p o).fatal = m.fatal ∧
    (m.place t a b p o).rehome = m.rehome ∧ (m.place t a b p o).rhq = m.rhq ∧ (m.place t a b p o).ctrl = m.ctrl ∧
    (m.place t a b p o).tmp = m.tmp ∧ (m.place t a b p o).tmpq = m.tmpq ∧ (m.place t a b p o).lk = m.lk ∧
    (m.place t a b p o).qcmd = m.qcmd ∧ (m.place t a b p o).qho = m.qho ∧ (m.place t a b p o).invBusy = m.invBusy ∧
    (m.place t a b p o).domCmd = m.domCmd ∧ (m.place t a b p o).domq = m.domq ∧ (m.place t a b p o).freqTo = m.freqTo ∧
    (m.place t a b p o).cur = m.cur ∧ (m.place t a b p o).throttle = m.throttle ∧ (m.place t a b p o).vmon = m.vmon ∧
    (m.place t a b p o).tmon = m.tmon ∧ (m.place t a b p o).step = m.step ∧ (m.place t a b p o).halted = m.halted ∧
    (m.place t a b p o).mapped = m.mapped ∧ (m.place t a b p o).cpFails = m.cpFails ∧ (m.place t a b p o).drain = m.drain ∧
    (m.place t a b p o).image = m.image ∧ (m.place t a b p o).heldq = m.heldq ∧ (m.place t a b p o).lc = m.lc ∧
    (m.place t a b p o).dbgOpen = m.dbgOpen ∧ (m.place t a b p o).mbist = m.mbist ∧ (m.place t a b p o).lbist = m.lbist ∧
    (m.place t a b p o).cslot = m.cslot ∧ (∀ (h2 : Nat), (m.place t a b p o).slice h2 = m.slice h2) ∧
    (∀ (h2 : Nat) (t2 : Nat), (m.place t a b p o).te h2 t2 = m.te h2 t2) ∧ (m.place t a b p o).active = m.active ∧
    (∀ (h2 : Nat) (t2 : Nat), (m.place t a b p o).htag h2 t2 = m.htag h2 t2) ∧ (∀ (p2 : Nat), (m.place t a b p o).port p2 = m.port p2) ∧
    (∀ (p2 : Nat), (m.place t a b p o).portDown p2 = m.portDown p2) ∧ (∀ (g2 : Nat), (m.place t a b p o).group g2 = m.group g2) ∧
    (∀ (d2 : Nat), (m.place t a b p o).dom d2 = m.dom d2) ∧ (∀ (p2 : Nat), (m.place t a b p o).populated p2 = m.populated p2) ∧
    (∀ (p2 : Nat), (m.place t a b p o).isCxl p2 = m.isCxl p2) ∧ (∀ (x : Nat), (m.place t a b p o).agPop x = m.agPop x) ∧
    (∀ (x : Nat), (m.place t a b p o).agFenced x = m.agFenced x) :=
  Mach.same_of_unrecorded (m.place_unrecorded t a b p o)

@[simp] theorem Mach.recordV_frame (m : Mach) (t : Nat) (a : Bool) (p : List (BitVec 8)) (o : BitVec 4) (f : Bool) :
    (m.recordV t a p o f).integ = m.integ ∧ (m.recordV t a p o f).up = m.up ∧ (m.recordV t a p o f).slices = m.slices ∧
    (m.recordV t a p o f).ports = m.ports ∧ (m.recordV t a p o f).groups = m.groups ∧ (m.recordV t a p o f).doms = m.doms ∧
    (m.recordV t a p o f).latch = m.latch ∧ (m.recordV t a p o f).heldLo = m.heldLo ∧ (m.recordV t a p o f).resp = m.resp ∧
    (m.recordV t a p o f).yard = m.yard ∧ (m.recordV t a p o f).fagent = m.fagent ∧ (m.recordV t a p o f).sweeps = m.sweeps ∧
    (m.recordV t a p o f).metaDn = m.metaDn ∧ (m.recordV t a p o f).safe = m.safe ∧ (m.recordV t a p o f).fatal = m.fatal ∧
    (m.recordV t a p o f).rehome = m.rehome ∧ (m.recordV t a p o f).rhq = m.rhq ∧ (m.recordV t a p o f).ctrl = m.ctrl ∧
    (m.recordV t a p o f).tmp = m.tmp ∧ (m.recordV t a p o f).tmpq = m.tmpq ∧ (m.recordV t a p o f).lk = m.lk ∧
    (m.recordV t a p o f).qcmd = m.qcmd ∧ (m.recordV t a p o f).qho = m.qho ∧ (m.recordV t a p o f).invBusy = m.invBusy ∧
    (m.recordV t a p o f).domCmd = m.domCmd ∧ (m.recordV t a p o f).domq = m.domq ∧ (m.recordV t a p o f).freqTo = m.freqTo ∧
    (m.recordV t a p o f).cur = m.cur ∧ (m.recordV t a p o f).throttle = m.throttle ∧ (m.recordV t a p o f).vmon = m.vmon ∧
    (m.recordV t a p o f).tmon = m.tmon ∧ (m.recordV t a p o f).step = m.step ∧ (m.recordV t a p o f).halted = m.halted ∧
    (m.recordV t a p o f).mapped = m.mapped ∧ (m.recordV t a p o f).cpFails = m.cpFails ∧ (m.recordV t a p o f).drain = m.drain ∧
    (m.recordV t a p o f).image = m.image ∧ (m.recordV t a p o f).heldq = m.heldq ∧ (m.recordV t a p o f).lc = m.lc ∧
    (m.recordV t a p o f).dbgOpen = m.dbgOpen ∧ (m.recordV t a p o f).mbist = m.mbist ∧ (m.recordV t a p o f).lbist = m.lbist ∧
    (m.recordV t a p o f).cslot = m.cslot ∧ (∀ (h2 : Nat), (m.recordV t a p o f).slice h2 = m.slice h2) ∧
    (∀ (h2 : Nat) (t2 : Nat), (m.recordV t a p o f).te h2 t2 = m.te h2 t2) ∧ (m.recordV t a p o f).active = m.active ∧
    (∀ (h2 : Nat) (t2 : Nat), (m.recordV t a p o f).htag h2 t2 = m.htag h2 t2) ∧
    (∀ (p2 : Nat), (m.recordV t a p o f).port p2 = m.port p2) ∧ (∀ (p2 : Nat), (m.recordV t a p o f).portDown p2 = m.portDown p2) ∧
    (∀ (g2 : Nat), (m.recordV t a p o f).group g2 = m.group g2) ∧ (∀ (d2 : Nat), (m.recordV t a p o f).dom d2 = m.dom d2) ∧
    (∀ (p2 : Nat), (m.recordV t a p o f).populated p2 = m.populated p2) ∧ (∀ (p2 : Nat), (m.recordV t a p o f).isCxl p2 = m.isCxl p2) ∧
    (∀ (x : Nat), (m.recordV t a p o f).agPop x = m.agPop x) ∧ (∀ (x : Nat), (m.recordV t a p o f).agFenced x = m.agFenced x) :=
  Mach.same_of_unrecorded (m.recordV_unrecorded t a p o f)

@[simp] theorem Mach.trigger_frame (m : Mach) (b : Nat) (s : Bool) :
    (m.trigger b s).integ = m.integ ∧ (m.trigger b s).up = m.up ∧ (m.trigger b s).slices = m.slices ∧ (m.trigger b s).ports = m.ports ∧
    (m.trigger b s).groups = m.groups ∧ (m.trigger b s).doms = m.doms ∧ (m.trigger b s).latch = m.latch ∧
    (m.trigger b s).heldLo = m.heldLo ∧ (m.trigger b s).resp = m.resp ∧ (m.trigger b s).yard = m.yard ∧
    (m.trigger b s).fagent = m.fagent ∧ (m.trigger b s).sweeps = m.sweeps ∧ (m.trigger b s).metaDn = m.metaDn ∧
    (m.trigger b s).safe = m.safe ∧ (m.trigger b s).fatal = m.fatal ∧ (m.trigger b s).rehome = m.rehome ∧ (m.trigger b s).rhq = m.rhq ∧
    (m.trigger b s).ctrl = m.ctrl ∧ (m.trigger b s).tmp = m.tmp ∧ (m.trigger b s).tmpq = m.tmpq ∧ (m.trigger b s).lk = m.lk ∧
    (m.trigger b s).qcmd = m.qcmd ∧ (m.trigger b s).qho = m.qho ∧ (m.trigger b s).invBusy = m.invBusy ∧
    (m.trigger b s).domCmd = m.domCmd ∧ (m.trigger b s).domq = m.domq ∧ (m.trigger b s).freqTo = m.freqTo ∧ (m.trigger b s).cur = m.cur ∧
    (m.trigger b s).throttle = m.throttle ∧ (m.trigger b s).vmon = m.vmon ∧ (m.trigger b s).tmon = m.tmon ∧
    (m.trigger b s).step = m.step ∧ (m.trigger b s).halted = m.halted ∧ (m.trigger b s).mapped = m.mapped ∧
    (m.trigger b s).cpFails = m.cpFails ∧ (m.trigger b s).drain = m.drain ∧ (m.trigger b s).image = m.image ∧
    (m.trigger b s).heldq = m.heldq ∧ (m.trigger b s).lc = m.lc ∧ (m.trigger b s).dbgOpen = m.dbgOpen ∧ (m.trigger b s).mbist = m.mbist ∧
    (m.trigger b s).lbist = m.lbist ∧ (m.trigger b s).cslot = m.cslot ∧ (∀ (h2 : Nat), (m.trigger b s).slice h2 = m.slice h2) ∧
    (∀ (h2 : Nat) (t2 : Nat), (m.trigger b s).te h2 t2 = m.te h2 t2) ∧ (m.trigger b s).active = m.active ∧
    (∀ (h2 : Nat) (t2 : Nat), (m.trigger b s).htag h2 t2 = m.htag h2 t2) ∧ (∀ (p2 : Nat), (m.trigger b s).port p2 = m.port p2) ∧
    (∀ (p2 : Nat), (m.trigger b s).portDown p2 = m.portDown p2) ∧ (∀ (g2 : Nat), (m.trigger b s).group g2 = m.group g2) ∧
    (∀ (d2 : Nat), (m.trigger b s).dom d2 = m.dom d2) ∧ (∀ (p2 : Nat), (m.trigger b s).populated p2 = m.populated p2) ∧
    (∀ (p2 : Nat), (m.trigger b s).isCxl p2 = m.isCxl p2) ∧ (∀ (x : Nat), (m.trigger b s).agPop x = m.agPop x) ∧
    (∀ (x : Nat), (m.trigger b s).agFenced x = m.agFenced x) :=
  Mach.same_of_unrecorded (m.trigger_unrecorded b s)

@[simp] theorem Mach.capture_frame (m : Mach) (e : Ev) :
    (m.capture e).integ = m.integ ∧ (m.capture e).up = m.up ∧ (m.capture e).slices = m.slices ∧ (m.capture e).ports = m.ports ∧
    (m.capture e).groups = m.groups ∧ (m.capture e).doms = m.doms ∧ (m.capture e).latch = m.latch ∧ (m.capture e).heldLo = m.heldLo ∧
    (m.capture e).resp = m.resp ∧ (m.capture e).yard = m.yard ∧ (m.capture e).fagent = m.fagent ∧ (m.capture e).sweeps = m.sweeps ∧
    (m.capture e).metaDn = m.metaDn ∧ (m.capture e).safe = m.safe ∧ (m.capture e).fatal = m.fatal ∧ (m.capture e).rehome = m.rehome ∧
    (m.capture e).rhq = m.rhq ∧ (m.capture e).ctrl = m.ctrl ∧ (m.capture e).tmp = m.tmp ∧ (m.capture e).tmpq = m.tmpq ∧
    (m.capture e).lk = m.lk ∧ (m.capture e).qcmd = m.qcmd ∧ (m.capture e).qho = m.qho ∧ (m.capture e).invBusy = m.invBusy ∧
    (m.capture e).domCmd = m.domCmd ∧ (m.capture e).domq = m.domq ∧ (m.capture e).freqTo = m.freqTo ∧ (m.capture e).cur = m.cur ∧
    (m.capture e).throttle = m.throttle ∧ (m.capture e).vmon = m.vmon ∧ (m.capture e).tmon = m.tmon ∧ (m.capture e).step = m.step ∧
    (m.capture e).halted = m.halted ∧ (m.capture e).mapped = m.mapped ∧ (m.capture e).cpFails = m.cpFails ∧
    (m.capture e).drain = m.drain ∧ (m.capture e).image = m.image ∧ (m.capture e).heldq = m.heldq ∧ (m.capture e).lc = m.lc ∧
    (m.capture e).dbgOpen = m.dbgOpen ∧ (m.capture e).mbist = m.mbist ∧ (m.capture e).lbist = m.lbist ∧ (m.capture e).cslot = m.cslot ∧
    (∀ (h2 : Nat), (m.capture e).slice h2 = m.slice h2) ∧ (∀ (h2 : Nat) (t2 : Nat), (m.capture e).te h2 t2 = m.te h2 t2) ∧
    (m.capture e).active = m.active ∧ (∀ (h2 : Nat) (t2 : Nat), (m.capture e).htag h2 t2 = m.htag h2 t2) ∧
    (∀ (p2 : Nat), (m.capture e).port p2 = m.port p2) ∧ (∀ (p2 : Nat), (m.capture e).portDown p2 = m.portDown p2) ∧
    (∀ (g2 : Nat), (m.capture e).group g2 = m.group g2) ∧ (∀ (d2 : Nat), (m.capture e).dom d2 = m.dom d2) ∧
    (∀ (p2 : Nat), (m.capture e).populated p2 = m.populated p2) ∧ (∀ (p2 : Nat), (m.capture e).isCxl p2 = m.isCxl p2) ∧
    (∀ (x : Nat), (m.capture e).agPop x = m.agPop x) ∧ (∀ (x : Nat), (m.capture e).agFenced x = m.agFenced x) :=
  Mach.same_of_unrecorded (m.capture_unrecorded e)

@[simp] theorem Mach.protErr_frame (m : Mach) (p : Nat) (a : BitVec 5) (r : BitVec 9) (t : Tid) (pa : BitVec 52) (o : BitVec 5) (c : BitVec 3) (u : BitVec 2) :
    (m.protErr p a r t pa o c u).integ = m.integ ∧ (m.protErr p a r t pa o c u).up = m.up ∧
    (m.protErr p a r t pa o c u).slices = m.slices ∧ (m.protErr p a r t pa o c u).ports = m.ports ∧
    (m.protErr p a r t pa o c u).groups = m.groups ∧ (m.protErr p a r t pa o c u).doms = m.doms ∧
    (m.protErr p a r t pa o c u).latch = m.latch ∧ (m.protErr p a r t pa o c u).heldLo = m.heldLo ∧
    (m.protErr p a r t pa o c u).resp = m.resp ∧ (m.protErr p a r t pa o c u).yard = m.yard ∧
    (m.protErr p a r t pa o c u).fagent = m.fagent ∧ (m.protErr p a r t pa o c u).sweeps = m.sweeps ∧
    (m.protErr p a r t pa o c u).metaDn = m.metaDn ∧ (m.protErr p a r t pa o c u).safe = m.safe ∧
    (m.protErr p a r t pa o c u).fatal = m.fatal ∧ (m.protErr p a r t pa o c u).rehome = m.rehome ∧
    (m.protErr p a r t pa o c u).rhq = m.rhq ∧ (m.protErr p a r t pa o c u).ctrl = m.ctrl ∧ (m.protErr p a r t pa o c u).tmp = m.tmp ∧
    (m.protErr p a r t pa o c u).tmpq = m.tmpq ∧ (m.protErr p a r t pa o c u).lk = m.lk ∧ (m.protErr p a r t pa o c u).qcmd = m.qcmd ∧
    (m.protErr p a r t pa o c u).qho = m.qho ∧ (m.protErr p a r t pa o c u).invBusy = m.invBusy ∧
    (m.protErr p a r t pa o c u).domCmd = m.domCmd ∧ (m.protErr p a r t pa o c u).domq = m.domq ∧
    (m.protErr p a r t pa o c u).freqTo = m.freqTo ∧ (m.protErr p a r t pa o c u).cur = m.cur ∧
    (m.protErr p a r t pa o c u).throttle = m.throttle ∧ (m.protErr p a r t pa o c u).vmon = m.vmon ∧
    (m.protErr p a r t pa o c u).tmon = m.tmon ∧ (m.protErr p a r t pa o c u).step = m.step ∧
    (m.protErr p a r t pa o c u).halted = m.halted ∧ (m.protErr p a r t pa o c u).mapped = m.mapped ∧
    (m.protErr p a r t pa o c u).cpFails = m.cpFails ∧ (m.protErr p a r t pa o c u).drain = m.drain ∧
    (m.protErr p a r t pa o c u).image = m.image ∧ (m.protErr p a r t pa o c u).heldq = m.heldq ∧
    (m.protErr p a r t pa o c u).lc = m.lc ∧ (m.protErr p a r t pa o c u).dbgOpen = m.dbgOpen ∧
    (m.protErr p a r t pa o c u).mbist = m.mbist ∧ (m.protErr p a r t pa o c u).lbist = m.lbist ∧
    (m.protErr p a r t pa o c u).cslot = m.cslot ∧ (∀ (h2 : Nat), (m.protErr p a r t pa o c u).slice h2 = m.slice h2) ∧
    (∀ (h2 : Nat) (t2 : Nat), (m.protErr p a r t pa o c u).te h2 t2 = m.te h2 t2) ∧ (m.protErr p a r t pa o c u).active = m.active ∧
    (∀ (h2 : Nat) (t2 : Nat), (m.protErr p a r t pa o c u).htag h2 t2 = m.htag h2 t2) ∧
    (∀ (p2 : Nat), (m.protErr p a r t pa o c u).port p2 = m.port p2) ∧
    (∀ (p2 : Nat), (m.protErr p a r t pa o c u).portDown p2 = m.portDown p2) ∧
    (∀ (g2 : Nat), (m.protErr p a r t pa o c u).group g2 = m.group g2) ∧ (∀ (d2 : Nat), (m.protErr p a r t pa o c u).dom d2 = m.dom d2) ∧
    (∀ (p2 : Nat), (m.protErr p a r t pa o c u).populated p2 = m.populated p2) ∧
    (∀ (p2 : Nat), (m.protErr p a r t pa o c u).isCxl p2 = m.isCxl p2) ∧
    (∀ (x : Nat), (m.protErr p a r t pa o c u).agPop x = m.agPop x) ∧
    (∀ (x : Nat), (m.protErr p a r t pa o c u).agFenced x = m.agFenced x) :=
  Mach.same_of_unrecorded (m.protErr_unrecorded p a r t pa o c u)

@[simp] theorem Mach.protErrM_frame (m : Mach) (p : Nat) (pa : BitVec 52) (c : BitVec 3) :
    (m.protErrM p pa c).integ = m.integ ∧ (m.protErrM p pa c).up = m.up ∧ (m.protErrM p pa c).slices = m.slices ∧
    (m.protErrM p pa c).ports = m.ports ∧ (m.protErrM p pa c).groups = m.groups ∧ (m.protErrM p pa c).doms = m.doms ∧
    (m.protErrM p pa c).latch = m.latch ∧ (m.protErrM p pa c).heldLo = m.heldLo ∧ (m.protErrM p pa c).resp = m.resp ∧
    (m.protErrM p pa c).yard = m.yard ∧ (m.protErrM p pa c).fagent = m.fagent ∧ (m.protErrM p pa c).sweeps = m.sweeps ∧
    (m.protErrM p pa c).metaDn = m.metaDn ∧ (m.protErrM p pa c).safe = m.safe ∧ (m.protErrM p pa c).fatal = m.fatal ∧
    (m.protErrM p pa c).rehome = m.rehome ∧ (m.protErrM p pa c).rhq = m.rhq ∧ (m.protErrM p pa c).ctrl = m.ctrl ∧
    (m.protErrM p pa c).tmp = m.tmp ∧ (m.protErrM p pa c).tmpq = m.tmpq ∧ (m.protErrM p pa c).lk = m.lk ∧
    (m.protErrM p pa c).qcmd = m.qcmd ∧ (m.protErrM p pa c).qho = m.qho ∧ (m.protErrM p pa c).invBusy = m.invBusy ∧
    (m.protErrM p pa c).domCmd = m.domCmd ∧ (m.protErrM p pa c).domq = m.domq ∧ (m.protErrM p pa c).freqTo = m.freqTo ∧
    (m.protErrM p pa c).cur = m.cur ∧ (m.protErrM p pa c).throttle = m.throttle ∧ (m.protErrM p pa c).vmon = m.vmon ∧
    (m.protErrM p pa c).tmon = m.tmon ∧ (m.protErrM p pa c).step = m.step ∧ (m.protErrM p pa c).halted = m.halted ∧
    (m.protErrM p pa c).mapped = m.mapped ∧ (m.protErrM p pa c).cpFails = m.cpFails ∧ (m.protErrM p pa c).drain = m.drain ∧
    (m.protErrM p pa c).image = m.image ∧ (m.protErrM p pa c).heldq = m.heldq ∧ (m.protErrM p pa c).lc = m.lc ∧
    (m.protErrM p pa c).dbgOpen = m.dbgOpen ∧ (m.protErrM p pa c).mbist = m.mbist ∧ (m.protErrM p pa c).lbist = m.lbist ∧
    (m.protErrM p pa c).cslot = m.cslot ∧ (∀ (h2 : Nat), (m.protErrM p pa c).slice h2 = m.slice h2) ∧
    (∀ (h2 : Nat) (t2 : Nat), (m.protErrM p pa c).te h2 t2 = m.te h2 t2) ∧ (m.protErrM p pa c).active = m.active ∧
    (∀ (h2 : Nat) (t2 : Nat), (m.protErrM p pa c).htag h2 t2 = m.htag h2 t2) ∧ (∀ (p2 : Nat), (m.protErrM p pa c).port p2 = m.port p2) ∧
    (∀ (p2 : Nat), (m.protErrM p pa c).portDown p2 = m.portDown p2) ∧ (∀ (g2 : Nat), (m.protErrM p pa c).group g2 = m.group g2) ∧
    (∀ (d2 : Nat), (m.protErrM p pa c).dom d2 = m.dom d2) ∧ (∀ (p2 : Nat), (m.protErrM p pa c).populated p2 = m.populated p2) ∧
    (∀ (p2 : Nat), (m.protErrM p pa c).isCxl p2 = m.isCxl p2) ∧ (∀ (x : Nat), (m.protErrM p pa c).agPop x = m.agPop x) ∧
    (∀ (x : Nat), (m.protErrM p pa c).agFenced x = m.agFenced x) :=
  Mach.same_of_unrecorded (m.protErrM_unrecorded p pa c)

end Sys2Proof.Machine
end

