-- ==== Sys2Proof/Laws/Reads.lean ====
section
/-! SUPPORT. The reads built on several fields, after the updates of `Sys2Proof/Laws/State.lean` and `Recording.lean`. -/

namespace Sys2Proof.Machine

set_option Elab.async false

@[simp] theorem Mach.setReg_reads (m : Mach) (a : Nat) (v : W32) :
    (∀ (p2 : Nat), (m.setReg a v).portIn p2 = m.portIn p2) ∧ (∀ (h2 : Nat), (m.setReg a v).serving h2 = m.serving h2) ∧
    (∀ (c2 : Nat), (m.setReg a v).ctrlRuns c2 = m.ctrlRuns c2) ∧ (∀ (d2 : Nat), (m.setReg a v).unpowered d2 = m.unpowered d2) ∧
    (∀ (h2 : Nat), (m.setReg a v).rvpHolds h2 = m.rvpHolds h2) ∧ (m.setReg a v).wiping = m.wiping :=
  ⟨fun _ => rfl, fun _ => rfl, fun _ => rfl, fun _ => rfl, fun _ => rfl, rfl⟩

@[simp] theorem Mach.setFld_reads (m : Mach) (a lo w n : Nat) :
    (∀ (p2 : Nat), (m.setFld a lo w n).portIn p2 = m.portIn p2) ∧ (∀ (h2 : Nat), (m.setFld a lo w n).serving h2 = m.serving h2) ∧
    (∀ (c2 : Nat), (m.setFld a lo w n).ctrlRuns c2 = m.ctrlRuns c2) ∧ (∀ (d2 : Nat), (m.setFld a lo w n).unpowered d2 = m.unpowered d2) ∧
    (∀ (h2 : Nat), (m.setFld a lo w n).rvpHolds h2 = m.rvpHolds h2) ∧ (m.setFld a lo w n).wiping = m.wiping :=
  ⟨fun _ => rfl, fun _ => rfl, fun _ => rfl, fun _ => rfl, fun _ => rfl, rfl⟩

@[simp] theorem Mach.setBits_reads (m : Mach) (a : Nat) (b : W32) :
    (∀ (p2 : Nat), (m.setBits a b).portIn p2 = m.portIn p2) ∧ (∀ (h2 : Nat), (m.setBits a b).serving h2 = m.serving h2) ∧
    (∀ (c2 : Nat), (m.setBits a b).ctrlRuns c2 = m.ctrlRuns c2) ∧ (∀ (d2 : Nat), (m.setBits a b).unpowered d2 = m.unpowered d2) ∧
    (∀ (h2 : Nat), (m.setBits a b).rvpHolds h2 = m.rvpHolds h2) ∧ (m.setBits a b).wiping = m.wiping :=
  ⟨fun _ => rfl, fun _ => rfl, fun _ => rfl, fun _ => rfl, fun _ => rfl, rfl⟩

@[simp] theorem Mach.clrBits_reads (m : Mach) (a : Nat) (b : W32) :
    (∀ (p2 : Nat), (m.clrBits a b).portIn p2 = m.portIn p2) ∧ (∀ (h2 : Nat), (m.clrBits a b).serving h2 = m.serving h2) ∧
    (∀ (c2 : Nat), (m.clrBits a b).ctrlRuns c2 = m.ctrlRuns c2) ∧ (∀ (d2 : Nat), (m.clrBits a b).unpowered d2 = m.unpowered d2) ∧
    (∀ (h2 : Nat), (m.clrBits a b).rvpHolds h2 = m.rvpHolds h2) ∧ (m.clrBits a b).wiping = m.wiping :=
  ⟨fun _ => rfl, fun _ => rfl, fun _ => rfl, fun _ => rfl, fun _ => rfl, rfl⟩

@[simp] theorem Mach.setPair_reads (m : Mach) (a b : Nat) (v : W64) :
    (∀ (p2 : Nat), (m.setPair a b v).portIn p2 = m.portIn p2) ∧ (∀ (h2 : Nat), (m.setPair a b v).serving h2 = m.serving h2) ∧
    (∀ (c2 : Nat), (m.setPair a b v).ctrlRuns c2 = m.ctrlRuns c2) ∧ (∀ (d2 : Nat), (m.setPair a b v).unpowered d2 = m.unpowered d2) ∧
    (∀ (h2 : Nat), (m.setPair a b v).rvpHolds h2 = m.rvpHolds h2) ∧ (m.setPair a b v).wiping = m.wiping :=
  ⟨fun _ => rfl, fun _ => rfl, fun _ => rfl, fun _ => rfl, fun _ => rfl, rfl⟩

@[simp] theorem Mach.count_reads (m : Mach) (a n : Nat) :
    (∀ (p2 : Nat), (m.count a n).portIn p2 = m.portIn p2) ∧ (∀ (h2 : Nat), (m.count a n).serving h2 = m.serving h2) ∧
    (∀ (c2 : Nat), (m.count a n).ctrlRuns c2 = m.ctrlRuns c2) ∧ (∀ (d2 : Nat), (m.count a n).unpowered d2 = m.unpowered d2) ∧
    (∀ (h2 : Nat), (m.count a n).rvpHolds h2 = m.rvpHolds h2) ∧ (m.count a n).wiping = m.wiping :=
  ⟨fun _ => rfl, fun _ => rfl, fun _ => rfl, fun _ => rfl, fun _ => rfl, rfl⟩

@[simp] theorem Mach.bump_reads (m : Mach) (h o n : Nat) :
    (∀ (p2 : Nat), (m.bump h o n).portIn p2 = m.portIn p2) ∧ (∀ (h2 : Nat), (m.bump h o n).serving h2 = m.serving h2) ∧
    (∀ (c2 : Nat), (m.bump h o n).ctrlRuns c2 = m.ctrlRuns c2) ∧ (∀ (d2 : Nat), (m.bump h o n).unpowered d2 = m.unpowered d2) ∧
    (∀ (h2 : Nat), (m.bump h o n).rvpHolds h2 = m.rvpHolds h2) ∧ (m.bump h o n).wiping = m.wiping := by
  unfold Mach.bump; split <;> exact ⟨fun _ => rfl, fun _ => rfl, fun _ => rfl, fun _ => rfl, fun _ => rfl, rfl⟩

@[simp] theorem Mach.bumpP_reads (m : Mach) (p o n : Nat) :
    (∀ (p2 : Nat), (m.bumpP p o n).portIn p2 = m.portIn p2) ∧ (∀ (h2 : Nat), (m.bumpP p o n).serving h2 = m.serving h2) ∧
    (∀ (c2 : Nat), (m.bumpP p o n).ctrlRuns c2 = m.ctrlRuns c2) ∧ (∀ (d2 : Nat), (m.bumpP p o n).unpowered d2 = m.unpowered d2) ∧
    (∀ (h2 : Nat), (m.bumpP p o n).rvpHolds h2 = m.rvpHolds h2) ∧ (m.bumpP p o n).wiping = m.wiping := by
  unfold Mach.bumpP; split <;> exact ⟨fun _ => rfl, fun _ => rfl, fun _ => rfl, fun _ => rfl, fun _ => rfl, rfl⟩

@[simp] theorem Mach.setPort_reads (m : Mach) (k : Nat) (v : Port) :
    (∀ (h2 : Nat), (m.setPort k v).serving h2 = m.serving h2) ∧ (∀ (x2 : BitVec 14), (m.setPort k v).htagOf x2 = m.htagOf x2) ∧
    (∀ (c2 : Nat), (m.setPort k v).ctrlRuns c2 = m.ctrlRuns c2) ∧ (∀ (x3 : Nat), (m.setPort k v).offPa x3 = m.offPa x3) ∧
    (∀ (d2 : Nat), (m.setPort k v).unpowered d2 = m.unpowered d2) ∧ (∀ (h2 : Nat), (m.setPort k v).rvpHolds h2 = m.rvpHolds h2) ∧
    (m.setPort k v).wiping = m.wiping :=
  ⟨fun _ => rfl, fun _ => rfl, fun _ => rfl, fun _ => rfl, fun _ => rfl, fun _ => rfl, rfl⟩

@[simp] theorem Mach.modP_reads (m : Mach) (p : Nat) (f : Port → Port) :
    (∀ (h2 : Nat), (m.modP p f).serving h2 = m.serving h2) ∧ (∀ (x2 : BitVec 14), (m.modP p f).htagOf x2 = m.htagOf x2) ∧
    (∀ (c2 : Nat), (m.modP p f).ctrlRuns c2 = m.ctrlRuns c2) ∧ (∀ (x3 : Nat), (m.modP p f).offPa x3 = m.offPa x3) ∧
    (∀ (d2 : Nat), (m.modP p f).unpowered d2 = m.unpowered d2) ∧ (∀ (h2 : Nat), (m.modP p f).rvpHolds h2 = m.rvpHolds h2) ∧
    (m.modP p f).wiping = m.wiping :=
  ⟨fun _ => rfl, fun _ => rfl, fun _ => rfl, fun _ => rfl, fun _ => rfl, fun _ => rfl, rfl⟩

@[simp] theorem Mach.credit_reads (m : Mach) (p c : Nat) :
    (∀ (h2 : Nat), (m.credit p c).serving h2 = m.serving h2) ∧ (∀ (x2 : BitVec 14), (m.credit p c).htagOf x2 = m.htagOf x2) ∧
    (∀ (c2 : Nat), (m.credit p c).ctrlRuns c2 = m.ctrlRuns c2) ∧ (∀ (x3 : Nat), (m.credit p c).offPa x3 = m.offPa x3) ∧
    (∀ (d2 : Nat), (m.credit p c).unpowered d2 = m.unpowered d2) ∧ (∀ (h2 : Nat), (m.credit p c).rvpHolds h2 = m.rvpHolds h2) ∧
    (m.credit p c).wiping = m.wiping :=
  ⟨fun _ => rfl, fun _ => rfl, fun _ => rfl, fun _ => rfl, fun _ => rfl, fun _ => rfl, rfl⟩

@[simp] theorem Mach.setSlice_reads (m : Mach) (k : Nat) (v : Slice) :
    (∀ (p2 : Nat), (m.setSlice k v).portIn p2 = m.portIn p2) ∧ (∀ (x2 : BitVec 14), (m.setSlice k v).htagOf x2 = m.htagOf x2) ∧
    (∀ (c2 : Nat), (m.setSlice k v).ctrlRuns c2 = m.ctrlRuns c2) ∧ (∀ (x3 : Nat), (m.setSlice k v).offPa x3 = m.offPa x3) ∧
    (∀ (d2 : Nat), (m.setSlice k v).unpowered d2 = m.unpowered d2) :=
  ⟨fun _ => rfl, fun _ => rfl, fun _ => rfl, fun _ => rfl, fun _ => rfl⟩

@[simp] theorem Mach.modS_reads (m : Mach) (h : Nat) (f : Slice → Slice) :
    (∀ (p2 : Nat), (m.modS h f).portIn p2 = m.portIn p2) ∧ (∀ (x2 : BitVec 14), (m.modS h f).htagOf x2 = m.htagOf x2) ∧
    (∀ (c2 : Nat), (m.modS h f).ctrlRuns c2 = m.ctrlRuns c2) ∧ (∀ (x3 : Nat), (m.modS h f).offPa x3 = m.offPa x3) ∧
    (∀ (d2 : Nat), (m.modS h f).unpowered d2 = m.unpowered d2) :=
  ⟨fun _ => rfl, fun _ => rfl, fun _ => rfl, fun _ => rfl, fun _ => rfl⟩

@[simp] theorem Mach.setTe_reads (m : Mach) (h t : Nat) (e : TE) :
    (∀ (p2 : Nat), (m.setTe h t e).portIn p2 = m.portIn p2) ∧ (∀ (x2 : BitVec 14), (m.setTe h t e).htagOf x2 = m.htagOf x2) ∧
    (∀ (c2 : Nat), (m.setTe h t e).ctrlRuns c2 = m.ctrlRuns c2) ∧ (∀ (x3 : Nat), (m.setTe h t e).offPa x3 = m.offPa x3) ∧
    (∀ (d2 : Nat), (m.setTe h t e).unpowered d2 = m.unpowered d2) :=
  ⟨fun _ => rfl, fun _ => rfl, fun _ => rfl, fun _ => rfl, fun _ => rfl⟩

@[simp] theorem Mach.modTe_reads (m : Mach) (h t : Nat) (f : TE → TE) :
    (∀ (p2 : Nat), (m.modTe h t f).portIn p2 = m.portIn p2) ∧ (∀ (x2 : BitVec 14), (m.modTe h t f).htagOf x2 = m.htagOf x2) ∧
    (∀ (c2 : Nat), (m.modTe h t f).ctrlRuns c2 = m.ctrlRuns c2) ∧ (∀ (x3 : Nat), (m.modTe h t f).offPa x3 = m.offPa x3) ∧
    (∀ (d2 : Nat), (m.modTe h t f).unpowered d2 = m.unpowered d2) :=
  ⟨fun _ => rfl, fun _ => rfl, fun _ => rfl, fun _ => rfl, fun _ => rfl⟩

@[simp] theorem Mach.setDom_reads (m : Mach) (k : Nat) (v : DomSt) :
    (∀ (p2 : Nat), (m.setDom k v).portIn p2 = m.portIn p2) ∧ (∀ (x2 : BitVec 14), (m.setDom k v).htagOf x2 = m.htagOf x2) ∧
    (∀ (c2 : Nat), (m.setDom k v).ctrlRuns c2 = m.ctrlRuns c2) ∧ (∀ (x3 : Nat), (m.setDom k v).offPa x3 = m.offPa x3) ∧
    (∀ (h2 : Nat), (m.setDom k v).rvpHolds h2 = m.rvpHolds h2) ∧ (m.setDom k v).wiping = m.wiping :=
  ⟨fun _ => rfl, fun _ => rfl, fun _ => rfl, fun _ => rfl, fun _ => rfl, rfl⟩

@[simp] theorem Mach.modG_reads (m : Mach) (k : Nat) (f : Group → Group) :
    (∀ (p2 : Nat), (m.modG k f).portIn p2 = m.portIn p2) ∧ (∀ (h2 : Nat), (m.modG k f).serving h2 = m.serving h2) ∧
    (∀ (x2 : BitVec 14), (m.modG k f).htagOf x2 = m.htagOf x2) ∧ (∀ (c2 : Nat), (m.modG k f).ctrlRuns c2 = m.ctrlRuns c2) ∧
    (∀ (x3 : Nat), (m.modG k f).offPa x3 = m.offPa x3) ∧ (∀ (d2 : Nat), (m.modG k f).unpowered d2 = m.unpowered d2) ∧
    (∀ (h2 : Nat), (m.modG k f).rvpHolds h2 = m.rvpHolds h2) ∧ (m.modG k f).wiping = m.wiping :=
  ⟨fun _ => rfl, fun _ => rfl, fun _ => rfl, fun _ => rfl, fun _ => rfl, fun _ => rfl, fun _ => rfl, rfl⟩

@[simp] theorem Mach.place_reads (m : Mach) (t : BitVec 8) (a b : Bool) (p : List (BitVec 8)) (o : BitVec 4) :
    (∀ (p2 : Nat), (m.place t a b p o).portIn p2 = m.portIn p2) ∧ (∀ (h2 : Nat), (m.place t a b p o).serving h2 = m.serving h2) ∧
    (∀ (c2 : Nat), (m.place t a b p o).ctrlRuns c2 = m.ctrlRuns c2) ∧ (∀ (d2 : Nat), (m.place t a b p o).unpowered d2 = m.unpowered d2) ∧
    (∀ (h2 : Nat), (m.place t a b p o).rvpHolds h2 = m.rvpHolds h2) ∧ (m.place t a b p o).wiping = m.wiping :=
  have h := m.place_unrecorded t a b p o
  ⟨fun p2 => (congrArg (Mach.portIn · p2) h :), fun h2 => (congrArg (Mach.serving · h2) h :), fun c2 => (congrArg (Mach.ctrlRuns · c2) h :), fun d2 => (congrArg (Mach.unpowered · d2) h :), fun h2 => (congrArg (Mach.rvpHolds · h2) h :), (congrArg Mach.wiping h :)⟩

@[simp] theorem Mach.recordV_reads (m : Mach) (t : Nat) (a : Bool) (p : List (BitVec 8)) (o : BitVec 4) (f : Bool) :
    (∀ (p2 : Nat), (m.recordV t a p o f).portIn p2 = m.portIn p2) ∧ (∀ (h2 : Nat), (m.recordV t a p o f).serving h2 = m.serving h2) ∧
    (∀ (c2 : Nat), (m.recordV t a p o f).ctrlRuns c2 = m.ctrlRuns c2) ∧
    (∀ (d2 : Nat), (m.recordV t a p o f).unpowered d2 = m.unpowered d2) ∧
    (∀ (h2 : Nat), (m.recordV t a p o f).rvpHolds h2 = m.rvpHolds h2) ∧ (m.recordV t a p o f).wiping = m.wiping :=
  have h := m.recordV_unrecorded t a p o f
  ⟨fun p2 => (congrArg (Mach.portIn · p2) h :), fun h2 => (congrArg (Mach.serving · h2) h :), fun c2 => (congrArg (Mach.ctrlRuns · c2) h :), fun d2 => (congrArg (Mach.unpowered · d2) h :), fun h2 => (congrArg (Mach.rvpHolds · h2) h :), (congrArg Mach.wiping h :)⟩

@[simp] theorem Mach.capture_reads (m : Mach) (e : Ev) :
    (∀ (p2 : Nat), (m.capture e).portIn p2 = m.portIn p2) ∧ (∀ (h2 : Nat), (m.capture e).serving h2 = m.serving h2) ∧
    (∀ (c2 : Nat), (m.capture e).ctrlRuns c2 = m.ctrlRuns c2) ∧ (∀ (d2 : Nat), (m.capture e).unpowered d2 = m.unpowered d2) ∧
    (∀ (h2 : Nat), (m.capture e).rvpHolds h2 = m.rvpHolds h2) ∧ (m.capture e).wiping = m.wiping :=
  have h := m.capture_unrecorded e
  ⟨fun p2 => (congrArg (Mach.portIn · p2) h :), fun h2 => (congrArg (Mach.serving · h2) h :), fun c2 => (congrArg (Mach.ctrlRuns · c2) h :), fun d2 => (congrArg (Mach.unpowered · d2) h :), fun h2 => (congrArg (Mach.rvpHolds · h2) h :), (congrArg Mach.wiping h :)⟩

@[simp] theorem Mach.protErr_reads (m : Mach) (p : Nat) (a : BitVec 5) (r : BitVec 9) (t : Tid) (pa : BitVec 52) (o : BitVec 5) (c : BitVec 3) (u : BitVec 2) :
    (∀ (p2 : Nat), (m.protErr p a r t pa o c u).portIn p2 = m.portIn p2) ∧
    (∀ (h2 : Nat), (m.protErr p a r t pa o c u).serving h2 = m.serving h2) ∧
    (∀ (c2 : Nat), (m.protErr p a r t pa o c u).ctrlRuns c2 = m.ctrlRuns c2) ∧
    (∀ (d2 : Nat), (m.protErr p a r t pa o c u).unpowered d2 = m.unpowered d2) ∧
    (∀ (h2 : Nat), (m.protErr p a r t pa o c u).rvpHolds h2 = m.rvpHolds h2) ∧ (m.protErr p a r t pa o c u).wiping = m.wiping :=
  have h := m.protErr_unrecorded p a r t pa o c u
  ⟨fun p2 => (congrArg (Mach.portIn · p2) h :), fun h2 => (congrArg (Mach.serving · h2) h :), fun c2 => (congrArg (Mach.ctrlRuns · c2) h :), fun d2 => (congrArg (Mach.unpowered · d2) h :), fun h2 => (congrArg (Mach.rvpHolds · h2) h :), (congrArg Mach.wiping h :)⟩

@[simp] theorem Mach.protErrM_reads (m : Mach) (p : Nat) (pa : BitVec 52) (c : BitVec 3) :
    (∀ (p2 : Nat), (m.protErrM p pa c).portIn p2 = m.portIn p2) ∧ (∀ (h2 : Nat), (m.protErrM p pa c).serving h2 = m.serving h2) ∧
    (∀ (c2 : Nat), (m.protErrM p pa c).ctrlRuns c2 = m.ctrlRuns c2) ∧ (∀ (d2 : Nat), (m.protErrM p pa c).unpowered d2 = m.unpowered d2) ∧
    (∀ (h2 : Nat), (m.protErrM p pa c).rvpHolds h2 = m.rvpHolds h2) ∧ (m.protErrM p pa c).wiping = m.wiping :=
  have h := m.protErrM_unrecorded p pa c
  ⟨fun p2 => (congrArg (Mach.portIn · p2) h :), fun h2 => (congrArg (Mach.serving · h2) h :), fun c2 => (congrArg (Mach.ctrlRuns · c2) h :), fun d2 => (congrArg (Mach.unpowered · d2) h :), fun h2 => (congrArg (Mach.rvpHolds · h2) h :), (congrArg Mach.wiping h :)⟩

end Sys2Proof.Machine
end

