-- ==== Sys2Proof/Laws/Tables.lean ====
section
/-! SUPPORT. The operations on sparse tables and on the record store keep the canonical form. -/

namespace Sys2Proof.Machine

set_option Elab.async false

-- ===== the canonical form, read as a proposition =====

/-- The first key of a table is above `n`, or the table is empty. -/
def SMap.above {α : Type} (n : Nat) : SMap α → Prop
  | [] => True
  | (k, _) :: _ => n < k

theorem SMap.wf_nil {α : Type} [DecidableEq α] (d : α) : SMap.wf d ([] : SMap α) = true := rfl

/-- A table in canonical form: its first value is listed for a reason, its rest is above and in canonical form. -/
theorem SMap.wf_cons {α : Type} [DecidableEq α] (d : α) (k : Nat) (v : α) (r : SMap α) :
    SMap.wf d ((k, v) :: r) = true ↔ v ≠ d ∧ SMap.above k r ∧ SMap.wf d r = true := by
  cases r with
  | nil => simp [SMap.wf, SMap.above]
  | cons e r => simp [SMap.wf, SMap.above, and_assoc]

theorem SMap.above_put {α : Type} {n k : Nat} (v : α) (hk : n < k) : ∀ m : SMap α, SMap.above n m → SMap.above n (SMap.put m k v)
  | [], _ => hk
  | (j, u) :: r, h => by
    unfold SMap.put
    split
    · exact hk
    · split
      · exact hk
      · exact h

theorem SMap.above_trans {α : Type} {n k : Nat} (h : n < k) : ∀ m : SMap α, SMap.above k m → SMap.above n m
  | [], _ => trivial
  | (_, _) :: _, hm => Nat.lt_trans h hm

theorem SMap.above_del {α : Type} [DecidableEq α] {d : α} {n k : Nat} :
    ∀ m : SMap α, SMap.wf d m = true → SMap.above n m → SMap.above n (SMap.del m k)
  | [], _, _ => trivial
  | (j, u) :: r, w, h => by
    have w' := (SMap.wf_cons d j u r).1 w
    unfold SMap.del
    split
    · exact SMap.above_trans h r w'.2.1
    · split <;> exact h

-- ===== every operation keeps the form =====

/-- Removing an entry keeps the canonical form. -/
theorem SMap.wf_del {α : Type} [DecidableEq α] {d : α} (k : Nat) : ∀ m : SMap α, SMap.wf d m = true → SMap.wf d (SMap.del m k) = true
  | [], h => h
  | (j, u) :: r, w => by
    have w' := (SMap.wf_cons d j u r).1 w
    unfold SMap.del
    split
    · exact w'.2.2
    · split
      · exact w
      · exact (SMap.wf_cons d j u _).2 ⟨w'.1, SMap.above_del r w'.2.2 w'.2.1, SMap.wf_del k r w'.2.2⟩

/-- Listing a value other than the default keeps the canonical form. -/
theorem SMap.wf_put {α : Type} [DecidableEq α] {d : α} (k : Nat) {v : α} (hv : v ≠ d) :
    ∀ m : SMap α, SMap.wf d m = true → SMap.wf d (SMap.put m k v) = true
  | [], _ => (SMap.wf_cons d k v []).2 ⟨hv, trivial, rfl⟩
  | (j, u) :: r, w => by
    have w' := (SMap.wf_cons d j u r).1 w
    unfold SMap.put
    split
    next hk => exact (SMap.wf_cons d k v r).2 ⟨hv, hk ▸ w'.2.1, w'.2.2⟩
    next hk =>
      split
      next hlt => exact (SMap.wf_cons d k v _).2 ⟨hv, hlt, w⟩
      next hge =>
        exact (SMap.wf_cons d j u _).2 ⟨w'.1, SMap.above_put v (by omega) r w'.2.1, SMap.wf_put k hv r w'.2.2⟩

/-- A write keeps the canonical form. -/
theorem SMap.wf_set {α : Type} [DecidableEq α] {d : α} (m : SMap α) (k : Nat) (v : α) (w : SMap.wf d m = true) :
    SMap.wf d (SMap.set m d k v) = true := by
  unfold SMap.set
  split
  · exact SMap.wf_del k m w
  next hv => exact SMap.wf_put k hv m w

/-- A change in place keeps the canonical form. -/
theorem SMap.wf_upd {α : Type} [DecidableEq α] {d : α} (m : SMap α) (k : Nat) (f : α → α) (w : SMap.wf d m = true) :
    SMap.wf d (SMap.upd m d k f) = true := SMap.wf_set m k _ w

theorem SMap.above_keep {α : Type} [DecidableEq α] {d : α} {n : Nat} (p : Nat → Bool) :
    ∀ m : SMap α, SMap.wf d m = true → SMap.above n m → SMap.above n (SMap.keep m p)
  | [], _, _ => trivial
  | (j, u) :: r, w, h => by
    have w' := (SMap.wf_cons d j u r).1 w
    cases hp : p j with
    | true => simpa [SMap.keep, hp, SMap.above] using h
    | false =>
      have := SMap.above_keep p r w'.2.2 (SMap.above_trans h r w'.2.1)
      simpa [SMap.keep, hp] using this

/-- Keeping some entries keeps the canonical form. -/
theorem SMap.wf_keep {α : Type} [DecidableEq α] {d : α} (p : Nat → Bool) : ∀ m : SMap α, SMap.wf d m = true → SMap.wf d (SMap.keep m p) = true
  | [], h => h
  | (j, u) :: r, w => by
    have w' := (SMap.wf_cons d j u r).1 w
    have ih := SMap.wf_keep p r w'.2.2
    cases hp : p j with
    | true =>
      have : SMap.wf d ((j, u) :: SMap.keep r p) = true := (SMap.wf_cons d j u _).2 ⟨w'.1, SMap.above_keep p r w'.2.2 w'.2.1, ih⟩
      simpa [SMap.keep, hp] using this
    | false => simpa [SMap.keep, hp] using ih

-- ===== the record store =====

/-- Storing bytes keeps the store in canonical form. -/
theorem Memory.wf_putBytes (bs : List (BitVec 8)) : ∀ (st : Bytes) (a : Nat), Memory.wf st = true → Memory.wf (putBytes st a bs) = true := by
  induction bs with
  | nil => exact fun _ _ h => h
  | cons b r ih => exact fun st a h => ih _ _ (SMap.wf_set st a b h)

/-- Retiring a block keeps the store in canonical form. -/
theorem Memory.wf_retire (st : Bytes) (b : Nat) (h : Memory.wf st = true) : Memory.wf (retire st b) = true :=
  SMap.wf_set _ _ _ (SMap.wf_set _ _ _ h)

/-- Entering a block stores its header, and nothing else. -/
theorem State.enterBlk_store (s : State) (b lap first : Nat) :
    (s.enterBlk b lap first).store = putBytes s.store (b * 4096) (leBytes 8 lap ++ leBytes 8 first ++ List.replicate 48 0) := by
  simp only [State.enterBlk]

/-- Writing record bytes stores them, and nothing else. -/
theorem State.putRec_store (s : State) (a : Nat) (bs : List (BitVec 8)) : (s.putRec a bs).store = putBytes s.store a bs := by
  simp only [State.putRec]

/-- Entering a block keeps the store in canonical form. -/
theorem State.wf_enterBlk (s : State) (b lap first : Nat) (h : Memory.wf s.store = true) :
    Memory.wf (s.enterBlk b lap first).store = true := by
  rw [State.enterBlk_store]
  exact Memory.wf_putBytes _ _ _ h

/-- Writing record bytes keeps the store in canonical form. -/
theorem State.wf_putRec (s : State) (a : Nat) (bs : List (BitVec 8)) (h : Memory.wf s.store = true) :
    Memory.wf (s.putRec a bs).store = true := by
  rw [State.putRec_store]
  exact Memory.wf_putBytes _ _ _ h

/-- Committing a record keeps the store in canonical form. -/
theorem State.wf_writeRcd (s : State) (x : Rcd) (h : Memory.wf s.store = true) : Memory.wf (s.writeRcd x).store = true := by
  unfold State.writeRcd
  extract_lets r bs n t o room nx u1 _ _ _ _ u2 u3
  have ht : Memory.wf t.store = true := by
    unfold t
    split
    · exact State.wf_enterBlk _ _ _ _ h
    · exact h
  clear_value t
  split
  · have h1 : Memory.wf u1.store = true := State.wf_putRec t _ _ ht
    clear_value u1
    exact h1
  · have h2 : Memory.wf u2.store = true := State.wf_putRec t _ _ ht
    have h3 : Memory.wf u3.store = true := State.wf_putRec _ _ _ (State.wf_enterBlk _ _ _ _ h2)
    clear_value u3
    exact h3

/-- Writing the block map keeps the store in canonical form. -/
theorem State.wf_mapWrite (s : State) (b : Nat) (h : Memory.wf s.store = true) : Memory.wf (s.mapWrite b).store = true := by
  unfold State.mapWrite
  dsimp only
  split <;> exact Memory.wf_retire _ _ h

/-- An erased store is in canonical form. -/
theorem State.wf_eraseStore (s : State) : Memory.wf s.eraseStore.store = true := by
  unfold State.eraseStore
  exact SMap.wf_nil 0

/-- So is the store after manufacture. -/
theorem State.wf_reset : Memory.wf State.reset.store = true := by
  unfold State.reset
  exact SMap.wf_nil 0

end Sys2Proof.Machine
end

