-- ==== Sys2Proof/Laws/Stores.lean ====
section
/-! SUPPORT. What a command does beside the machine: commands of each shape leave the queue, the record store, the counter store
and the fuses as their effect leaves them. -/

namespace Sys2Proof.Machine

set_option Elab.async false

/-- Nothing but the machine differs: queue, record store, counter store and fuses are the same. -/
def State.SameStores (s t : State) : Prop := t = { s with m := t.m }

theorem State.SameStores.refl (s : State) : s.SameStores s := by unfold State.SameStores; rfl

theorem State.SameStores.trans {s t u : State} (h : s.SameStores t) (k : t.SameStores u) : s.SameStores u := by
  unfold State.SameStores at *
  rw [k, h]

/-- Any machine in the place of a state's own. -/
theorem State.SameStores.with (s : State) (m : Mach) : s.SameStores { s with m := m } := by unfold State.SameStores; rfl

theorem State.SameStores.pending {s t : State} (h : s.SameStores t) : t.pending = s.pending := by rw [h]
theorem State.SameStores.store {s t : State} (h : s.SameStores t) : t.store = s.store := by rw [h]
theorem State.SameStores.storeBad {s t : State} (h : s.SameStores t) : t.storeBad = s.storeBad := by rw [h]
theorem State.SameStores.erased {s t : State} (h : s.SameStores t) : t.erased = s.erased := by rw [h]
theorem State.SameStores.cstore {s t : State} (h : s.SameStores t) : t.cstore = s.cstore := by rw [h]
theorem State.SameStores.fuse {s t : State} (h : s.SameStores t) : t.fuse = s.fuse := by rw [h]

/-- What follows a command of its own accord changes the machine alone. -/
theorem State.settle_same (s : State) : s.SameStores s.settle := State.SameStores.with s s.m.settle

/-- The state after a command that changes the machine alone. -/
theorem State.after_same (s : State) (m : Mach) : s.SameStores (s.after m) :=
  (State.SameStores.with s m).trans (State.settle_same _)

/-- The same for a request answered OK. -/
theorem State.replied_same (s : State) (m : Mach) : s.SameStores (s.replied m) := State.after_same s _

/-- A request on the management port: its effect, or nothing but the answer. -/
theorem State.mgmt_cases (s : State) (f : State → State) :
    (s.m.up = true ∧ (f s).SameStores (s.mgmt f)) ∨ (s.m.up = false ∧ s.SameStores (s.mgmt f)) := by
  unfold State.mgmt
  cases h : s.m.up with
  | true => exact .inl ⟨rfl, State.SameStores.with (f s) _⟩
  | false => exact .inr ⟨rfl, State.SameStores.with s _⟩

/-- A request whose effect changes the machine alone. -/
theorem State.mgmt_same {s : State} {f : State → State} (hf : s.SameStores (f s)) : s.SameStores (s.mgmt f) := by
  rcases s.mgmt_cases f with ⟨_, h⟩ | ⟨_, h⟩
  · exact hf.trans h
  · exact h

/-- A register write whose effect is on the machine changes the machine alone. -/
theorem State.ctl_same (s : State) (f : Mach → Mach) : s.SameStores (s.ctl f) := State.mgmt_same (State.SameStores.with s _)

/-- What a command of the plain shape answers: a next state that differs in the machine alone. -/
theorem State.command_same {s t : State} {f : Mach → Mach} (h : s.command f = .next t) : s.SameStores t := by
  cases h
  exact (State.ctl_same s f).trans (State.settle_same _)

/-- What an event of the plain shape answers: a next state that differs in the machine alone. -/
theorem State.run_same {s t : State} {f : Mach → Mach} (h : s.run f = .next t) : s.SameStores t := by
  unfold State.run State.event at h
  cases h
  split
  · exact (State.SameStores.with s _).trans (State.settle_same _)
  · exact State.SameStores.refl s

/-- An event whose effect changes the machine alone. -/
theorem State.event_same {s t : State} {f : State → State} (hf : ∀ u : State, u.SameStores (f u)) (h : s.event f = .next t) :
    s.SameStores t := by
  unfold State.event at h
  cases h
  split
  · exact (hf s).trans (State.settle_same _)
  · exact State.SameStores.refl s

/-- A request whose effect changes the machine alone. -/
theorem State.request_same {s t : State} {f : State → State} (hf : ∀ u : State, u.SameStores (f u)) (h : s.request f = .next t) :
    s.SameStores t := by
  unfold State.request at h
  cases h
  exact (State.mgmt_same (hf s)).trans (State.settle_same _)

/-- A held block leaves everything as it is. -/
theorem State.event_down {s : State} (f : State → State) (h : s.m.up = false) : s.event f = .next s := by
  simp [State.event, h]

/-- The copy of the counters that the island keeps goes to the counter store alone (R373). -/
theorem State.cstorePut_store (s : State) : s.cstorePut.store = s.store ∧ s.cstorePut.fuse = s.fuse ∧ s.cstorePut.pending = s.pending := by
  simp only [State.cstorePut, and_self]

/-- A bus parity error changes nothing but the answer. -/
theorem State.parityError_same (s : State) : s.SameStores s.parityError := State.SameStores.with s _

/-- Reading a register changes the machine alone. -/
theorem State.readReg_same (s : State) (w : World) (a : Nat) : s.SameStores (s.readReg w a).1 := by
  unfold State.readReg
  dsimp only
  split
  · exact State.SameStores.with s _
  · exact State.SameStores.refl s
  · split
    · exact State.SameStores.with s _
    · exact State.SameStores.refl s

end Sys2Proof.Machine
end

