-- ==== Sys2Proof/Tests/Slice0.lean ====
section
/-! SUPPORT. The tests of the model: ill-formed commands are refused by their checks, single steps that spec/ works out, and for every
statement with hypotheses states and operands that meet them. -/

namespace Sys2Proof.Tests

set_option Elab.async false

open Sys2Proof Sys2Proof.Machine

-- ===== small states =====

/-- A machine in service: every domain ON, the controllers running, homed space, one seed, spill directory and descriptors placed. -/
def wMach : Mach :=
  ({ up := true, step := 8, doms := (List.range 247).map fun d => (d, .on), ctrl := (List.range 3).map fun c => (c, { run := 1 }),
     regs := [(Reg.glbHbaseLo, 0x40000000), (Reg.glbHsize, 0x80000022), (Reg.glbSpbaseLo, 0x60000000), (Reg.glbSpsize, 0x8000001C),
       (Reg.rmpSeedBaseLo, 0x40000000), (Reg.rmpSeedCfg, 0x80002200), (Reg.qobDescBaseLo, 0x70000000)] } : Mach)

/-- A state with that machine changed. -/
def wWith (f : Mach → Mach) : State := { m := f wMach }

/-- In service, every port DOWN. -/
def wOn : State := wWith id

/-- With a port UP and holding credits. -/
def wUp (v : Port) (m : Mach) : Mach := { m with ports := [(3, v), (16, { st := .up, peer := [9, 9, 9, 9, 9, 9, 9, 9, 9] })] }

/-- With port 3 and memory port 16 UP. -/
def wUp3 : Mach → Mach := wUp { st := .up }
def wPort : State := wWith wUp3

/-- Slice 0 changed, ports 3 and 16 UP. -/
def wSl (f : Slice → Slice) : State := wWith fun m => (wUp3 m).setSlice 0 (f (Slice.fresh 0))

/-- A request of agent 3 at port 3. -/
def wReq (pa : PA) : Req := { port := 3, agent := 3, tid := 7, rqid := 4, w := .ns, pa, sz := 0 }

def wDtw (ans : Bool) : Dtw := { port := 3, agent := 3, ans, tid := 7, htag := 0, psn := false, data := 5 }
def wO : Outst := { agent := 3, tid := 7, key := some 0, dtw := true, at_ := some (0, 0) }
def wOut (o : Outst) : State := wWith (wUp { st := .up, outs := [o], peer := [9, 9, 9, 9, 9, 9, 9, 9, 9] })
def wTe (fwd : Option Opc) : TE := { st := .active, kind := .rds, ph := .collect, pend := 8, agent := 5, port := 5, lst := 2, own := 3, snp := { fwd, owner := fwd.map fun _ => 3, sni := if fwd.isSome then 0 else 8 } }
def wSnoop (fwd : Option Opc) : State := wSl fun v => { v with te := [(0, wTe fwd)] }
def wFwd : State := wWith (wUp { st := .up, fwdq := [{ target := 5, msg := { op := .dts } }] })
def wFwdAns : State := wWith fun m => (wUp { st := .up, fwdq := [{ target := 5, msg := { op := .dts, agent := 5 } }] } m).setSlice 0 { Slice.fresh 0 with te := [(0, wTe none)] }
def wRspq : State := wWith fun m => (wUp { st := .up, rspq := [.sri { port := 3, agent := 3, htag := 0, kst := 0 }] } m).setSlice 0 { Slice.fresh 0 with te := [(0, wTe none)] }
def wFrozen : State := wSl fun v => { v with run := .frozen }
def wRead (u : RUse) : State := wSl fun v => { v with rbuf := [(3, some { use := u, port := 16, off := 0, htag := 5, ord := 0 })] }
def wDrop : State := wSl fun v => { v with rbuf := [(3, some { use := .data 0, port := 16, off := 0, htag := 5, ord := 0, drop := true, fill := some 0x100 })] }
def wWr (u : WUse) : Wr := { op := .mwr, port := 16, off := 0, mask := 0, use := u, seq := 0, htag := 5 }
def wWrite (u : WUse) : State := wSl fun v => { v with dbuf := [(2, { wr := some (wWr u) })] }
def wWc (x : Option Wr) : WcBuf := { key := 0, data := 0, mask := 1, attr := 0, notes := [(3, 1)], last := 0, wr := x }
def wWcWrite : State := wSl fun v => { v with wc := [(1, some (wWc (some (wWr .demand))))] }
def wWcWrite0 : State := wSl fun v => { v with wc := [(1, some (wWc none))] }
def wWcDown : State := wWith fun m => m.setSlice 0 { Slice.fresh 0 with wc := [(1, some (wWc none))] }
/-- CXL port 24 UP, with an HDM-DB range. -/
def wCx (v : Port) : State := wWith fun m =>
  { m with ports := [(16, { st := .up }), (24, { v with st := .up })], regs := m.regs ++ [(portA 24 (Reg.ipHdmBaseLo + 8), 0x80000114)] }
def wCxl : State := wCx {}
def wCxlFull : State := wCx { bisn := (List.range 64).map fun i => { idx := i, biId := 0, biTag := 0, len := 0, off := 0, left := 1 } }
def wMbs : State := { wCx { mbsq := [{ idx := 0, sec := 0, lines := 3, last := true }] } with m := (wCx { mbsq := [{ idx := 0, sec := 0, lines := 3, last := true }] }).m.setFld Reg.glbCrslc 16 3 1 }
def wMbr (n : Nat) : State := wCx { mbrq := [0], bisn := [{ idx := 0, biId := 1, biTag := 2, len := 1, off := 128, left := n }] }
def wNotes : State := wWith (wUp { st := .up, notes := [{ seq := 0, lost := true }], wo := [{ seq := 0, agent := 3, rqid := 4, tid := 7, out := true, done := false, lost := false }] })
def wMcl (l : List Nat) : State := wWith (wUp { st := .up, mnotes := [(0, 3, 4)], mcls := [{ agent := 3, rqid := 4, tid := 7, left := l }] })
-- turns
def wWait : State := wSl fun v => { v with te := [(1, { st := .wait, ph := .turn })], wl := [{ key := 0, q := [1] }] }
def wRebuild (l : BitVec 2) : State :=
  wSl fun v => { v with te := [(1, { st := .wait, kind := .rebuild, ph := .turn, got := l })], wl := [{ key := if l = 1 then 1 else 0, q := [1] }] }
def wRebuildOne (k : BitVec 41) : State :=
  wSl fun v => { v with te := [(1, { st := .wait, kind := .rebuild, ph := .turn })], wl := [{ key := k, q := [1] }, { key := k ^^^ 1, q := [2, 1] }] }
def wAct (kind : TKind) (ph : Phase) : TE := { st := .active, kind, ph, port := 3, agent := 3 }
def wActive (kind : TKind) (ph : Phase) : State := wSl fun v => { v with te := [(1, wAct kind ph)] }
def wActiveWb : State := wSl fun v => { v with te := [(1, { wAct .rds .reserve with attr := some 0x30 })] }
def wActiveNc : State := wSl fun v => { v with te := [(1, { wAct .rds .reserve with attr := some 1 })] }
def wActiveFar : State := wSl fun v => { v with te := [(1, { wAct .atm .reserve with attr := some 0x30, far := true })] }
def wActiveHit : State := wSl fun v => { v with te := [(1, wAct .rds .wayWait)], ss := [(0, BitVec.ofNat 54 (withPar 6 1))] }
def wActiveRefill : State := wSl fun v => { v with te := [(1, { wAct .rds .wayWait with refill := some 0 })] }
-- links
def wFlit (n : Nat) : BitVec 640 :=
  let b : BitVec 608 := BitVec.ofNat 608 (n * 256 + 1)
  crc32c 76 b.toNat ++ b
def wLink (st : LinkSt) : State := wWith (wUp { st })
def wNakd : State := wWith (wUp { st := .up, nakd := true })
def wReplay : State := wWith (wUp { st := .up, rpl := [{ seq := 0, msg := { op := .cmp }, part := 0 }] })
def wDown : State := wOn
-- snoop filter
def wVictim (up : Bool) (w : Option Bool) : State :=
  wWith fun m => (if up then wUp3 m else m).setSlice 0 { Slice.fresh 0 with vbuf := [{ sec := 0, word := 0, w }] }
def wCopy : State := wSl fun v => { v with ss := [(0, BitVec.ofNat 54 (withPar 6 1))], sf := [(0, BitVec.ofNat 72 (withPar 8 1))] }
def wRecount : State := wSl fun v => { v with rcq := [5] }
def wRbq : State := wSl fun v => { v with rbq := [(1, 0)] }
def wSimp : State := wSl fun v => { v with ss := [(5, BitVec.ofNat 54 (withPar 6 (2 ^ 45)))] }
def wSweep : State := wSl fun v => { v with swp := some { sets := [5], done := 0, tag := 0, queued := [] } }
def wAuto : State := wWith fun m => m.setReg (hsA 0 Reg.hsSfctl) 1
def wBankOff : State := wSl fun v => { v with bank := #v[.on, .off, .on, .on] }
def wBankOffCold : State :=
  wWith fun m => { m with doms := (List.range 246).map fun d => (d + 1, .on) }.setSlice 0 { Slice.fresh 0 with bank := #v[.on, .off, .on, .on] }
def wEvac : State := wSl fun v => { v with evac := some { bank := some 1, set := 0, way := 0 } }
-- queue objects, Tamper, Crema
def wFirst (n : Nat) : State := wWith fun m => m.setFld Reg.qobWcfg 16 11 n
def wHo : QHo := { cur := 0, first := 0, last := 1024, newFirst := 1 }
def wQho : State := wWith fun m => { m with qho := some wHo }
def wTamper : State := wOn
def wZero : State := wWith fun m => m.setReg Reg.tmpBaseLo 0x80000000
def wOp (op : BitVec 4) : TmpOp := { op, base := if op = 5 then 0x20000000 else 0, log2 := 20, il := false, all := false, owner := .ns }
def wTmp (op : BitVec 4) : State := wWith fun m => { wUp3 m with tmp := some (wOp op) }
def wScrub : State := wTmp 5
def wQs : QSlot :=
  { qid := 0, sec := false, cap := 5, notify := false, nlost := false, ring := 0x40000000, tail := 3, read := 0, rel := 0, mark := 0, dba := 0,
    dbv := 0, last := 0, twin := 0, tcrc := lineCrc 0, hline := none, hwin := 0, hcrc := lineCrc 0 }
def wOp2 : TmpOp := { wOp 2 with known := some (0, 0, some 0x100) }
def wSlot : State := wWith fun m => { (wUp3 m).setSlice 0 { Slice.fresh 0 with slot := [(0, some wQs)] } with tmp := some wOp2 }
def wFresh : State := wWith fun m => m.setReg Reg.crmStat 0
def wStale : State := wWith fun m => m.setReg Reg.crmStat 1
def wPf : State := wWith fun m =>
  { ((wUp3 m).setSlice 0 { Slice.fresh 0 with pfq := [{ off := 0, sec := false }] }).setReg Reg.crmCtl 5 with
    groups := [(0, { rc := [{ base := 0, log2 := 20, leaf := 0x3000 }] })] }.setReg Reg.rmpCtl 2
def wLkOn : State := wWith fun m => (m.setReg Reg.crmCtl 1).setReg Reg.crmLkbaseLo 0x40000000
def wLkc (b : Bool) : LkCmd := { lock := b, base := 0, log2 := 20, sec := false }
def wLk (b : Bool) : State := wWith fun m => { wUp3 m with lk := some (wLkc b) }
def wWipe : State := wSl fun v => { v with wipe := some (1023, 0x1000) }
-- ports, resets, power
def wQuiet : State := wWith fun m => (wUp3 m).setReg (portA 3 Reg.pLctl) 1
def wDrain (d : Drain) : State := wWith fun m => { m with drain := some d }
def wZer : State := wSl fun v => { v with zeroise := some { bank3 := false, ways := 0, slots := 0 } }
def wStore : State := { State.reset with cstore := State.reset.cstore.set 4 (5, 0) }
def wStep (n : Nat) : State := wWith fun m => { m with step := n }
def wStepDec : State := wWith fun m => { m with step := 2 }.setReg Reg.secLcstat 4
def wStep3 : State := wStep 3
def wStep6 (st : LinkSt) : State :=
  wWith fun m => { m with step := 6, ports := (List.range 28).map fun p => (p, { st := if p = 16 then st else .init }) }
def wSeed : Nat × Nat × Nat := (0x40000000, 34, 0)
def wImg : Image := { readOk := true, words := 1, sigOk := true, excl := [], cfg := [], snap := [], patches := [] }
/-- In service, but for the state of one domain. -/
def wDom (x : Nat) (st : DomSt) : State := wWith fun m => m.setDom x st
def wDoms : State := wDom 217 .off
def wWaking : State := wDom 217 .waking
def wDraining (d : Nat) : State := wDom d .draining
def wCold : State := wDom 0 .off
def wFreq : State := wWith fun m => { m with freqTo := some 16 }
def wHot : State := wWith fun m => { m with tmon := 1 }
-- controllers, faults, recovery
def wCtrl : State := wOn
def wHeld (c : Nat) : State := wWith fun m => { m with ctrl := [(c, { run := 3 })] }
def wCaps : State := wWith fun m => { m with caps := [1] }
def wSf (n : Nat) : Safe := { step := n, cause := 0, addr := 0 }
def wSafe (n : Nat) : State := wWith fun m => { m with safe := some (wSf n) }
def wRhr (b : Bool) : Rehome := { ls := 0, old := 0, new := 32, freeze := b, stopped := false, why := .cmd }
def wRh (b : Bool) : State := wWith fun m => { wUp3 m with rehome := some (wRhr b) }
def wCp : Copy := { old := 33, next := 0, done := [], ss := [], sf := [], off := 0 }
def wCopySf : State := wSl fun v => { v with copy := some wCp }
def wOsw : State := wWith fun m => m.setSlice 0 { Slice.fresh 0 with osw := some { agent := 3, set := 0, lostN := 0 } }
-- recorder
def wRcd : Rcd := { typ := 1, snap := false, sec := false, pay := [1, 2, 3, 4, 5, 6, 7, 8], seq := 0, opsec := 0, pcc := 0, origin := 0 }
def wRcr (f : RecSt → RecSt) : State := wWith fun m => { m with rcr := f { ready := true } }
def wRec : State := wRcr fun r => { r with buf := [wRcd], flush := true }
def wSpent : State := wRcr fun r => { r with buf := [wRcd], flush := true, spent := flushBudget }
def wPaused : State := wRcr fun r => { r with paused := true }
def wScan : State := wRcr fun r => { r with ready := false }
def wSnap : State := wRcr fun r => { r with run := [(0, 1)] }
def wPeriod : State := wWith fun m => m.setReg Reg.recPeriod 5
def wFrz : State := wRcr fun r => { r with frozen := true }
-- self-test, lifecycle
def wMbt (n : Nat) : Mbist := { hs := 0, crm := true, bank := 0, stage := n }
def wMb (n : Nat) : State := wWith fun m => { m with mbist := some (wMbt n) }
def wLb : State := wWith fun m => { m with lbist := true }
/-- The words of a public key. -/
def wKeyWords (k : Nat × Nat) : List W32 :=
  (List.range 24).map fun i => BitVec.ofNat 32 ((if i < 12 then k.1 else k.2) / 2 ^ (32 * (i % 12)))
def wProv : State := wWith fun m => { m with regs := m.regs.filter (fun e => e.1 < Reg.secKey) ++ ((List.range 24).map fun i => (Reg.secKey + 4 * i, (wKeyWords ecG).getD i 0)) ++ m.regs.filter (fun e => Reg.secKey < e.1) }
def wLife (n : W32) : State := wWith fun m => m.setReg Reg.secLcstat n
def wLct (stage : Nat) (t : Fin 5) : LcTrans := { target := t, stage }
def wLc (stage : Nat) (t : Fin 5) : State := wWith fun m => { m with lc := some (wLct stage t) }
def wPatch : State := wWith fun m => { m with ctrl := [(2, { run := 2 })] }.setReg (Reg.secPatch + 8) 0x40000003
def wHq : State := wWith fun m => { m with heldq := [(0x1024, 0xC0010)] }
def wMsp : State := wSl fun v => { v with msp := some { array := 2, chunk := 0, idx := 0 } }
def wHeldLo : State := wWith fun m => { m with heldLo := [(Reg.tmpBaseLo, some 0x100000)] }
/-- An authorisation block (Table 15-6) of a device whose identity and power-cycle count read 0, signed with the key fused there. The
signatures are solutions of the verification equation with small factors. -/
def wAuth (purpose : W32) (key : Nat × Nat) (r x : Nat) : State :=
  let regs := (List.range 24).map fun i => (Reg.secAuth + 32 + 4 * i, (wKeyWords (r, x)).getD i 0)
  let m : Mach := { wMach with regs := wMach.regs.filter (fun e => e.1 < Reg.secAuth) ++ (Reg.secLcstat, 1) :: (Reg.secAuth + 12, purpose) :: regs ++ wMach.regs.filter fun e => Reg.secAuth < e.1 }
  { m, fuse := { key := wKeyWords key } }
def wAuthRma : State := wAuth 1
  (0xa059fb5f4101a29b61bbd92058adbd9667e9a74cb0ac383418ec88a42ff83b22b284782574c99a6034cecbb1378fcb57, 0x7362958f48b8489ac46a8f4a185b13dbb1ba8368fd51d18adde7e6773fc81d3f81eee7e7298420d24138cf0707fe7cec)
  0xf67df111a8d0970ba0c88d9a74433b395f8cad5be07b2eb909a237489c7993dac108793042c8160e165ef3b1e25c5c45 0xfb3ef888d4684b85d06446cd3a219d9cafc656adf03d975c6882c265485860dd0c91437145bc5ec481a5868e5790c2dc
def wAuthDebug : State := wAuth 4
  (0x9a51111e5e24468dc387de382405a17a3bc61f29334fef7c951e78c518c1a6c65f06c4f416a5ef8ca1b22bb70ee9ab02, 0x7869e3a7b5397b31d46202f7c94252a29240443de0e511fbe1310a11906605678d2fb8cd93f074d850be4181a76e30f6)
  0x65d14b4686e805de5b8991c340c4eb12b60c0235bce2a06a493830086d7710a1a42126282f54bc7ad5e2bb6e7fca2a58 0x65d14b4686e805de5b8991c340c4eb12b60c0235bce2a06a493830086d7710a1a42126282f54bc7ad5e2bb6e7fca2a58

/-- CP is held in reset. -/
def wCpDown : State := wWith fun m => { m with ctrl := [(0, { run := 3 })], doms := m.doms.map fun x => if x.1 = 217 then (217, .off) else x }
def wSnapGot : State := wRcr fun r => { r with run := [(0, 1)], got := [(0, some (0, 0))] }

-- ===== single steps =====

/-- The machine after one step with a command at the front of the queue. -/
def ran (c : Instr) (s : State) : Mach := match step { s with pending := [c] } with | .next t => t.m | _ => s.m
/-- The state after it. -/
def then_ (s : State) (c : Instr) : State := { s with m := ran c s }
/-- What a read of an NS requester answers. -/
def reads (s : State) (a : BitVec 20) : MgmtSt × W32 := (ran (.loRead .ns a) s).resp

-- WellFormed refuses an operand that no interface carries: one term for each check
theorem test_wf_rate : WellFormed (.retrainComplete 3 9 64) = false := by decide
theorem test_wf_lanes : WellFormed (.linkTrained 3 8 65) = false := by decide
theorem test_wf_ptype : WellFormed (.init { port := 3, ack := { ackV := false, ackSeq := 0, nak := false, crCls := 0, crCnt := 0 } } 3 1) = false := by decide
theorem test_wf_evict_sector : WellFormed (.evictVictim 0 64) = false := by decide
theorem test_wf_copy_sector : WellFormed (.copyRemoval 0 64) = false := by decide
theorem test_wf_bisnp_port : WellFormed (.bisnp 3 .inv 0 128 0 0) = false := by decide
theorem test_wf_bisnp_offset : WellFormed (.bisnp 24 .inv 0 32 0 0) = false := by decide
theorem test_wf_mbs : WellFormed (.mbs 16) = false := by decide
theorem test_wf_mbr : WellFormed (.mbr 3) = false := by decide
theorem test_wf_wake : WellFormed (.domainWakeDone 247) = false := by decide
theorem test_wf_drain : WellFormed (.domainDrainDone 255) = false := by decide
theorem test_wf_image : WellFormed (.bringupStepDone { wImg with patches := [[], [], [], []] }) = false := by decide
theorem test_wf_good : WellFormed (.retrainComplete 3 8 64) && WellFormed (.bisnp 24 .inv 0 64 0 0) && WellFormed (.domainWakeDone 246) = true := by decide

-- 02: homing and walking one address
theorem test_homing : lsOf 0x023456789AC0 = 22 := by decide +kernel
theorem test_leaf : (let a := leafAttr 0x303057; (atWb a, atEack a, atSec a, atAlloc a, atPf a, atQob a, atPort a)) = (true, false, false, true, true, false, 19) := by decide
-- 04: one sector through the filter and the spill directory
theorem test_set_index : (setOf (secOf 0x023456789AC0), tagOf (secOf 0x023456789AC0)) = (0x13C0, 0x11A2B3) := by decide +kernel
theorem test_entry : mkEntry 0x11A2B3 0x280 2 7 2 9 false = 0x08D1598001404792 := by decide
theorem test_entry_parity : parBits 8 0x08D1598001404792 = 0x9D := by decide +kernel
theorem test_tag_fold : thOf 3 0x11A2B3 % 2 = 1 := by decide +kernel
-- 06 and 09: the indices of line 1 of the running example
theorem test_counter_index : predIdx (keyOf 0x023456789AC0) = 0xF24 := by decide
theorem test_crema_set : (crmSet (keyOf 0x023456789AC0), keyOf 0x023456789AC0) = (0x125, 0x08D159E26B) := by decide
-- 09: the sectors of LS22 in three pages
theorem test_page_sector : (pageSector 0x23456789 22, pageSector 0x2345678A 22, pageSector 0x2345678C 22) = (0x023456789A80, 0x02345678AB00, 0x02345678C800) := by decide +kernel
-- 08: the descriptor that CREATE writes
theorem test_desc_word : descW0 1 false true false 10 0 0x2A36 = 0x00002A3600000A09 := by decide
-- 00: management addresses
theorem test_windows : (primary 0x4420, primary 0x4820, primary 0x4C20, hscA 5 0, hsA 5 0) = (0x4020, 0x4020, 0x4020, 0xC5000, 0x85000) := by decide
-- 16: a refused write and its repair
def wRefused : State := then_ wOn (.registerWrite .ns 0x4020 7)
theorem test_refused_write : (wRefused.m.reg Reg.fltCtl, (reads wRefused 0x4010).2) = (0x10, 0x81000008) := by decide +kernel
theorem test_refused_sum : (reads wRefused (BitVec.ofNat 20 Reg.glbErrsum)).2 = 0x10 := by decide +kernel
theorem test_set_window : (ran (.registerWrite .s 0x4420 7) wRefused).reg Reg.fltCtl = 0x17 := by decide +kernel
theorem test_clear_pg_err : (reads (then_ wRefused (.registerWrite .ns 0x4810 0x80000000)) 0x4010).2 = 0 := by decide +kernel
theorem test_refused_twice : (reads (then_ wRefused (.registerWrite .ns 0x4020 7)) 0x4010).2 = 0xC1000008 := by decide +kernel
-- 00: a _HI read with no _LO read before it returns zero (R4); before POR is released nothing is answered (R20)
theorem test_hi_without_lo : reads (then_ wOn (.pairHiWrite .ns 0x9028 5)) 0x9028 = (.ok, 0) := by decide +kernel
theorem test_unavailable : (reads State.reset 0x4).1 = .unavail := by decide +kernel
-- FIPS 180-4, SHA-384 of "abc"; the base point of P-384 lies on the curve
theorem test_sha : sha384 [0x61, 0x62, 0x63] = 0xcb00753f45a35e8bb5a03d699ac65007272c32ab0eded1631a8b605a43ff5bed8086072ba1e7cc2358baeca134c825a7 := by decide +kernel
theorem test_curve : ecValid ecG.1 ecG.2 = true := by decide +kernel
-- the table gives its rows no bits, so no word spells a command
theorem test_no_word : decodeTableWord 32 0 = none := by decide
theorem test_fetch_nothing : wOn.withFetchWord 32 7 = wOn := by rfl


-- ===== what the statements suppose can be met, one part for each clause =====

theorem met_ManagementRequestsAreServed :
(∃ (s : State) (addr : BitVec 20), s.m.up = true ∧ (pageRows s.m.integ (addr.toNat / 0x1000)).isNone = true) ∧
(∃ (s : State) (w : World) (a : Nat), s.m.up = true ∧ (a = Reg.pwrCtl ∨ a = Reg.pwrLpidle ∨ a = Reg.glbAtmfar ∨ a = Reg.fltCtl ∧ w = .s)) ∧
(∃ (s : State) (w : World) (a : Nat) (lo : W32), s.m.up = true ∧ (a = Reg.tmpBaseLo ∨ a = Reg.crmLkbaseLo) ∧ s.m.heldLo.get none (worldReg
      w (a + 4) - 4) = some lo) ∧
(∃ (s : State) (a : Nat), s.m.up = true ∧ (a = Reg.tmpBaseLo ∨ a = Reg.crmLkbaseLo)) ∧
(∃ (s : State) (addr : BitVec 20), s.m.up = true ∧ s.m.half (primary addr.toNat) = 1) ∧
(∃ (s : State) (addr : BitVec 20), s.m.up = true ∧ s.m.half (primary addr.toNat) = 2) ∧
(∃ (s : State) (addr : BitVec 20), s.m.up = true ∧ s.m.half (primary addr.toNat) = 0 ∧ primary addr.toNat ≠ Reg.aonUsec) ∧
(∃ (s : State), s.m.up = true) :=
⟨⟨wOn, 0x10020, by decide +kernel⟩,
⟨wOn, .ns, Reg.pwrCtl, by decide +kernel⟩,
⟨wHeldLo, .ns, Reg.tmpBaseLo, 0x100000, by decide +kernel⟩,
⟨wOn, Reg.tmpBaseLo, by decide +kernel⟩,
⟨wOn, 0x9024, by decide +kernel⟩,
⟨wOn, 0x9028, by decide +kernel⟩,
⟨wOn, 0x1020, by decide +kernel⟩,
⟨wOn, by decide +kernel⟩⟩

theorem met_SecureCommandsRefuseTheNormalWorld : ∃ (s : State), s.m.up = true :=
⟨wOn, by decide +kernel⟩

theorem met_EmptyQueueIdles : ∃ s : State, s.pending = [] :=
⟨State.reset, by decide +kernel⟩

theorem met_StepKeepsStoreCanonical : ∃ s t : State, s.StoreCanonical ∧ step s = .next t :=
⟨State.reset, State.reset, by unfold State.StoreCanonical; decide, rfl⟩

theorem met_StepKeepsFusesLegal : ∃ s t : State, s.FusesLegal ∧ step s = .next t :=
⟨State.reset, State.reset, ⟨by decide, fun c => ⟨0, by decide, by fin_cases c <;> rfl⟩⟩, rfl⟩

theorem met_CommandsLeaveOtherStoresAlone : ∃ (c : Instr) (s t : State), exec c s = .next t ∧ storesRecords c = false ∧ burnsFuses c =
    false ∧ writesCounters c = false :=
⟨.warmReset, State.reset, State.reset, by rfl, rfl, rfl, rfl⟩

theorem met_CommandsInPorDoNothing : ∃ (c : Instr) (s : State), c ≠ .por ∧ c ≠ .porRelease ∧ s.m.up = false ∧ s.m.still = true :=
⟨.warmReset, State.reset, by decide +kernel⟩

theorem met_SettledStatesStay : ∃ s : State, s.m.still = true :=
⟨State.reset, by decide +kernel⟩

theorem met_CounterAndControlWritesTouchRegistersOnly : ∃ (s : State) (c : Instr), s.m.up = true ∧ s.m.still = true ∧ c ∈ [.tmpAck .ns 3,
    .ack .ns] :=
⟨wOn, .ack .ns, by decide +kernel⟩

theorem met_TablesReadBackWhatWasWritten : ∃ (m m' : SMap (BitVec 8)) (d : BitVec 8), SMap.wf d m = true ∧ SMap.wf d m' = true ∧ m = m' :=
⟨[(3, 1)], [(3, 1)], 0, by decide +kernel⟩

theorem met_FlushWritesOnlyItsRecord : ∃ (s : State) (x : Rcd) (rest : List Rcd), s.m.up = true ∧ Memory.wf s.store = true ∧ s.m.rcr.buf =
    x :: rest ∧ s.m.rcr.writes = true ∧ (s.m.rcr.exempt = true ∨ s.m.rcr.spent + s.flushCost x.len ≤ flushBudget) ∧ s.m.rcr.off ≤ 4096 :=
⟨wRec, wRcd, [], by decide +kernel⟩

theorem met_ParityFindsEverySingleFlip : ∃ n w i k : Nat, n ≤ 8 ∧ w < 2 ^ (8 * n) ∧ i < 8 * n ∧ k < n :=
⟨8, 5, 63, 7, by decide +kernel⟩

theorem met_BucketsLieInTheirShare : ∃ z : Nat, 28 ≤ z ∧ z ≤ 34 :=
⟨28, by decide +kernel⟩

theorem met_GlobalVersionRegisterReads : ∃ s : State, s.m.up = true :=
⟨wOn, by decide +kernel⟩

theorem met_ReadAtIdlePortsTakesAnEntry : ∃ (s : State) (r : Req) (off : Off) (h t : Nat) (pool : Pool), s.m.up = true ∧ s.m.yard = none ∧
    s.m.takesReq (.rds r) r = true ∧ s.m.homed r.pa.toNat = some off ∧ s.m.lineFree r off = true ∧
  (∀ p < 28, (s.m.port p).heldq = []) ∧
    h = s.m.hsOf (lsOf off).toNat ∧ (s.m.slice h).ls = (lsOf off).toNat ∧ s.m.serving h = true ∧ s.m.grant h r.port.val false = some pool
    ∧ (s.m.slice h).freeTe = some t :=
⟨wPort, wReq 0x40000000, 0, 0, 0, .shared, by decide +kernel⟩

theorem met_LineRequestsJoinTheirPort :
(∃ (s : State) (r : Req) (off : Off), s.m.up = true ∧ s.m.yard = none ∧ s.m.takesReq (.rds r) r = true ∧ s.m.homed r.pa.toNat = some off ∧
      s.m.lineFree r off = true) ∧
(∃ (s : State) (r : Req) (off : Off), s.m.up = true ∧ s.m.yard = none ∧ s.m.takesReq (.rdo r) r = true ∧ s.m.homed r.pa.toNat = some off ∧
      s.m.lineFree r off = true) ∧
(∃ (s : State) (r : Req) (off : Off), s.m.up = true ∧ s.m.yard = none ∧ s.m.takesReq (.rdc r) r = true ∧ s.m.homed r.pa.toNat = some off ∧
      s.m.lineFree r off = true) ∧
(∃ (s : State) (r : Req) (off : Off), s.m.up = true ∧ s.m.yard = none ∧ s.m.takesReq (.upg r) r = true ∧ s.m.homed r.pa.toNat = some off ∧
      s.m.lineFree r off = true) ∧
(∃ (s : State) (r : Req) (off : Off), s.m.up = true ∧ s.m.yard = none ∧ s.m.takesReq (.wrl r) r = true ∧ s.m.homed r.pa.toNat = some off ∧
      s.m.lineFree r off = true) ∧
(∃ (s : State) (r : Req) (mask : Mask) (off : Off), s.m.up = true ∧ s.m.yard = none ∧ s.m.takesReq (.wrp r mask) r = true ∧ s.m.homed
      r.pa.toNat = some off ∧ s.m.lineFree r off = true) ∧
(∃ (s : State) (r : Req) (off : Off), s.m.up = true ∧ s.m.yard = none ∧ s.m.takesReq (.wbd r) r = true ∧ s.m.homed r.pa.toNat = some off ∧
      s.m.lineFree r off = true) ∧
(∃ (s : State) (r : Req) (off : Off), s.m.up = true ∧ s.m.yard = none ∧ s.m.takesReq (.evh r) r = true ∧ s.m.homed r.pa.toNat = some off) ∧
(∃ (s : State) (r : Req) (aop : BitVec 8) (a : BitVec 128) (b : BitVec 128) (off : Off), s.m.up = true ∧ s.m.yard = none ∧ s.m.takesReq
      (.atm r aop a b) r = true ∧ s.m.homed r.pa.toNat = some off ∧ s.m.lineFree r off = true) ∧
(∃ (s : State) (r : Req) (off : Off), s.m.up = true ∧ s.m.yard = none ∧ s.m.takesReq (.rsl r) r = true ∧ s.m.homed r.pa.toNat = some off ∧
      s.m.lineFree r off = true) ∧
(∃ (s : State) (r : Req) (off : Off), s.m.up = true ∧ s.m.yard = none ∧ s.m.takesReq (.scd r) r = true ∧ s.m.homed r.pa.toNat = some off ∧
      s.m.lineFree r off = true) :=
⟨⟨wPort, wReq 0x40000000, 0, by decide +kernel⟩,
⟨wPort, wReq 0x40000000, 0, by decide +kernel⟩,
⟨wPort, wReq 0x40000000, 0, by decide +kernel⟩,
⟨wPort, wReq 0x40000000, 0, by decide +kernel⟩,
⟨wPort, wReq 0x40000000, 0, by decide +kernel⟩,
⟨wPort, wReq 0x40000000, 1, 0, by decide +kernel⟩,
⟨wPort, wReq 0x40000000, 0, by decide +kernel⟩,
⟨wPort, wReq 0x40000000, 0, by decide +kernel⟩,
⟨wPort, { wReq 0x40000000 with sz := 3 }, 1, 1, 0, 0, by decide +kernel⟩,
⟨wPort, { wReq 0x40000000 with sz := 3 }, 0, by decide +kernel⟩,
⟨wPort, { wReq 0x40000000 with sz := 3 }, 0, by decide +kernel⟩⟩

theorem met_QueueOperationsJoinTheirPort :
(∃ (s : State) (r : Req) (qid : BitVec 20) (n : BitVec 4) (word : W64), s.m.up = true ∧ s.m.yard = none ∧ s.m.takesReq (.qenq r qid n
      word) r = true) ∧
(∃ (s : State) (r : Req) (qid : BitVec 20) (n : BitVec 4), s.m.up = true ∧ s.m.yard = none ∧ s.m.takesReq (.qenq8 r qid n) r = true) ∧
(∃ (s : State) (r : Req) (qid : BitVec 20) (n : BitVec 4), s.m.up = true ∧ s.m.yard = none ∧ s.m.takesReq (.qdeq r qid n) r = true) ∧
(∃ (s : State) (r : Req) (qid : BitVec 20) (n : BitVec 4), s.m.up = true ∧ s.m.yard = none ∧ s.m.takesReq (.qpeek r qid n) r = true) ∧
(∃ (s : State) (r : Req) (qid : BitVec 20) (n : BitVec 4), s.m.up = true ∧ s.m.yard = none ∧ s.m.takesReq (.qmark r qid n) r = true) ∧
(∃ (s : State) (r : Req) (qid : BitVec 20) (n : BitVec 4), s.m.up = true ∧ s.m.yard = none ∧ s.m.takesReq (.qrewind r qid n) r = true) ∧
(∃ (s : State) (r : Req) (qid : BitVec 20) (n : BitVec 4), s.m.up = true ∧ s.m.yard = none ∧ s.m.takesReq (.qrelease r qid n) r = true) :=
⟨⟨wPort, wReq 0, 5, 0, 9, by decide +kernel⟩,
⟨wPort, wReq 0, 5, 1, by decide +kernel⟩,
⟨wPort, wReq 0, 5, 0, by decide +kernel⟩,
⟨wPort, wReq 0, 5, 0, by decide +kernel⟩,
⟨wPort, wReq 0, 5, 0, by decide +kernel⟩,
⟨wPort, wReq 0, 5, 0, by decide +kernel⟩,
⟨wPort, wReq 0, 5, 0, by decide +kernel⟩⟩

theorem met_BarriersAndMonitorClearsJoin :
(∃ (s : State) (r : Req), s.m.up = true ∧ s.m.takesReq (.bar r) r = true) ∧
(∃ (s : State) (r : Req), s.m.up = true ∧ s.m.yard = none ∧ s.m.takesReq (.mcl r) r = true) :=
⟨⟨wPort, wReq 0, by decide +kernel⟩,
⟨wPort, wReq 0, by decide +kernel⟩⟩

theorem met_QueueOperationLayoutErrors :
(∃ (s : State) (r : Req) (n : BitVec 4), s.m.up = true ∧ s.m.yard = none ∧ s.m.portIn r.port.val = true ∧ (r.port.val < 16 ∨ 24 ≤
      r.port.val) ∧ behind r.port.val r.agent.toNat = true ∧ s.m.agFenced r.agent.toNat = false ∧ (r.pa ≠ 0 ∨ n ≠ 0)) ∧
(∃ (s : State) (r : Req) (n : BitVec 4), s.m.up = true ∧ s.m.yard = none ∧ s.m.portIn r.port.val = true ∧ (r.port.val < 16 ∨ 24 ≤
      r.port.val) ∧ behind r.port.val r.agent.toNat = true ∧ s.m.agFenced r.agent.toNat = false ∧ (r.pa ≠ 0 ∨ n.toNat < 1 ∨ 8 < n.toNat)) :=
⟨⟨wPort, wReq 0, 1, by decide +kernel⟩,
⟨wPort, wReq 0, 9, by decide +kernel⟩⟩

theorem met_UnhomedRequestsEndAtTheirPort :
(∃ (s : State) (r : Req), s.m.up = true ∧ s.m.yard = none ∧ s.m.takesReq (.rds r) r = true ∧ s.m.homed r.pa.toNat = none) ∧
(∃ (s : State) (r : Req), s.m.up = true ∧ s.m.yard = none ∧ s.m.takesReq (.rdo r) r = true ∧ s.m.homed r.pa.toNat = none) ∧
(∃ (s : State) (r : Req), s.m.up = true ∧ s.m.yard = none ∧ s.m.takesReq (.rdc r) r = true ∧ s.m.homed r.pa.toNat = none) ∧
(∃ (s : State) (r : Req), s.m.up = true ∧ s.m.yard = none ∧ s.m.takesReq (.upg r) r = true ∧ s.m.homed r.pa.toNat = none) ∧
(∃ (s : State) (r : Req), s.m.up = true ∧ s.m.yard = none ∧ s.m.takesReq (.wrl r) r = true ∧ s.m.homed r.pa.toNat = none) ∧
(∃ (s : State) (r : Req), s.m.up = true ∧ s.m.yard = none ∧ s.m.takesReq (.wbd r) r = true ∧ s.m.homed r.pa.toNat = none) ∧
(∃ (s : State) (r : Req), s.m.up = true ∧ s.m.yard = none ∧ s.m.takesReq (.evh r) r = true ∧ s.m.homed r.pa.toNat = none) ∧
(∃ (s : State) (r : Req), s.m.up = true ∧ s.m.yard = none ∧ s.m.takesReq (.rsl r) r = true ∧ s.m.homed r.pa.toNat = none) ∧
(∃ (s : State) (r : Req), s.m.up = true ∧ s.m.yard = none ∧ s.m.takesReq (.scd r) r = true ∧ s.m.homed r.pa.toNat = none) ∧
(∃ (s : State) (r : Req) (mask : Mask), s.m.up = true ∧ s.m.yard = none ∧ s.m.takesReq (.wrp r mask) r = true ∧ s.m.homed r.pa.toNat =
      none) ∧
(∃ (s : State) (r : Req) (aop : BitVec 8) (a : BitVec 128) (b : BitVec 128), s.m.up = true ∧ s.m.yard = none ∧ s.m.takesReq (.atm r aop a
      b) r = true ∧ s.m.homed r.pa.toNat = none) :=
⟨⟨wPort, wReq 0x20000000, by decide +kernel⟩,
⟨wPort, wReq 0x20000000, by decide +kernel⟩,
⟨wPort, wReq 0x20000000, by decide +kernel⟩,
⟨wPort, wReq 0x20000000, by decide +kernel⟩,
⟨wPort, wReq 0x20000000, by decide +kernel⟩,
⟨wPort, wReq 0x20000000, by decide +kernel⟩,
⟨wPort, wReq 0x20000000, by decide +kernel⟩,
⟨wPort, { wReq 0x20000000 with sz := 3 }, by decide +kernel⟩,
⟨wPort, { wReq 0x20000000 with sz := 3 }, by decide +kernel⟩,
⟨wPort, wReq 0x20000000, 1, by decide +kernel⟩,
⟨wPort, { wReq 0x20000000 with sz := 3 }, 1, 1, 0, by decide +kernel⟩⟩

theorem met_SnoopAnswersReachTheirEntry :
(∃ (s : State) (r : Rsp) (h : Nat) (t : Nat), s.m.up = true ∧ s.m.yard = none ∧ s.m.hears r.port r.agent = true ∧ (s.m.port
      r.port.val).fwdq = [] ∧ s.m.htagOf r.htag = (h, t) ∧ (s.m.slice h).run = .on ∧ (s.m.te h t).st = .active ∧ (s.m.te h t).pend.getLsbD
      r.agent.toNat = true ∧ (s.m.te h t).snp.lists (s.m.te h t).kind (decide ((s.m.te h t).lst = hsOS)) r.agent.toNat .sri r.kst = true) ∧
(∃ (s : State) (r : Rsp) (h : Nat) (t : Nat), s.m.up = true ∧ s.m.yard = none ∧ s.m.hears r.port r.agent = true ∧ (s.m.port
      r.port.val).fwdq = [] ∧ s.m.htagOf r.htag = (h, t) ∧ (s.m.slice h).run = .on ∧ (s.m.te h t).st = .active ∧ (s.m.te h t).pend.getLsbD
      r.agent.toNat = true ∧ (s.m.te h t).snp.lists (s.m.te h t).kind (decide ((s.m.te h t).lst = hsOS)) r.agent.toNat .srs r.kst = true) ∧
(∃ (s : State) (r : Rsp) (h : Nat) (t : Nat), s.m.up = true ∧ s.m.yard = none ∧ s.m.hears r.port r.agent = true ∧ (s.m.port
      r.port.val).fwdq = [] ∧ s.m.htagOf r.htag = (h, t) ∧ (s.m.slice h).run = .on ∧ (s.m.te h t).st = .active ∧ (s.m.te h t).pend.getLsbD
      r.agent.toNat = true ∧ (s.m.te h t).snp.lists (s.m.te h t).kind (decide ((s.m.te h t).lst = hsOS)) r.agent.toNat .srf r.kst = true) ∧
(∃ (s : State) (r : Rsp) (h : Nat) (t : Nat), s.m.up = true ∧ s.m.yard = none ∧ s.m.hears r.port r.agent = true ∧ (s.m.port
      r.port.val).fwdq = [] ∧ s.m.htagOf r.htag = (h, t) ∧ (s.m.slice h).run = .on ∧ (s.m.te h t).st = .active ∧ (s.m.te h t).pend.getLsbD
      r.agent.toNat = true ∧ (s.m.te h t).snp.lists (s.m.te h t).kind (decide ((s.m.te h t).lst = hsOS)) r.agent.toNat .srfo r.kst = true) :=
⟨⟨wSnoop none, { port := 3, agent := 3, htag := 0, kst := 0 }, 0, 0, by decide +kernel⟩,
⟨wSnoop (some .fws), { port := 3, agent := 3, htag := 0, kst := 0 }, 0, 0, by decide +kernel⟩,
⟨wSnoop (some .fwo), { port := 3, agent := 3, htag := 0, kst := 0 }, 0, 0, by decide +kernel⟩,
⟨wSnoop (some .fwo), { port := 3, agent := 3, htag := 0, kst := 0 }, 0, 0, by decide +kernel⟩⟩

theorem met_AnswersWaitOrAreRefused :
(∃ (s : State) (r : Rsp), s.m.up = true ∧ s.m.yard = none ∧ s.m.hears r.port r.agent = true ∧ s.m.behindDat r.port.val r = true) ∧
(∃ (s : State) (r : Rsp), s.m.up = true ∧ s.m.yard = none ∧ s.m.hears r.port r.agent = true ∧ (s.m.port r.port.val).fwdq = [] ∧ (s.m.slice
      (s.m.htagOf r.htag).1).run ≠ .on) ∧
(∃ (s : State) (r : Rsp), s.m.up = true ∧ s.m.yard = none ∧ s.m.hears r.port r.agent = true ∧ (s.m.port r.port.val).fwdq = [] ∧ (s.m.slice
      (s.m.htagOf r.htag).1).run = .on ∧ (s.m.te (s.m.htagOf r.htag).1 (s.m.htagOf r.htag).2).st ≠ .active) :=
⟨⟨wFwdAns, { port := 3, agent := 3, htag := 0, kst := 0 }, by decide +kernel⟩,
⟨wFrozen, { port := 3, agent := 3, htag := 0, kst := 0 }, by decide +kernel⟩,
⟨wPort, { port := 3, agent := 3, htag := 0, kst := 0 }, by decide +kernel⟩⟩

theorem met_DataTakesItsPlace :
(∃ (s : State) (d : Dtw), s.m.up = true ∧ s.m.yard = none ∧ s.m.hears d.port d.agent = true ∧ d.ans = true ∧ (s.m.slice (s.m.htagOf
      d.htag).1).run = .on) ∧
(∃ (s : State) (d : Dtw) (o : Outst) (ls : Nat) (t : Nat), s.m.up = true ∧ s.m.yard = none ∧ s.m.hears d.port d.agent = true ∧ d.ans =
      false ∧ (s.m.port d.port.val).outs.find? (fun o => o.agent = d.agent && o.tid = d.tid && o.dtw) = some o ∧ o.ended = false ∧ o.at_ =
      some (ls, t)) ∧
(∃ (s : State) (d : Dtw) (o : Outst), s.m.up = true ∧ s.m.yard = none ∧ s.m.hears d.port d.agent = true ∧ d.ans = false ∧ (s.m.port
      d.port.val).outs.find? (fun o => o.agent = d.agent && o.tid = d.tid && o.dtw) = some o ∧ o.ended = false ∧ o.at_ = none) ∧
(∃ (s : State) (d : Dtw) (o : Outst), s.m.up = true ∧ s.m.yard = none ∧ s.m.hears d.port d.agent = true ∧ d.ans = false ∧ (s.m.port
      d.port.val).outs.find? (fun o => o.agent = d.agent && o.tid = d.tid && o.dtw) = some o ∧ o.ended = true) ∧
(∃ (s : State) (port : PortId) (agent : BitVec 5) (tid : Tid) (o : Outst), s.m.up = true ∧ s.m.yard = none ∧ s.m.portIn port.val = true ∧
      (port.val < 16 ∨ 24 ≤ port.val) ∧ s.m.agPop agent.toNat = true ∧ s.m.portDown (agPort agent.toNat) = false ∧ s.m.agFenced
      agent.toNat = false ∧ (s.m.port (agPort agent.toNat)).outs.find? (fun o => o.agent = agent && o.tid = tid && !o.ended) = some o) ∧
(∃ (s : State), s.m.up = true) :=
⟨⟨wPort, wDtw true, by decide +kernel⟩,
⟨wOut wO, wDtw false, wO, 0, 0, by decide +kernel⟩,
⟨wOut { wO with at_ := none }, wDtw false, { wO with at_ := none }, by decide +kernel⟩,
⟨wOut { wO with ended := true }, wDtw false, { wO with ended := true }, by decide +kernel⟩,
⟨wOut wO, 3, 3, 7, wO, by decide +kernel⟩,
⟨wRspq, by decide +kernel⟩⟩

theorem met_MemoryReturnsReachTheirBuffer :
(∃ (s : State) (port : PortId) (htag : BitVec 14) (h : Nat) (rb : Nat) (b : RBuf) (t : Nat), s.m.up = true ∧ s.m.yard = none ∧ s.m.portIn
      port.val = true ∧ 16 ≤ port.val ∧ s.m.hsOf (htag.toNat / 512) = h ∧ (s.m.slice h).run = .on ∧ (s.m.slice h).rbFor port.val
      (htag.toNat % 512) = some (rb, b) ∧ b.use = .data t ∧ b.drop = false) ∧
(∃ (s : State) (port : PortId) (htag : BitVec 14) (h : Nat) (rb : Nat) (t : Nat) (b : RBuf), s.m.up = true ∧ s.m.yard = none ∧ s.m.portIn
      port.val = true ∧ 16 ≤ port.val ∧ s.m.hsOf (htag.toNat / 512) = h ∧ (s.m.slice h).run = .on ∧ (s.m.slice h).rbFor port.val
      (htag.toNat % 512) = some (rb, b) ∧ b.use = .data t ∧ b.drop = true) ∧
(∃ (s : State) (port : PortId) (htag : BitVec 14) (h : Nat) (rb : Nat) (b : RBuf) (g : Nat) (i : Nat), s.m.up = true ∧ s.m.yard = none ∧
      s.m.portIn port.val = true ∧ 16 ≤ port.val ∧ s.m.hsOf (htag.toNat / 512) = h ∧ (s.m.slice h).run = .on ∧ (s.m.slice h).rbFor
      port.val (htag.toNat % 512) = some (rb, b) ∧ b.use = .walk g i) ∧
(∃ (s : State) (port : PortId) (htag : BitVec 14) (h : Nat) (rb : Nat) (b : RBuf) (a : PA), s.m.up = true ∧ s.m.yard = none ∧ s.m.portIn
      port.val = true ∧ 16 ≤ port.val ∧ s.m.hsOf (htag.toNat / 512) = h ∧ (s.m.slice h).run = .on ∧ (s.m.slice h).rbFor port.val
      (htag.toNat % 512) = some (rb, b) ∧ b.use = .bkt a) ∧
(∃ (s : State) (port : PortId) (htag : BitVec 14) (h : Nat) (rb : Nat) (b : RBuf) (a : BitVec 16), s.m.up = true ∧ s.m.yard = none ∧
      s.m.portIn port.val = true ∧ 16 ≤ port.val ∧ s.m.hsOf (htag.toNat / 512) = h ∧ (s.m.slice h).run = .on ∧ (s.m.slice h).rbFor
      port.val (htag.toNat % 512) = some (rb, b) ∧ b.use = .prefetch a) ∧
(∃ (s : State) (port : PortId) (htag : BitVec 14) (h : Nat) (rb : Nat) (b : RBuf) (x : Nat) (y : Nat), s.m.up = true ∧ s.m.yard = none ∧
      s.m.portIn port.val = true ∧ 16 ≤ port.val ∧ s.m.hsOf (htag.toNat / 512) = h ∧ (s.m.slice h).run = .on ∧ (s.m.slice h).rbFor
      port.val (htag.toNat % 512) = some (rb, b) ∧ b.use = .fill x y) ∧
(∃ (s : State) (port : PortId) (htag : BitVec 14) (h : Nat) (rb : Nat) (b : RBuf) (t : Nat), s.m.up = true ∧ s.m.yard = none ∧ s.m.portIn
      port.val = true ∧ 16 ≤ port.val ∧ s.m.hsOf (htag.toNat / 512) = h ∧ (s.m.slice h).run = .on ∧ (s.m.slice h).rbFor port.val
      (htag.toNat % 512) = some (rb, b) ∧ b.use = .qdesc t ∧ b.drop = false) ∧
(∃ (s : State) (port : PortId) (htag : BitVec 14) (h : Nat) (rb : Nat) (b : RBuf) (t : Nat), s.m.up = true ∧ s.m.yard = none ∧ s.m.portIn
      port.val = true ∧ 16 ≤ port.val ∧ s.m.hsOf (htag.toNat / 512) = h ∧ (s.m.slice h).run = .on ∧ (s.m.slice h).rbFor port.val
      (htag.toNat % 512) = some (rb, b) ∧ b.use = .ddesc t ∧ b.drop = false) ∧
(∃ (s : State) (port : PortId) (htag : BitVec 14) (h : Nat) (rb : Nat) (b : RBuf) (i : Nat) (t : Nat), s.m.up = true ∧ s.m.yard = none ∧
      s.m.portIn port.val = true ∧ 16 ≤ port.val ∧ s.m.hsOf (htag.toNat / 512) = h ∧ (s.m.slice h).run = .on ∧ (s.m.slice h).rbFor
      port.val (htag.toNat % 512) = some (rb, b) ∧ b.use = .qtail i t ∧ b.drop = false) ∧
(∃ (s : State) (port : PortId) (htag : BitVec 14) (h : Nat) (rb : Nat) (b : RBuf) (i : Nat) (n : W64), s.m.up = true ∧ s.m.yard = none ∧
      s.m.portIn port.val = true ∧ 16 ≤ port.val ∧ s.m.hsOf (htag.toNat / 512) = h ∧ (s.m.slice h).run = .on ∧ (s.m.slice h).rbFor
      port.val (htag.toNat % 512) = some (rb, b) ∧ b.use = .qhead i n ∧ b.drop = false) ∧
(∃ (s : State) (port : PortId), s.m.up = true ∧ s.m.yard = none ∧ s.m.portIn port.val = true ∧ port.val < 16) ∧
(∃ (s : State) (port : PortId) (htag : BitVec 14), s.m.up = true ∧ s.m.yard = none ∧ s.m.portIn port.val = true ∧ 16 ≤ port.val ∧
      (s.m.slice (s.m.hsOf (htag.toNat / 512))).run = .on ∧ (s.m.slice (s.m.hsOf (htag.toNat / 512))).rbFor port.val (htag.toNat % 512) =
      none) :=
⟨⟨wRead (.data 0), 16, 5, 0, 3, { use := .data 0, port := 16, off := 0, htag := 5, ord := 0 }, 0, by decide +kernel⟩,
⟨wDrop, 16, 5, 0, 3, 0, { use := .data 0, port := 16, off := 0, htag := 5, ord := 0, drop := true, fill := some 0x100 },
    by decide +kernel⟩,
⟨wRead (.walk 0 1), 16, 5, 0, 3, { use := .walk 0 1, port := 16, off := 0, htag := 5, ord := 0 }, 0, 1, by decide +kernel⟩,
⟨wRead (.bkt 64), 16, 5, 0, 3, { use := .bkt 64, port := 16, off := 0, htag := 5, ord := 0 }, 64, by decide +kernel⟩,
⟨wRead (.prefetch 1), 16, 5, 0, 3, { use := .prefetch 1, port := 16, off := 0, htag := 5, ord := 0 }, 1, by decide +kernel⟩,
⟨wRead (.fill 1 2), 16, 5, 0, 3, { use := .fill 1 2, port := 16, off := 0, htag := 5, ord := 0 }, 1, 2, by decide +kernel⟩,
⟨wRead (.qdesc 0), 16, 5, 0, 3, { use := .qdesc 0, port := 16, off := 0, htag := 5, ord := 0 }, 0, by decide +kernel⟩,
⟨wRead (.ddesc 0), 16, 5, 0, 3, { use := .ddesc 0, port := 16, off := 0, htag := 5, ord := 0 }, 0, by decide +kernel⟩,
⟨wRead (.qtail 1 0), 16, 5, 0, 3, { use := .qtail 1 0, port := 16, off := 0, htag := 5, ord := 0 }, 1, 0, by decide +kernel⟩,
⟨wRead (.qhead 1 2), 16, 5, 0, 3, { use := .qhead 1 2, port := 16, off := 0, htag := 5, ord := 0 }, 1, 2, by decide +kernel⟩,
⟨wPort, 3, by decide +kernel⟩,
⟨wPort, 16, 5, by decide +kernel⟩⟩

theorem met_MemoryWritesComplete :
(∃ (s : State) (port : PortId) (htag : BitVec 14) (h : Nat) (wb : Nat) (x : Wr), s.m.up = true ∧ s.m.yard = none ∧ s.m.portIn port.val =
      true ∧ 16 ≤ port.val ∧ s.m.hsOf (htag.toNat / 512) = h ∧ (s.m.slice h).run = .on ∧ (s.m.slice h).wrFor port.val (htag.toNat % 512) =
      some (wb, x) ∧ wb < 192 ∧ (x.use = .demand ∨ x.use = .desc ∨ x.use = .qwin)) ∧
(∃ (s : State) (port : PortId) (htag : BitVec 14) (h : Nat) (wb : Nat) (x : Wr) (t : Nat), s.m.up = true ∧ s.m.yard = none ∧ s.m.portIn
      port.val = true ∧ 16 ≤ port.val ∧ s.m.hsOf (htag.toNat / 512) = h ∧ (s.m.slice h).run = .on ∧ (s.m.slice h).wrFor port.val
      (htag.toNat % 512) = some (wb, x) ∧ wb < 192 ∧ x.use = .mbs t) ∧
(∃ (s : State) (port : PortId) (htag : BitVec 14) (h : Nat) (wb : Nat) (x : Wr) (t : Nat), s.m.up = true ∧ s.m.yard = none ∧ s.m.portIn
      port.val = true ∧ 16 ≤ port.val ∧ s.m.hsOf (htag.toNat / 512) = h ∧ (s.m.slice h).run = .on ∧ (s.m.slice h).wrFor port.val
      (htag.toNat % 512) = some (wb, x) ∧ wb < 192 ∧ x.use = .zero t) ∧
(∃ (s : State) (port : PortId) (htag : BitVec 14) (h : Nat) (wb : Nat) (x : Wr) (t : Nat), s.m.up = true ∧ s.m.yard = none ∧ s.m.portIn
      port.val = true ∧ 16 ≤ port.val ∧ s.m.hsOf (htag.toNat / 512) = h ∧ (s.m.slice h).run = .on ∧ (s.m.slice h).wrFor port.val
      (htag.toNat % 512) = some (wb, x) ∧ wb < 192 ∧ x.use = .deferred t) ∧
(∃ (s : State) (port : PortId) (htag : BitVec 14) (h : Nat) (wb : Nat) (x : Wr) (a : PA), s.m.up = true ∧ s.m.yard = none ∧ s.m.portIn
      port.val = true ∧ 16 ≤ port.val ∧ s.m.hsOf (htag.toNat / 512) = h ∧ (s.m.slice h).run = .on ∧ (s.m.slice h).wrFor port.val
      (htag.toNat % 512) = some (wb, x) ∧ wb < 192 ∧ x.use = .bkt a) ∧
(∃ (s : State) (port : PortId) (htag : BitVec 14) (h : Nat) (wb : Nat) (x : Wr) (q : BitVec 20), s.m.up = true ∧ s.m.yard = none ∧
      s.m.portIn port.val = true ∧ 16 ≤ port.val ∧ s.m.hsOf (htag.toNat / 512) = h ∧ (s.m.slice h).run = .on ∧ (s.m.slice h).wrFor
      port.val (htag.toNat % 512) = some (wb, x) ∧ wb < 192 ∧ x.use = .doorbell q) ∧
(∃ (s : State) (port : PortId) (htag : BitVec 14) (h : Nat) (wb : Nat) (x : Wr), s.m.up = true ∧ s.m.yard = none ∧ s.m.portIn port.val =
      true ∧ 16 ≤ port.val ∧ s.m.hsOf (htag.toNat / 512) = h ∧ (s.m.slice h).run = .on ∧ (s.m.slice h).wrFor port.val (htag.toNat % 512) =
      some (wb, x) ∧ 192 ≤ wb ∧ x.use = .demand) ∧
(∃ (s : State) (port : PortId), s.m.up = true ∧ s.m.yard = none ∧ s.m.portIn port.val = true ∧ port.val < 16) :=
⟨⟨wWrite (.demand), 16, 5, 0, 2, wWr (.demand), by decide +kernel⟩,
⟨wWrite (.mbs 0), 16, 5, 0, 2, wWr (.mbs 0), 0, by decide +kernel⟩,
⟨wWrite (.zero 0), 16, 5, 0, 2, wWr (.zero 0), 0, by decide +kernel⟩,
⟨wWrite (.deferred 0), 16, 5, 0, 2, wWr (.deferred 0), 0, by decide +kernel⟩,
⟨wWrite (.bkt 64), 16, 5, 0, 2, wWr (.bkt 64), 64, by decide +kernel⟩,
⟨wWrite (.doorbell 1), 16, 5, 0, 2, wWr (.doorbell 1), 1, by decide +kernel⟩,
⟨wWcWrite, 16, 5, 0, 193, wWr .demand, by decide +kernel⟩,
⟨wPort, 3, by decide +kernel⟩⟩

theorem met_BackInvalidateSnoops :
(∃ (s : State) (port : PortId) (len : BitVec 2) (off : Off) (i : Nat), s.m.up = true ∧ s.m.portIn port.val = true ∧ 24 ≤ port.val ∧
      s.m.isCxl port.val = true ∧ len ≠ 3 ∧ off.toNat % (if len = 0 then 64 else if len = 1 then 128 else 256) = 0 ∧ s.m.hdmDb port.val
      off.toNat (if len = 0 then 64 else if len = 1 then 128 else 256) = true ∧ (s.m.port port.val).biq = [] ∧ firstBelow 64 (fun i =>
      !(s.m.port port.val).bisn.any fun b => b.idx = i) = some i) ∧
(∃ (s : State) (port : PortId) (len : BitVec 2) (off : Off), s.m.up = true ∧ s.m.portIn port.val = true ∧ 24 ≤ port.val ∧ s.m.isCxl
      port.val = true ∧ len ≠ 3 ∧ off.toNat % (if len = 0 then 64 else if len = 1 then 128 else 256) = 0 ∧ s.m.hdmDb port.val off.toNat
      (if len = 0 then 64 else if len = 1 then 128 else 256) = true ∧ (s.m.port port.val).biq = [] ∧ firstBelow 64 (fun i => !(s.m.port
      port.val).bisn.any fun b => b.idx = i) = none) ∧
(∃ (s : State) (port : PortId) (len : BitVec 2) (off : Off), s.m.up = true ∧ s.m.portIn port.val = true ∧ 24 ≤ port.val ∧ s.m.isCxl
      port.val = true ∧ (len = 3 ∨ off.toNat % (if len = 0 then 64 else if len = 1 then 128 else 256) ≠ 0 ∨ s.m.hdmDb port.val off.toNat
      (if len = 0 then 64 else if len = 1 then 128 else 256) = false)) ∧
(∃ (s : State) (port : PortId), s.m.up = true ∧ s.m.portIn port.val = true ∧ (port.val < 24 ∨ s.m.isCxl port.val = false)) ∧
(∃ (s : State) (port : PortId) (q : MbsQ) (rest : List MbsQ) (h : Nat) (t : Nat) (pool : Pool), s.m.up = true ∧ s.m.yard = none ∧
      (s.m.port port.val).mbsq = q :: rest ∧ s.m.hsOf (lsOf (secOff q.sec)).toNat = h ∧ s.m.serving h = true ∧ s.m.grantMbs h port.val =
      some pool ∧ (s.m.slice h).freeTe = some t) ∧
(∃ (s : State) (port : PortId) (i : Nat) (rest : List Nat) (b : Bisnp), s.m.up = true ∧ s.m.yard = none ∧ (s.m.port port.val).mbrq = i ::
      rest ∧ (s.m.port port.val).bisn.find? (fun b => b.idx = i) = some b ∧ 1 < b.left) ∧
(∃ (s : State) (port : PortId) (i : Nat) (rest : List Nat) (b : Bisnp), s.m.up = true ∧ s.m.yard = none ∧ (s.m.port port.val).mbrq = i ::
      rest ∧ (s.m.port port.val).bisn.find? (fun b => b.idx = i) = some b ∧ b.left ≤ 1) :=
⟨⟨wCxl, 24, 1, 128, 0, by decide +kernel⟩,
⟨wCxlFull, 24, 1, 128, by decide +kernel⟩,
⟨wCxl, 24, 3, 128, by decide +kernel⟩,
⟨wPort, 16, by decide +kernel⟩,
⟨wMbs, 24, { idx := 0, sec := 0, lines := 3, last := true }, [], 0, 0, .mbs, by decide +kernel⟩,
⟨wMbr 2, 24, 0, [], { idx := 0, biId := 1, biTag := 2, len := 1, off := 128, left := 2 }, by decide +kernel⟩,
⟨wMbr 1, 24, 0, [], { idx := 0, biId := 1, biTag := 2, len := 1, off := 128, left := 1 }, by decide +kernel⟩⟩

theorem met_NotesAndNoticesRetire :
(∃ (s : State) (port : PortId) (n : Note) (rest : List Note), s.m.up = true ∧ s.m.yard = none ∧ (s.m.port port.val).notes = n :: rest) ∧
(∃ (s : State) (port : PortId) (ls : Nat) (a : BitVec 5) (q : BitVec 9) (rest : List (Nat × BitVec 5 × BitVec 9)) (x : MclSt), s.m.up =
      true ∧ s.m.yard = none ∧ (s.m.port port.val).mnotes = (ls, a, q) :: rest ∧ (s.m.port port.val).mcls.find? (fun x => x.agent = a &&
      x.rqid = q && x.left.contains ls) = some x ∧ x.left.erase ls ≠ []) ∧
(∃ (s : State) (port : PortId) (ls : Nat) (a : BitVec 5) (q : BitVec 9) (rest : List (Nat × BitVec 5 × BitVec 9)) (x : MclSt), s.m.up =
      true ∧ s.m.yard = none ∧ (s.m.port port.val).mnotes = (ls, a, q) :: rest ∧ (s.m.port port.val).mcls.find? (fun x => x.agent = a &&
      x.rqid = q && x.left.contains ls) = some x ∧ x.left.erase ls = []) :=
⟨⟨wNotes, 3, { seq := 0, lost := true }, [], by decide +kernel⟩,
⟨wMcl [0, 1], 3, 0, 3, 4, [], { agent := 3, rqid := 4, tid := 7, left := [0, 1] }, by decide +kernel⟩,
⟨wMcl [0], 3, 0, 3, 4, [], { agent := 3, rqid := 4, tid := 7, left := [0] }, by decide +kernel⟩⟩

theorem met_TurnsStartAndGoOn :
(∃ (s : State) (hs : SliceId) (te : Fin 512) (m : Mach), s.m.up = true ∧ m = (if ((s.m.repairLists hs.val).te hs.val te.val).kind.isLine =
      true then (s.m.repairLists hs.val).owedMove hs.val (keySec ((s.m.repairLists hs.val).te hs.val te.val).key) else s.m.repairLists
      hs.val) ∧ (m.te hs.val te.val).st = .wait ∧ (m.te hs.val te.val).ph ≠ .region ∧ m.safe = none ∧ m.drain = none ∧ (m.slice
      hs.val).run = .on ∧ ((m.te hs.val te.val).kind.isLine && (m.slice hs.val).moveOwed (keySec (m.te hs.val te.val).key)) = false ∧
      (m.te hs.val te.val).both = false ∧ (m.slice hs.val).held (m.te hs.val te.val).hkey = false ∧ (m.slice hs.val).isNext te.val (m.te
      hs.val te.val).hkey = true) ∧
(∃ (s : State) (hs : SliceId) (te : Fin 512) (m : Mach), s.m.up = true ∧ m = (if ((s.m.repairLists hs.val).te hs.val te.val).kind.isLine =
      true then (s.m.repairLists hs.val).owedMove hs.val (keySec ((s.m.repairLists hs.val).te hs.val te.val).key) else s.m.repairLists
      hs.val) ∧ (m.te hs.val te.val).st = .wait ∧ (m.te hs.val te.val).ph ≠ .region ∧ m.safe = none ∧ m.drain = none ∧ (m.slice
      hs.val).run = .on ∧ ((m.te hs.val te.val).kind.isLine && (m.slice hs.val).moveOwed (keySec (m.te hs.val te.val).key)) = false ∧
      (m.te hs.val te.val).both = true ∧ (m.te hs.val te.val).got = 1 ∧ (m.slice hs.val).held ((m.te hs.val te.val).keys.getD 1 0) = false
      ∧ (m.slice hs.val).isNext te.val ((m.te hs.val te.val).keys.getD 1 0) = true) ∧
(∃ (s : State) (hs : SliceId) (te : Fin 512) (m : Mach), s.m.up = true ∧ m = (if ((s.m.repairLists hs.val).te hs.val te.val).kind.isLine =
      true then (s.m.repairLists hs.val).owedMove hs.val (keySec ((s.m.repairLists hs.val).te hs.val te.val).key) else s.m.repairLists
      hs.val) ∧ (m.te hs.val te.val).st = .wait ∧ (m.te hs.val te.val).ph ≠ .region ∧ m.safe = none ∧ m.drain = none ∧ (m.slice
      hs.val).run = .on ∧ ((m.te hs.val te.val).kind.isLine && (m.slice hs.val).moveOwed (keySec (m.te hs.val te.val).key)) = false ∧
      (m.te hs.val te.val).both = true ∧ (m.te hs.val te.val).got = 2 ∧ (m.slice hs.val).held ((m.te hs.val te.val).keys.getD 0 0) = false
      ∧ (m.slice hs.val).isNext te.val ((m.te hs.val te.val).keys.getD 0 0) = true) ∧
(∃ (s : State) (hs : SliceId) (te : Fin 512) (m : Mach), s.m.up = true ∧ m = (if ((s.m.repairLists hs.val).te hs.val te.val).kind.isLine =
      true then (s.m.repairLists hs.val).owedMove hs.val (keySec ((s.m.repairLists hs.val).te hs.val te.val).key) else s.m.repairLists
      hs.val) ∧ (m.te hs.val te.val).st = .wait ∧ (m.te hs.val te.val).ph ≠ .region ∧ m.safe = none ∧ m.drain = none ∧ (m.slice
      hs.val).run = .on ∧ ((m.te hs.val te.val).kind.isLine && (m.slice hs.val).moveOwed (keySec (m.te hs.val te.val).key)) = false ∧
      (m.te hs.val te.val).both = true ∧ (m.te hs.val te.val).got = 0 ∧ (m.slice hs.val).held ((m.te hs.val te.val).keys.getD 0 0) = false
      ∧ (m.slice hs.val).isNext te.val ((m.te hs.val te.val).keys.getD 0 0) = true ∧ (m.slice hs.val).isNext te.val ((m.te hs.val
      te.val).keys.getD 1 0) = false) ∧
(∃ (s : State) (hs : SliceId) (te : Fin 512) (m : Mach), s.m.up = true ∧ m = (if ((s.m.repairLists hs.val).te hs.val te.val).kind.isLine =
      true then (s.m.repairLists hs.val).owedMove hs.val (keySec ((s.m.repairLists hs.val).te hs.val te.val).key) else s.m.repairLists
      hs.val) ∧ (m.te hs.val te.val).st = .wait ∧ (m.te hs.val te.val).ph ≠ .region ∧ m.safe = none ∧ m.drain = none ∧ (m.slice
      hs.val).run = .on ∧ ((m.te hs.val te.val).kind.isLine && (m.slice hs.val).moveOwed (keySec (m.te hs.val te.val).key)) = false ∧
      (m.te hs.val te.val).both = true ∧ (m.te hs.val te.val).got = 0 ∧ (m.slice hs.val).held ((m.te hs.val te.val).keys.getD 1 0) = false
      ∧ (m.slice hs.val).isNext te.val ((m.te hs.val te.val).keys.getD 1 0) = true ∧ (m.slice hs.val).isNext te.val ((m.te hs.val
      te.val).keys.getD 0 0) = false) ∧
(∃ (s : State) (hs : SliceId) (te : Fin 512), s.m.up = true ∧ (s.m.te hs.val te.val).st = .active ∧ (s.m.te hs.val te.val).ph = .lookup) ∧
(∃ (s : State) (hs : SliceId) (te : Fin 512), s.m.up = true ∧ (s.m.te hs.val te.val).st = .active ∧ (s.m.te hs.val te.val).ph = .reserve ∧
      (s.m.te hs.val te.val).kind = .mbs) ∧
(∃ (s : State) (hs : SliceId) (te : Fin 512), s.m.up = true ∧ (s.m.te hs.val te.val).st = .active ∧ (s.m.te hs.val te.val).ph = .reserve ∧
      (s.m.te hs.val te.val).kind = .rebuild) ∧
(∃ (s : State) (hs : SliceId) (te : Fin 512), s.m.up = true ∧ (s.m.te hs.val te.val).st = .active ∧ (s.m.te hs.val te.val).ph = .reserve ∧
      (s.m.te hs.val te.val).kind = .biv) ∧
(∃ (s : State) (hs : SliceId) (te : Fin 512), s.m.up = true ∧ (s.m.te hs.val te.val).st = .active ∧ (s.m.te hs.val te.val).ph = .reserve ∧
      (s.m.te hs.val te.val).kind ∉ [.mbs, .rebuild, .biv] ∧ (((s.m.te hs.val te.val).kind = .atm ∧ (s.m.te hs.val te.val).far = true ∧
      (s.m.te hs.val te.val).sbuf = none) → False) ∧ atWb (s.m.te hs.val te.val).at_ = true) ∧
(∃ (s : State) (hs : SliceId) (te : Fin 512), s.m.up = true ∧ (s.m.te hs.val te.val).st = .active ∧ (s.m.te hs.val te.val).ph = .reserve ∧
      (s.m.te hs.val te.val).kind ∉ [.mbs, .rebuild, .biv] ∧ atWb (s.m.te hs.val te.val).at_ = false) ∧
(∃ (s : State) (hs : SliceId) (te : Fin 512), s.m.up = true ∧ (s.m.te hs.val te.val).st = .active ∧ (s.m.te hs.val te.val).ph = .reserve ∧
      (s.m.te hs.val te.val).kind = .atm ∧ (s.m.te hs.val te.val).far = true ∧ (s.m.te hs.val te.val).sbuf = none ∧ atWb (s.m.te hs.val
      te.val).at_ = true) ∧
(∃ (s : State) (hs : SliceId) (te : Fin 512), s.m.up = true ∧ (s.m.te hs.val te.val).st = .active ∧ (s.m.te hs.val te.val).ph = .wcWait) ∧
(∃ (s : State) (hs : SliceId) (te : Fin 512), s.m.up = true ∧ (s.m.te hs.val te.val).st = .active ∧ (s.m.te hs.val te.val).ph = .wbuf) ∧
(∃ (s : State) (hs : SliceId) (te : Fin 512), s.m.up = true ∧ (s.m.te hs.val te.val).st = .active ∧ ((s.m.te hs.val te.val).ph = .qslot ∨
      (s.m.te hs.val te.val).ph = .qheld) ∧ (s.m.te hs.val te.val).kind = .qop 1) ∧
(∃ (s : State) (hs : SliceId) (te : Fin 512) (v : Nat), s.m.up = true ∧ (s.m.te hs.val te.val).st = .active ∧ (s.m.te hs.val te.val).ph =
      .wayWait ∧ (s.m.te hs.val te.val).kind ≠ .rebuild ∧ s.m.findWay hs.val (keySec (s.m.te hs.val te.val).key) = some v) ∧
(∃ (s : State) (hs : SliceId) (te : Fin 512) (x : W64), s.m.up = true ∧ (s.m.te hs.val te.val).st = .active ∧ (s.m.te hs.val te.val).ph =
      .wayWait ∧ (s.m.te hs.val te.val).kind ≠ .rebuild ∧ s.m.findWay hs.val (keySec (s.m.te hs.val te.val).key) = none ∧ (s.m.te hs.val
      te.val).refill = some x) ∧
(∃ (s : State) (hs : SliceId) (te : Fin 512), s.m.up = true ∧ (s.m.te hs.val te.val).st = .active ∧ (s.m.te hs.val te.val).ph = .wayWait ∧
      (s.m.te hs.val te.val).kind ≠ .rebuild ∧ s.m.findWay hs.val (keySec (s.m.te hs.val te.val).key) = none ∧ (s.m.te hs.val
      te.val).refill = none) :=
⟨⟨wWait, 0, 1, (wWait).m, by decide +kernel⟩,
⟨wRebuild 1, 0, 1, (wRebuild 1).m, by decide +kernel⟩,
⟨wRebuild 2, 0, 1, (wRebuild 2).m, by decide +kernel⟩,
⟨wRebuildOne 0, 0, 1, (wRebuildOne 0).m, by decide +kernel⟩,
⟨wRebuildOne 1, 0, 1, (wRebuildOne 1).m, by decide +kernel⟩,
⟨wActive .rds .lookup, 0, 1, by decide +kernel⟩,
⟨wActive .mbs .reserve, 0, 1, by decide +kernel⟩,
⟨wActive .rebuild .reserve, 0, 1, by decide +kernel⟩,
⟨wActive .biv .reserve, 0, 1, by decide +kernel⟩,
⟨wActiveWb, 0, 1, by decide +kernel⟩,
⟨wActiveNc, 0, 1, by decide +kernel⟩,
⟨wActiveFar, 0, 1, by decide +kernel⟩,
⟨wActive .wrl .wcWait, 0, 1, by decide +kernel⟩,
⟨wActive .zero .wbuf, 0, 1, by decide +kernel⟩,
⟨wActive (.qop 1) .qslot, 0, 1, by decide +kernel⟩,
⟨wActiveHit, 0, 1, 0, by decide +kernel⟩,
⟨wActiveRefill, 0, 1, 0, by decide +kernel⟩,
⟨wActive .rds .wayWait, 0, 1, by decide +kernel⟩⟩

set_option maxRecDepth 20000 in
theorem met_LinkFlitsActOnTheirPort :
(∃ (s : State) (port : PortId) (flit : BitVec 640), s.m.up = true ∧ flitGood flit = true ∧ flitCls flit < 5 ∧ s.m.portIn port.val = true ∧
      flitSeq flit = (s.m.port port.val).rxSeq) ∧
(∃ (s : State) (port : PortId) (flit : BitVec 640), s.m.up = true ∧ flitGood flit = true ∧ flitCls flit < 5 ∧ s.m.portIn port.val = true ∧
      flitSeq flit ≠ (s.m.port port.val).rxSeq ∧ (flitSeq flit - (s.m.port port.val).rxSeq).toNat < 256 ∧ (s.m.port port.val).nakd =
      false) ∧
(∃ (s : State) (port : PortId) (flit : BitVec 640), s.m.up = true ∧ flitGood flit = true ∧ flitCls flit < 5 ∧ s.m.portIn port.val = true ∧
      256 ≤ (flitSeq flit - (s.m.port port.val).rxSeq).toNat) ∧
(∃ (s : State) (port : PortId), s.m.up = true ∧ s.m.portIn port.val = true) ∧
(∃ (s : State) (port : PortId), s.m.up = true ∧ (s.m.port port.val).st = .init) :=
⟨⟨wPort, 3, wFlit 0, by decide +kernel⟩,
⟨wPort, 3, wFlit 2, by decide +kernel⟩,
⟨wPort, 3, wFlit 511, by decide +kernel⟩,
⟨wPort, 3, by decide +kernel⟩,
⟨wLink .init, 3, by decide +kernel⟩⟩

theorem met_ReplaysAndRetrains :
(∃ (s : State) (port : PortId), s.m.up = true ∧ s.m.portIn port.val = true ∧ (s.m.port port.val).nakd = true) ∧
(∃ (s : State) (port : PortId), s.m.up = true ∧ s.m.portIn port.val = true ∧ (s.m.port port.val).rpl ≠ []) ∧
(∃ (s : State) (port : PortId), s.m.up = true ∧ s.m.portIn port.val = true) ∧
(∃ (s : State) (port : PortId) (lanes : BitVec 7), s.m.up = true ∧ (s.m.port port.val).st = .retrain ∧ narrow port.val lanes = false) ∧
(∃ (s : State) (port : PortId) (lanes : BitVec 7), s.m.up = true ∧ (s.m.port port.val).st = .retrain ∧ narrow port.val lanes = true) ∧
(∃ (s : State) (port : PortId), s.m.up = true ∧ (s.m.port port.val).st = .retrain) :=
⟨⟨wNakd, 3, by decide +kernel⟩,
⟨wReplay, 3, by decide +kernel⟩,
⟨wPort, 3, by decide +kernel⟩,
⟨wLink .retrain, 3, 64, by decide +kernel⟩,
⟨wLink .retrain, 3, 16, by decide +kernel⟩,
⟨wLink .retrain, 3, by decide +kernel⟩⟩

theorem met_LinksTrainAndSleep :
(∃ (s : State) (port : PortId) (lanes : BitVec 7), s.m.up = true ∧ (s.m.port port.val).st = .down ∧ s.m.dom (portDom port.val) = .on ∧
      s.m.populated port.val = true ∧ narrow port.val lanes = false) ∧
(∃ (s : State) (port : PortId) (lanes : BitVec 7), s.m.up = true ∧ (s.m.port port.val).st = .down ∧ s.m.dom (portDom port.val) = .on ∧
      s.m.populated port.val = true ∧ narrow port.val lanes = true) ∧
(∃ (s : State) (port : PortId), s.m.up = true ∧ (s.m.port port.val).st = .down ∧ s.m.dom (portDom port.val) = .on ∧ s.m.populated port.val
      = true) ∧
(∃ (s : State) (port : PortId), s.m.up = true ∧ port.val < 16 ∧ s.m.bit Reg.pwrCtl 1 = true ∧ (s.m.port port.val).st = .up ∧ (s.m.port
      port.val).rpl = [] ∧ (s.m.port port.val).egr = [] ∧ (s.m.port port.val).heldq = [] ∧ (s.m.port port.val).fwdq = [] ∧ (s.m.port
      port.val).rspq = [] ∧ (s.m.port port.val).unack = 0 ∧ (s.m.port port.val).crq.all (· = 0) = true ∧ (s.m.claimed (portDom port.val) =
      false ∨ s.m.bit Reg.secPart 1 = true)) ∧
(∃ (s : State), s.m.up = true) ∧
(∃ (s : State) (hs : SliceId) (te : Fin 512) (e : TE), s.m.up = true ∧ s.m.te hs.val te.val = e ∧ e.st = .active ∧ e.pend ≠ 0 ∧ (s.m.slice
      hs.val).run = .on ∧ (s.m.slice hs.val).role = .active) :=
⟨⟨wDown, 3, 64, by decide +kernel⟩,
⟨wDown, 3, 16, by decide +kernel⟩,
⟨wDown, 3, by decide +kernel⟩,
⟨wPort, 3, by decide +kernel⟩,
⟨wPort, by decide +kernel⟩,
⟨wSnoop none, 0, 0, wTe none, by decide +kernel⟩⟩

theorem met_SnoopFilterEnginesWork :
(∃ (s : State) (hs : SliceId) (off : Off) (v : Victim) (b : Bool), s.m.up = true ∧ (s.m.slice hs.val).victim (secOf off) = some v ∧ v.w =
      some b ∧ ((s.m.ensureSet hs.val (setOf (secOf off)).toNat).slice hs.val).busy.any (fun e => e.2.kind = .biv && e.2.inSector (secOf
      off) && e.2.ph ≠ .qheld && e.2.ph ≠ .reserve) = false ∧ (s.m.ensureSet hs.val (setOf (secOf off)).toNat).spillDown = false ∧
      ((s.m.ensureSet hs.val (setOf (secOf off)).toNat).slice hs.val).bkts.find? (fun b => b.addr = (s.m.ensureSet hs.val (setOf (secOf
      off)).toNat).bktOf hs.val (secOf off)) = none ∧ ((s.m.ensureSet hs.val (setOf (secOf off)).toNat).slice hs.val).bktFull = false ∧
      v.evac = false) ∧
(∃ (s : State) (hs : SliceId) (off : Off) (v : Victim), s.m.up = true ∧ (s.m.slice hs.val).victim (secOf off) = some v ∧ v.w = none ∧
      s.m.spillDown = false ∧ s.m.walking (.vict hs.val (secOf off)) = false) ∧
(∃ (s : State) (hs : SliceId) (off : Off) (v : Victim), s.m.up = true ∧ (s.m.slice hs.val).victim (secOf off) = some v ∧ ((s.m.ensureSet
      hs.val (setOf (secOf off)).toNat).slice hs.val).busy.any (fun e => e.2.kind = .biv && e.2.inSector (secOf off) && e.2.ph ≠ .qheld &&
      e.2.ph ≠ .reserve) = false ∧ s.m.spillDown = true ∧ (s.m.ensureSet hs.val (setOf (secOf off)).toNat).spillDown = true) ∧
(∃ (s : State) (hs : SliceId) (off : Off) (x : Nat) (e : W64), s.m.up = true ∧ (s.m.ensureSet hs.val (setOf (secOf off)).toNat).findWay
      hs.val (secOf off) = some x ∧ (s.m.ensureSet hs.val (setOf (secOf off)).toNat).entry hs.val (setOf (secOf off)).toNat x = e ∧ enSpf
      e = true ∧ enImp e = false ∧ enSt e false = hsI ∧ enSt e true = hsI ∧ (s.m.ensureSet hs.val (setOf (secOf off)).toNat).spillDown =
      false ∧ ((s.m.ensureSet hs.val (setOf (secOf off)).toNat).slice hs.val).bktBusy ((s.m.ensureSet hs.val (setOf (secOf
      off)).toNat).bktOf hs.val (secOf off)) = false ∧ ((s.m.ensureSet hs.val (setOf (secOf off)).toNat).slice hs.val).bktFull = false) ∧
(∃ (s : State) (hs : SliceId) (x : Nat) (rest : List Nat), s.m.up = true ∧ s.m.spillDown = false ∧ (s.m.slice hs.val).rcn = none ∧
      (s.m.slice hs.val).rcq = x :: rest) ∧
(∃ (s : State) (hs : SliceId) (sec : BitVec 39) (sus : BitVec 2) (rest : List (BitVec 39 × BitVec 2)) (t : Nat), s.m.up = true ∧
      (s.m.slice hs.val).rbq = (sec, sus) :: rest ∧ (s.m.slice hs.val).freeCrow = some t) ∧
(∃ (s : State) (hs : SliceId), s.m.up = true ∧ (s.m.slice hs.val).swp = none ∧ (s.m.slice hs.val).simpSets ≠ []) ∧
(∃ (s : State) (hs : SliceId) (y : Sweep) (x : Nat) (rest : List Nat), s.m.up = true ∧ (s.m.slice hs.val).swp = some y ∧ y.sets = x ::
      rest ∧ y.tag < 2 ^ (s.m.hlog2 - 21)) :=
⟨⟨wVictim true (some false), 0, 0, { sec := 0, word := 0, w := some false }, false, by decide +kernel⟩,
⟨wVictim true none, 0, 0, { sec := 0, word := 0, w := none }, by decide +kernel⟩,
⟨wVictim false (some false), 0, 0, { sec := 0, word := 0, w := some false }, by decide +kernel⟩,
⟨wCopy, 0, 0, 0, 1, by decide +kernel⟩,
⟨wRecount, 0, 5, [], by decide +kernel⟩,
⟨wRbq, 0, 1, 0, [], 504, by decide +kernel⟩,
⟨wSimp, 0, by decide +kernel⟩,
⟨wSweep, 0, { sets := [5], done := 0, tag := 0, queued := [] }, 5, [], by decide +kernel⟩⟩

theorem met_WayBanksChangeState :
(∃ (s : State) (hs : SliceId) (bank : Fin 4), s.m.up = true ∧ (s.m.slice hs.val).bank.getD bank.val .off = .on ∧ s.m.bit (hsA hs.val
      Reg.hsSfctl) 0 = true ∧ (s.m.slice hs.val).bankCount bank.val = 0 ∧ (s.m.slice hs.val).busy.any (fun e => !e.2.hit &&
      e.2.kind.isLine && (e.2.way.any fun x => x / 4 = bank.val)) = false ∧ s.m.lastBank hs.val bank.val = false) ∧
(∃ (s : State) (w : World) (hs : SliceId) (bank : Fin 4), s.m.up = true ∧ s.m.evacBad hs.val bank.val = false ∧ (w = .s ∨ s.m.claimed
      (sliceDom hs.val (1 + bank.val)) = false)) ∧
(∃ (s : State) (hs : SliceId) (bank : Fin 4), s.m.up = true ∧ (s.m.slice hs.val).role = .active ∧ (s.m.slice hs.val).bank.getD bank.val
      .off = .off ∧ s.m.sfBad hs.val bank.val = false ∧ s.m.mbist = none ∧ s.m.dom (sliceDom hs.val 0) = .on) ∧
(∃ (s : State) (hs : SliceId) (bank : Fin 4), s.m.up = true ∧ (s.m.slice hs.val).role = .active ∧ (s.m.slice hs.val).bank.getD bank.val
      .off = .off ∧ s.m.sfBad hs.val bank.val = false ∧ s.m.mbist = none ∧ s.m.dom (sliceDom hs.val 0) ≠ .on) ∧
(∃ (s : State) (w : World) (hs : SliceId) (bank : Fin 4) (e : Evac), s.m.up = true ∧ (s.m.slice hs.val).evac = some e ∧ e.bank = some
      bank.val ∧ e.aborted = false ∧ (w = .s ∨ s.m.claimed (sliceDom hs.val (1 + bank.val)) = false)) ∧
(∃ (s : State) (hs : SliceId), s.m.up = true ∧ (s.m.slice hs.val).evac ≠ none) ∧
(∃ (s : State) (w : World) (data : W32), s.m.up = true ∧ (w = .s ∨ s.m.lcState = 0) ∧ s.m.integ.sfpart = true ∧ (data.getLsbD 0 = false ∨
      s.m.bit Reg.secPart 0 = true ∨ s.m.partOn = true)) :=
⟨⟨wAuto, 0, 1, by decide +kernel⟩,
⟨wOn, .ns, 0, 1, by decide +kernel⟩,
⟨wBankOff, 0, 1, by decide +kernel⟩,
⟨wBankOffCold, 0, 1, by decide +kernel⟩,
⟨wEvac, .ns, 0, 1, { bank := some 1, set := 0, way := 0 }, by decide +kernel⟩,
⟨wEvac, 0, by decide +kernel⟩,
⟨wOn, .s, 1, by decide +kernel⟩⟩

theorem met_QueueCommandsStart :
(∃ (s : State) (w : World), s.m.up = true ∧ s.m.qcmd = none ∧ (w = .s ∨ s.m.qidSec (BitVec.ofNat 20 (s.m.fld Reg.qobQid 0 20)) = false) ∧
      s.m.qidMoving (BitVec.ofNat 20 (s.m.fld Reg.qobQid 0 20)) = false) ∧
(∃ (s : State), s.m.up = true) ∧
(∃ (s : State) (newFirst : BitVec 11), s.m.up = true ∧ s.m.qho = none ∧ newFirst.toNat ≤ 1024 ∧ newFirst.toNat ≠ s.m.fld Reg.qobWcfg 16
      11) ∧
(∃ (s : State) (newFirst : BitVec 11), s.m.up = true ∧ s.m.qho = none ∧ newFirst.toNat ≤ 1024 ∧ newFirst.toNat = s.m.fld Reg.qobWcfg 16
      11) ∧
(∃ (s : State) (o : QHo) (t : Nat), s.m.up = true ∧ s.m.qho = some o ∧ o.going = false ∧ s.m.serving (s.m.qidHs (BitVec.ofNat 20 o.cur)) =
      true ∧ s.m.freeOwn (s.m.qidHs (BitVec.ofNat 20 o.cur)) = some t) :=
⟨⟨wOn, .s, by decide +kernel⟩,
⟨wOn, by decide +kernel⟩,
⟨wOn, 5, by decide +kernel⟩,
⟨wFirst 5, 5, by decide +kernel⟩,
⟨wQho, wHo, 0, by decide +kernel⟩⟩

theorem met_TamperCommandsStart :
(∃ (s : State) (all : Bool) (il : Bool) (sizeLog2 : BitVec 6), s.m.up = true ∧ s.m.tmp = none ∧ s.m.tmpBad 1 all il (s.m.pair
      Reg.tmpBaseLo Reg.tmpBaseHi).toNat sizeLog2.toNat = false ∧ (il = false ∨ ¬ (all = true ∨ 12 ≤ sizeLog2.toNat ∧ sizeLog2.toNat ≤ 46)
      ∨ s.m.queueIn (if all then s.m.hbase else (s.m.pair Reg.tmpBaseLo Reg.tmpBaseHi).toNat) (if all then s.m.hlog2 else sizeLog2.toNat)
      = false)) ∧
(∃ (s : State) (all : Bool) (il : Bool) (sizeLog2 : BitVec 6), s.m.up = true ∧ s.m.tmp = none ∧ s.m.tmpBad 2 all il (s.m.pair
      Reg.tmpBaseLo Reg.tmpBaseHi).toNat sizeLog2.toNat = false) ∧
(∃ (s : State) (all : Bool) (il : Bool) (sizeLog2 : BitVec 6), s.m.up = true ∧ s.m.tmp = none ∧ s.m.tmpBad 3 all il (s.m.pair
      Reg.tmpBaseLo Reg.tmpBaseHi).toNat sizeLog2.toNat = false) ∧
(∃ (s : State) (all : Bool) (il : Bool) (sizeLog2 : BitVec 6), s.m.up = true ∧ s.m.tmp = none ∧ s.m.tmpBad 4 all il (s.m.pair
      Reg.tmpBaseLo Reg.tmpBaseHi).toNat sizeLog2.toNat = false) ∧
(∃ (s : State) (all : Bool) (il : Bool) (sizeLog2 : BitVec 6), s.m.up = true ∧ s.m.tmp = none ∧ s.m.tmpBad 5 all il (s.m.pair
      Reg.tmpBaseLo Reg.tmpBaseHi).toNat sizeLog2.toNat = false) ∧
(∃ (s : State) (o : TmpOp), s.m.up = true ∧ s.m.tmp = some o ∧ o.owner ≠ .device) ∧
(∃ (s : State), s.m.up = true) :=
⟨⟨wOn, true, false, 20, by decide +kernel⟩,
⟨wOn, true, false, 20, by decide +kernel⟩,
⟨wOn, true, false, 20, by decide +kernel⟩,
⟨wZero, false, false, 20, by decide +kernel⟩,
⟨wTamper, true, false, 20, by decide +kernel⟩,
⟨wTmp 1, wOp 1, by decide +kernel⟩,
⟨wOn, by decide +kernel⟩⟩

set_option maxRecDepth 200000 in
theorem met_TamperStepsWork :
(∃ (s : State) (hs : SliceId) (o : TmpOp), s.m.up = true ∧ s.m.tmp = some o ∧ o.op = 1 ∧ o.abort = false ∧ (s.m.slice hs.val).tmpPos <
      1024 ∧ (s.m.slice hs.val).role = .active) ∧
(∃ (s : State) (hs : SliceId) (o : TmpOp), s.m.up = true ∧ s.m.tmp = some o ∧ o.op = 2 ∧ o.abort = false ∧ (s.m.slice hs.val).tmpPos <
      1024 ∧ (s.m.slice hs.val).role = .active ∧ (s.m.slice hs.val).slot.get none (s.m.slice hs.val).tmpPos = none) ∧
(∃ (s : State) (hs : SliceId) (o : TmpOp) (v : QSlot) (a : Option (BitVec 16)) (x : Nat), s.m.up = true ∧ s.m.tmp = some o ∧ o.op = 2 ∧
      o.abort = false ∧ (s.m.slice hs.val).tmpPos < 1024 ∧ (s.m.slice hs.val).role = .active ∧ (s.m.slice hs.val).slot.get none (s.m.slice
      hs.val).tmpPos = some v ∧ v.tail.toNat % 8 ≠ 0 ∧ s.m.tailBusy hs.val (s.m.slice hs.val).tmpPos = false ∧ inRange o.base.toNat o.log2
      (s.m.ringOff v.ring v.cap.toNat (lineNo v.tail)).toNat = true ∧ (o.owner = .s ∨ v.sec = false) ∧ o.known = some (hs.val, (s.m.slice
      hs.val).tmpPos, a) ∧ s.m.ringLeaf v.sec a = .ok x ∧ v.bad = none ∧ crc32c 64 v.twin.toNat = v.tcrc) ∧
(∃ (s : State) (o : TmpOp) (h : Nat) (t : Nat), s.m.up = true ∧ s.m.tmp = some o ∧ o.op = 4 ∧ o.abort = false ∧ o.sent * 64 < 2 ^ o.log2 ∧
      o.why ≠ .spill ∧ s.m.ownLine (o.base + (BitVec.ofNat 46 (o.sent * 64))) = some (h, t)) ∧
(∃ (s : State) (o : TmpOp) (h : Nat) (a : PA), s.m.up = true ∧ s.m.tmp = some o ∧ o.op = 5 ∧ o.abort = false ∧ o.sent * 64 < 2 ^ o.log2 ∧
      s.m.spillDown = false ∧ a = BitVec.ofNat 52 (s.m.hbase + o.base.toNat + o.sent * 64) ∧ h = s.m.hsOf ((s.m.hbase + o.base.toNat +
      o.sent * 64 - (s.m.pair Reg.glbSpbaseLo Reg.glbSpbaseHi).toNat) / 2 ^ (s.m.fld Reg.glbSpsize 0 6 - 5)) ∧ (s.m.slice h).bktBusy a =
      false ∧ (s.m.slice h).bktFull = false ∧ ((s.m.slice h).bkts.filter fun b =>
      match b.use with | .scrubRd | .scrubWr _ => true | _ => false).length < 8) :=
⟨⟨wTmp 1, 0, wOp 1, by decide +kernel⟩,
⟨wTmp 2, 0, wOp 2, by decide +kernel⟩,
⟨wSlot, 0, wOp2, wQs, some 0x100, 16, by decide +kernel⟩,
⟨wTmp 4, wOp 4, 0, 0, by decide +kernel⟩,
⟨wScrub, wOp 5, 0, 0x60000000, by decide +kernel⟩⟩

theorem met_CremaControls :
(∃ (s : State) (data : W32), s.m.up = true ∧ data.getLsbD 0 = false) ∧
(∃ (s : State) (data : W32), s.m.up = true ∧ data.getLsbD 0 = true ∧ s.m.bit Reg.crmStat 0 = false) ∧
(∃ (s : State) (data : W32), s.m.up = true ∧ data.getLsbD 0 = true ∧ s.m.bit Reg.crmStat 0 = true ∧ data.getLsbD 1 = true) ∧
(∃ (s : State), s.m.up = true) ∧
(∃ (s : State) (hs : SliceId) (q : Pf) (rest : List Pf) (a : BitVec 16), s.m.up = true ∧ (s.m.slice hs.val).pfq = q :: rest ∧ s.m.rcFind
      hs.val (BitVec.ofInt 46 q.off) = some a ∧ atPf a = true ∧ atAlloc a = true ∧ s.m.crmClass (BitVec.ofInt 46 q.off) a = true ∧ atSec a
      = q.sec ∧ s.m.crmWay hs.val (keyOf (BitVec.ofInt 46 q.off)) = none ∧ s.m.bit Reg.crmCtl 0 = true ∧ s.m.bit Reg.crmCtl 2 = true ∧
      (s.m.slice hs.val).held ((0 : BitVec 1) ++ keyOf (BitVec.ofInt 46 q.off)) = false ∧ (s.m.slice hs.val).waited ((0 : BitVec 1) ++
      keyOf (BitVec.ofInt 46 q.off)) = false ∧ 8 < (s.m.slice hs.val).rbFree ∧ (s.m.port (atPort a)).egr = [] ∧ (s.m.port (atPort
      a)).peer.getD 6 0 ≠ 0 ∧ s.m.portDown (atPort a) = false) ∧
(∃ (s : State) (hs : SliceId) (q : Pf) (rest : List Pf), s.m.up = true ∧ (s.m.slice hs.val).pfq = q :: rest) :=
⟨⟨wOn, 0, by decide +kernel⟩,
⟨wFresh, 1, by decide +kernel⟩,
⟨wStale, 3, by decide +kernel⟩,
⟨wOn, by decide +kernel⟩,
⟨wPf, 0, { off := 0, sec := false }, [], 0x30, by decide +kernel⟩,
⟨wPf, 0, { off := 0, sec := false }, [], by decide +kernel⟩⟩

theorem met_CremaLocks :
(∃ (s : State) (sizeLog2 : BitVec 6), s.m.up = true ∧ s.m.lk = none ∧ s.m.wiping = false ∧ 12 ≤ sizeLog2.toNat ∧ sizeLog2.toNat ≤ 34 ∧
      s.m.rangeOk (s.m.pair Reg.crmLkbaseLo Reg.crmLkbaseHi).toNat sizeLog2.toNat = true ∧ s.m.bit Reg.crmCtl 0 = true) ∧
(∃ (s : State) (sizeLog2 : BitVec 6), s.m.up = true ∧ s.m.lk = none ∧ s.m.wiping = false ∧ 12 ≤ sizeLog2.toNat ∧ sizeLog2.toNat ≤ 34 ∧
      s.m.rangeOk (s.m.pair Reg.crmLkbaseLo Reg.crmLkbaseHi).toNat sizeLog2.toNat = true) ∧
(∃ (s : State) (k : LkCmd) (h : Nat) (t : Nat), s.m.up = true ∧ s.m.lk = some k ∧ k.lock = true ∧ k.sent * 64 < 2 ^ k.log2 ∧ s.m.ownLine
      (k.base + BitVec.ofNat 46 (k.sent * 64)) = some (h, t)) ∧
(∃ (s : State) (k : LkCmd) (h : Nat) (t : Nat), s.m.up = true ∧ s.m.lk = some k ∧ k.lock = false ∧ k.sent * 64 < 2 ^ k.log2 ∧ s.m.ownLine
      (k.base + BitVec.ofNat 46 (k.sent * 64)) = some (h, t)) ∧
(∃ (s : State) (sWays : BitVec 3), s.m.up = true ∧ sWays.toNat ≠ s.m.fld Reg.crmLkcfg 0 3 ∧ s.m.wiping = false ∧ sWays.toNat ≤ 6) ∧
(∃ (s : State) (hs : SliceId) (x : Nat) (ways : BitVec 16), s.m.up = true ∧ (s.m.slice hs.val).wipe = some (x, ways)) :=
⟨⟨wLkOn, 20, by decide +kernel⟩,
⟨wLkOn, 20, by decide +kernel⟩,
⟨wLk true, wLkc true, 0, 0, by decide +kernel⟩,
⟨wLk false, wLkc false, 0, 0, by decide +kernel⟩,
⟨wOn, 2, by decide +kernel⟩,
⟨wWipe, 0, 1023, 0x1000, by decide +kernel⟩⟩

theorem met_PortControlsAct :
(∃ (s : State) (w : World) (port : PortId), s.m.up = true ∧ s.m.populated port.val = true ∧ s.m.bit (portA port.val Reg.pLctl) 0 = false ∧
      (w = .s ∨ s.m.claimed (portDom port.val) = false)) ∧
(∃ (s : State) (port : PortId), s.m.up = true ∧ s.m.populated port.val = true ∧ s.m.bit (portA port.val Reg.pLctl) 0 = true) ∧
(∃ (s : State) (port : PortId) (on : Bool), s.m.up = true ∧ s.m.populated port.val = true ∧ s.m.bit (portA port.val Reg.pLctl) 0 = on) ∧
(∃ (s : State) (w : World) (port : PortId), s.m.up = true ∧ s.m.populated port.val = true ∧ s.m.portIn port.val = true ∧ (w = .s ∨
      s.m.claimed (portDom port.val) = false)) ∧
(∃ (s : State) (port : PortId), s.m.up = true ∧ s.m.populated port.val = true ∧ (s.m.port port.val).st ≠ .fenced) ∧
(∃ (s : State) (port : PortId), s.m.up = true ∧ s.m.populated port.val = true) :=
⟨⟨wPort, .ns, 3, by decide +kernel⟩,
⟨wQuiet, 3, by decide +kernel⟩,
⟨wPort, 3, false, by decide +kernel⟩,
⟨wPort, .ns, 3, by decide +kernel⟩,
⟨wPort, 3, by decide +kernel⟩,
⟨wPort, 3, by decide +kernel⟩⟩

theorem met_ResetsAct :
(∃ (s : State), s.m.up = true ∧ s.m.drain = none ∧ s.m.safe = none ∧ s.m.lc = none) ∧
(∃ (s : State) (hs : BitVec 6), s.m.up = true ∧ s.m.drain = none ∧ hs.toNat < 34 ∧ (s.m.slice hs.toNat).role ≠ .active ∧ s.m.rehome = none
      ∧ s.m.slices.any (fun e => e.2.copy.any fun c => c.old = hs.toNat) = false ∧ (s.m.slice hs.toNat).msp = none) ∧
(∃ (s : State) (w : World) (num : BitVec 6), s.m.up = true ∧ s.m.drain = none ∧ num.toNat < 16 ∧ s.m.populated num.toNat = true ∧
      (s.m.port num.toNat).st = .down ∧ (w = .s ∨ s.m.claimed (portDom num.toNat) = false)) ∧
(∃ (s : State) (num : BitVec 6), s.m.up = true ∧ s.m.drain = none ∧ num.toNat < 16 ∧ s.m.populated num.toNat = true ∧ (s.m.port
      num.toNat).st = .fenced) ∧
(∃ (s : State), s.m.up = true ∧ s.m.lc = none) ∧
(∃ (s : State), s.m.up = true ∧ s.m.drain = some .warm) ∧
(∃ (s : State), s.m.up = true ∧ s.m.drain = some .soft) ∧
(∃ (s : State) (hs : SliceId) (z : Zer), s.m.up = true ∧ (s.m.slice hs.val).zeroise = some z) :=
⟨⟨wOn, by decide +kernel⟩,
⟨wOn, 33, by decide +kernel⟩,
⟨wOn, .ns, 3, by decide +kernel⟩,
⟨wLink .fenced, 3, by decide +kernel⟩,
⟨wOn, by decide +kernel⟩,
⟨wDrain .warm, by decide +kernel⟩,
⟨wDrain .soft, by decide +kernel⟩,
⟨wZer, 0, { bank3 := false, ways := 0, slots := 0 }, by decide +kernel⟩⟩

theorem met_PowerOnAndBringUp :
(∃ (s : State) (k : Fin 16), s.m.up = false ∧ (∀ i : Fin 16, (s.cstore[i]).1.toNat < (s.cstore[k]).1.toNat ∨ i = k)) ∧
(∃ (s : State), s.m.up = true ∧ s.m.halted = false ∧ s.m.rcr.closed = false ∧ s.m.drain = none ∧ s.m.safe = none ∧ s.m.lc = none ∧
      s.m.step = 1) ∧
(∃ (s : State), s.m.up = true ∧ s.m.halted = false ∧ s.m.rcr.closed = false ∧ s.m.drain = none ∧ s.m.safe = none ∧ s.m.lc = none ∧
      s.m.step = 2 ∧ (s.m.lcState ≠ 4 ∨ s.erased = true)) ∧
(∃ (s : State), s.m.up = true ∧ s.m.halted = false ∧ s.m.rcr.closed = false ∧ s.m.drain = none ∧ s.m.safe = none ∧ s.m.lc = none ∧
      s.m.step = 2 ∧ s.m.lcState = 4 ∧ s.erased = false) ∧
(∃ (s : State), s.m.up = true ∧ s.m.halted = false ∧ s.m.rcr.closed = false ∧ s.m.drain = none ∧ s.m.safe = none ∧ s.m.lc = none ∧
      s.m.step = 3 ∧ s.m.ctrlRuns 0 = true) ∧
(∃ (s : State), s.m.up = true ∧ s.m.halted = false ∧ s.m.rcr.closed = false ∧ s.m.drain = none ∧ s.m.safe = none ∧ s.m.lc = none ∧
      s.m.step = 4) ∧
(∃ (s : State), s.m.up = true ∧ s.m.halted = false ∧ s.m.rcr.closed = false ∧ s.m.drain = none ∧ s.m.safe = none ∧ s.m.lc = none ∧
      s.m.step = 5) ∧
(∃ (s : State), s.m.up = true ∧ s.m.halted = false ∧ s.m.rcr.closed = false ∧ s.m.drain = none ∧ s.m.safe = none ∧ s.m.lc = none ∧
      s.m.step = 6 ∧ (List.range 28).all (fun p => !s.m.populated p || decide ((s.m.port p).st ≠ .down)) = true ∧ s.m.seeds.find? (fun x
      => (s.m.port (16 + x.2.2)).st = .fenced) = none) ∧
(∃ (s : State) (x : Nat × Nat × Nat), s.m.up = true ∧ s.m.halted = false ∧ s.m.rcr.closed = false ∧ s.m.drain = none ∧ s.m.safe = none ∧
      s.m.lc = none ∧ s.m.step = 6 ∧ (List.range 28).all (fun p => !s.m.populated p || decide ((s.m.port p).st ≠ .down)) = true ∧
      s.m.seeds.find? (fun x => (s.m.port (16 + x.2.2)).st = .fenced) = some x) ∧
(∃ (s : State), s.m.up = true ∧ s.m.halted = false ∧ s.m.rcr.closed = false ∧ s.m.drain = none ∧ s.m.safe = none ∧ s.m.lc = none ∧
      s.m.step = 7 ∧ s.m.tmpq.any (fun (o : TmpOp) => o.why = TmpWhy.spill) = false) :=
⟨⟨wStore, 4, by decide +kernel⟩,
⟨wStep 1, by decide +kernel⟩,
⟨wStep 2, by decide +kernel⟩,
⟨wStepDec, by decide +kernel⟩,
⟨wStep3, by decide +kernel⟩,
⟨wStep 4, by decide +kernel⟩,
⟨wStep 5, by decide +kernel⟩,
⟨wStep6 .init, by decide +kernel⟩,
⟨wStep6 .fenced, wSeed, by decide +kernel⟩,
⟨wStep 7, by decide +kernel⟩⟩

theorem met_DomainsSwitch :
(∃ (s : State) (w : World) (dom : BitVec 8), s.m.up = true ∧ s.m.domWhy w dom.toNat true = none ∧ s.m.ctrlRuns 0 = false) ∧
(∃ (s : State) (w : World) (dom : BitVec 8), s.m.up = true ∧ s.m.domWhy w dom.toNat true = none ∧ s.m.dom dom.toNat = .off ∧ s.m.ctrlRuns
      0 = true ∧ s.m.domq = []) ∧
(∃ (s : State) (w : World) (dom : BitVec 8), s.m.up = true ∧ s.m.domWhy w dom.toNat true = none ∧ s.m.dom dom.toNat = .on ∧ s.m.ctrlRuns 0
      = true ∧ s.m.domq = []) ∧
(∃ (s : State) (w : World) (dom : BitVec 8), s.m.up = true ∧ s.m.domWhy w dom.toNat false = none ∧ (w = .s ∨ s.m.claimed (dom.toNat) =
      false) ∧ s.m.dom dom.toNat = .on ∧ s.m.ctrlRuns 0 = true ∧ s.m.domq = []) ∧
(∃ (s : State) (w : World) (dom : BitVec 8), s.m.up = true ∧ s.m.domWhy w dom.toNat false = none ∧ (w = .s ∨ s.m.claimed (dom.toNat) =
      false) ∧ s.m.dom dom.toNat = .off ∧ s.m.ctrlRuns 0 = true ∧ s.m.domq = []) ∧
(∃ (s : State) (dom : BitVec 8), s.m.up = true ∧ s.m.dom dom.toNat = .waking) ∧
(∃ (s : State) (dom : BitVec 8), s.m.up = true ∧ s.m.dom dom.toNat = .draining ∧ s.m.ctrlRuns 0 = true ∧ 204 ≤ dom.toNat) ∧
(∃ (s : State) (dom : BitVec 8), s.m.up = true ∧ s.m.dom dom.toNat = .draining ∧ dom.toNat < 204 ∧ dom.toNat % 6 ≠ 0 ∧ s.m.ctrlRuns 0 =
      true ∧ (s.m.slice (dom.toNat / 6)).slot = [] ∧ (s.m.slice (dom.toNat / 6)).busy.any (fun e => e.2.st = .active && e.2.kind = .atm &&
      e.2.far && e.2.crm.use) = false) ∧
(∃ (s : State) (dom : BitVec 8), s.m.up = true ∧ s.m.dom dom.toNat = .draining ∧ dom.toNat < 204 ∧ dom.toNat % 6 = 0 ∧ s.m.ctrlRuns 0 =
      true ∧ s.m.idle (dom.toNat / 6) = true ∧ (s.m.slice (dom.toNat / 6)).slot = []) :=
⟨⟨wCpDown, .s, 217, by decide +kernel⟩,
⟨wDoms, .s, 217, by decide +kernel⟩,
⟨wDown, .s, 217, by decide +kernel⟩,
⟨wDown, .s, 217, by decide +kernel⟩,
⟨wDoms, .s, 217, by decide +kernel⟩,
⟨wWaking, 217, by decide +kernel⟩,
⟨wDraining 217, 217, by decide +kernel⟩,
⟨wDraining 5, 5, by decide +kernel⟩,
⟨wDraining 0, 0, by decide +kernel⟩⟩

theorem met_SlicePowerAndClocks :
(∃ (s : State) (hs : SliceId), s.m.up = true ∧ s.m.dom (sliceDom hs.val 0) = .on ∧ (s.m.slice hs.val).role = .active ∧ s.m.idle hs.val =
      true) ∧
(∃ (s : State), s.m.up = true) ∧
(∃ (s : State) (hs : SliceId), s.m.up = true ∧ (s.m.slice hs.val).role = .active ∧ s.m.dom (sliceDom hs.val 0) = .on ∧ s.m.idle hs.val =
      true ∧ (s.m.slice hs.val).bare = true ∧ s.m.step = 8 ∧ s.m.ctrlRuns 0 = true) ∧
(∃ (s : State) (hs : SliceId), s.m.up = true ∧ (s.m.slice hs.val).role = .active ∧ s.m.dom (sliceDom hs.val 0) = .draining) ∧
(∃ (s : State) (hs : SliceId), s.m.up = true ∧ (s.m.slice hs.val).role = .active ∧ s.m.dom (sliceDom hs.val 0) = .off ∧ s.m.step = 8) ∧
(∃ (s : State) (w : World) (data : W32), s.m.up = true ∧ s.m.freqTo = none ∧ s.m.freqOk (data.extractLsb' 0 5).toNat = true ∧ s.m.freqOk
      (data.extractLsb' 16 5).toNat = true ∧ (w = .s ∨ s.m.active.any (fun h => s.m.claimed (sliceDom h 0)) = false)) ∧
(∃ (s : State) (f : BitVec 5), s.m.up = true ∧ s.m.freqTo = some f ∧ s.m.rehome.any (·.freeze) = false ∧ s.m.ctrlRuns 0 = true) ∧
(∃ (s : State), s.m.up = true ∧ s.m.tmon.getLsbD 0 = true) :=
⟨⟨wOn, 0, by decide +kernel⟩,
⟨wOn, by decide +kernel⟩,
⟨wOn, 0, by decide +kernel⟩,
⟨wDraining 0, 0, by decide +kernel⟩,
⟨wCold, 0, by decide +kernel⟩,
⟨wOn, .s, 0xC0010, by decide +kernel⟩,
⟨wFreq, 16, by decide +kernel⟩,
⟨wHot, by decide +kernel⟩⟩

theorem met_IslandAndControllers :
(∃ (s : State), s.m.up = true) ∧
(∃ (s : State) (k : Vmon), s.m.up = true ∧ (k.val = 3 ∨ (({ s.m with vmon := s.m.vmon ||| (1#4 <<< k.val) } : Mach).setEvt 1).bit
      (Reg.aonVcfg + 4 * k.val) 31 = true)) ∧
(∃ (s : State) (k : Vmon), s.m.up = true ∧ k.val ≠ 3 ∧ (({ s.m with vmon := s.m.vmon ||| (1#4 <<< k.val) } : Mach).setEvt 1).bit
      (Reg.aonVcfg + 4 * k.val) 31 = false) ∧
(∃ (s : State) (c : Ctrl), s.m.up = true ∧ s.m.ctrlRuns (ctrlNum c) = true) ∧
(∃ (s : State) (c : Ctrl), s.m.up = true ∧ s.m.ctrlRuns (ctrlNum c) = true ∧ c = .tlp) ∧
(∃ (s : State), s.m.up = true ∧ (s.m.ctrl.get {} 1).run = 3) ∧
(∃ (s : State), s.m.up = true ∧ (s.m.ctrl.get {} 2).run = 3 ∧ s.m.rcr.mapPend = []) ∧
(∃ (s : State), s.m.up = true ∧ (s.m.ctrl.get {} 0).run = 3 ∧ s.m.step = 8) ∧
(∃ (s : State) (hs : SliceId), s.m.up = true ∧ (s.m.slice hs.val).role = .active ∧ s.m.dom (sliceDom hs.val 0) = .on ∧ (s.m.slice
      hs.val).run ≠ .stopped) ∧
(∃ (s : State) (addr : BitVec 20) (bytes : BitVec 4), s.m.up = true ∧ (regRow s.m.integ (addr.toNat / 4 * 4)).isSome = true ∧ bytes ≠ 0 ∧
      s.m.bit (Reg.pgPar (addr.toNat / 0x1000)) 31 = false ∧ 0x40 ≤ addr.toNat / 0x1000 ∧ addr.toNat / 0x1000 < 0x5C) ∧
(∃ (s : State) (addr : BitVec 20) (bytes : BitVec 4), s.m.up = true ∧ (regRow s.m.integ (addr.toNat / 4 * 4)).isSome = true ∧ bytes ≠ 0 ∧
      s.m.bit (Reg.pgPar 1) 31 = false ∧ addr.toNat / 0x1000 = 1) :=
⟨⟨wOn, by decide +kernel⟩,
⟨wOn, 1, by decide +kernel⟩,
⟨wOn, 0, by decide +kernel⟩,
⟨wCtrl, .tlp, by decide +kernel⟩,
⟨wCtrl, .tlp, by decide +kernel⟩,
⟨wHeld 1, by decide +kernel⟩,
⟨wHeld 2, by decide +kernel⟩,
⟨wHeld 0, by decide +kernel⟩,
⟨wOn, 0, by decide +kernel⟩,
⟨wOn, 0x43020, 1, by decide +kernel⟩,
⟨wOn, 0x1020, 1, by decide +kernel⟩⟩

theorem met_FaultsAndSafeState :
(∃ (s : State), s.m.up = true) ∧
(∃ (s : State), s.m.up = true ∧ s.m.caps ≠ []) ∧
(∃ (s : State), s.m.up = true ∧ s.m.caps = []) ∧
(∃ (s : State) (x : Safe), s.m.up = true ∧ s.m.safe = some x ∧ x.step = 2) ∧
(∃ (s : State) (x : Safe), s.m.up = true ∧ s.m.safe = some x ∧ x.step = 3) ∧
(∃ (s : State) (x : Safe), s.m.up = true ∧ s.flushAll.m.safe = some x ∧ s.m.safe.any (fun x => x.step = 4) = true ∧ x.step = 4) :=
⟨⟨wOn, by decide +kernel⟩,
⟨wCaps, by decide +kernel⟩,
⟨wOn, by decide +kernel⟩,
⟨wSafe 2, wSf 2, by decide +kernel⟩,
⟨wSafe 3, wSf 3, by decide +kernel⟩,
⟨wSafe 4, wSf 4, by decide +kernel⟩⟩

theorem met_RehomingGoesOn :
(∃ (s : State) (hs : BitVec 6), s.m.up = true ∧ s.m.rehome = none ∧ s.m.slices.any (fun e => e.2.copy.isSome) = false ∧ hs.toNat < 34 ∧
      (s.m.slice hs.toNat).role = .active ∧ s.m.ctrlRuns 1 = true) ∧
(∃ (s : State) (r : Rehome), s.m.up = true ∧ s.m.rehome = some r ∧ r.freeze = false ∧ s.m.ctrlRuns 1 = true ∧ (List.range 6).all (fun k =>
      s.m.dom (sliceDom r.new k) = .on || s.m.dom (sliceDom r.new k) = .waking) = true) ∧
(∃ (s : State) (r : Rehome), s.m.up = true ∧ s.m.rehome = some r ∧ r.freeze = true ∧ s.m.ctrlRuns 1 = true) ∧
(∃ (s : State) (h : Nat) (c : Copy), s.m.up = true ∧ s.m.active.find? (fun h => (s.m.slice h).copy.any fun c => decide (c.next < 16384)) =
      some h ∧ (s.m.slice h).copy = some c ∧ c.next + 1 < 16384 ∧ s.m.ctrlRuns 1 = true) ∧
(∃ (s : State) (hs : SliceId) (o : OSweep), s.m.up = true ∧ (s.m.slice hs.val).osw = some o ∧ o.set < 16384 ∧ o.wsec = none ∧ s.m.serving
      hs.val = true ∧ ((s.m.ensureSet hs.val o.set).checkSet hs.val o.set).spillDown = true) :=
⟨⟨wCtrl, 3, by decide +kernel⟩,
⟨wRh false, wRhr false, by decide +kernel⟩,
⟨wRh true, wRhr true, by decide +kernel⟩,
⟨wCopySf, 0, wCp, by decide +kernel⟩,
⟨wOsw, 0, { agent := 3, set := 0, lostN := 0 }, by decide +kernel⟩⟩

theorem met_RecorderWrites :
(∃ (s : State) (x : Rcd) (rest : List Rcd), s.m.up = true ∧ s.m.rcr.buf = x :: rest ∧ s.m.rcr.writes = true ∧ (s.m.rcr.exempt = true ∨
      s.m.rcr.spent + s.flushCost x.len ≤ flushBudget)) ∧
(∃ (s : State) (x : Rcd) (rest : List Rcd), s.m.up = true ∧ s.m.rcr.buf = x :: rest ∧ s.m.rcr.writes = true) ∧
(∃ (s : State) (x : Rcd) (rest : List Rcd), s.m.up = true ∧ s.m.rcr.buf = x :: rest ∧ s.m.rcr.writes = true ∧ s.m.rcr.exempt = false ∧
      flushBudget < s.m.rcr.spent + s.flushCost x.len) ∧
(∃ (s : State), s.m.up = true ∧ s.m.rcr.paused = true ∧ s.m.rcr.spent < flushBudget) ∧
(∃ (s : State), s.m.up = true ∧ s.m.rcr.ready = false ∧ s.m.dom 213 = .on) ∧
(∃ (s : State) (set : Fin 8), s.m.up = true ∧ s.m.rcr.run.get 0 set.val ≠ 0 ∧ s.m.ctrlRuns 2 = true ∧ s.m.rcr.got.get none set.val = none) ∧
(∃ (s : State) (set : Fin 8) (y : BitVec 20 × W32), s.m.up = true ∧ s.m.rcr.run.get 0 set.val ≠ 0 ∧ s.m.ctrlRuns 2 = true ∧
      s.m.rcr.got.get none set.val = some y) ∧
(∃ (s : State), s.m.up = true ∧ s.m.reg Reg.recPeriod ≠ 0) ∧
(∃ (s : State), s.m.up = true ∧ s.m.rcr.frozen = true) :=
⟨⟨wRec, wRcd, [], by decide +kernel⟩,
⟨wRec, wRcd, [], by decide +kernel⟩,
⟨wSpent, wRcd, [], by decide +kernel⟩,
⟨wPaused, by decide +kernel⟩,
⟨wScan, by decide +kernel⟩,
⟨wSnap, 0, by decide +kernel⟩,
⟨wSnapGot, 0, (0, 0), by decide +kernel⟩,
⟨wPeriod, by decide +kernel⟩,
⟨wFrz, by decide +kernel⟩⟩

theorem met_RecorderCommandsAct :
(∃ (s : State), s.m.up = true) ∧
(∃ (s : State), s.m.up = true ∧ s.m.rcr.frozen = false ∧ s.m.rcr.exempt = false) ∧
(∃ (s : State), s.m.up = true ∧ s.m.rcr.frozen = true) :=
⟨⟨wOn, by decide +kernel⟩,
⟨wOn, by decide +kernel⟩,
⟨wFrz, by decide +kernel⟩⟩

theorem met_SelfTestsRun :
(∃ (s : State) (w : World) (hs : BitVec 6) (tgt : Bool) (bank : Fin 4), s.m.up = true ∧ s.m.mbWhy hs.toNat tgt bank.val = none ∧ (w = .s ∨
      s.m.claimed (sliceDom hs.toNat 0) = false)) ∧
(∃ (s : State) (w : World) (t : Mbist), s.m.up = true ∧ s.m.mbist = some t ∧ (w = .s ∨ s.m.claimed (sliceDom t.hs 0) = false)) ∧
(∃ (s : State) (b : Mbist), s.m.up = true ∧ s.m.mbist = some b ∧ b.stage = 1 ∧ (b.crm = true ∨ (s.m.slice b.hs).evac = none)) ∧
(∃ (s : State) (b : Mbist), s.m.up = true ∧ s.m.mbist = some b ∧ b.stage = 2) ∧
(∃ (s : State) (b : Mbist), s.m.up = true ∧ s.m.mbist = some b ∧ b.stage = 3) ∧
(∃ (s : State), s.m.up = true ∧ s.m.lbOk = true) ∧
(∃ (s : State), s.m.up = true ∧ s.m.lbist = true) :=
⟨⟨wOn, .s, 0, true, 0, by decide +kernel⟩,
⟨wMb 1, .s, wMbt 1, by decide +kernel⟩,
⟨wMb 1, wMbt 1, by decide +kernel⟩,
⟨wMb 2, wMbt 2, by decide +kernel⟩,
⟨wMb 3, wMbt 3, by decide +kernel⟩,
⟨wOn, by decide +kernel⟩,
⟨wLb, by decide +kernel⟩⟩

set_option maxRecDepth 200000 in
theorem met_LifecycleAndHeldRequests :
(∃ (s : State) (w : World) (need : Nat), s.m.up = true ∧ (w = .s ∨ s.m.lcState = 0) ∧ s.m.lc = none ∧ lcNeeds s.m.lcState (s.m.fld
      Reg.secLcstat 4 2) 1 = some need ∧ (need = 0 ∨ s.authOk need = true) ∧ s.m.drain = none ∧ ecValid (keyOfWords ((List.range 24).map
      fun i => s.m.reg (Reg.secKey + 4 * i))).1 (keyOfWords ((List.range 24).map fun i => s.m.reg (Reg.secKey + 4 * i))).2 = true) ∧
(∃ (s : State) (w : World) (need : Nat), s.m.up = true ∧ (w = .s ∨ s.m.lcState = 0) ∧ s.m.lc = none ∧ lcNeeds s.m.lcState (s.m.fld
      Reg.secLcstat 4 2) 2 = some need ∧ (need = 0 ∨ s.authOk need = true) ∧ s.m.drain = none) ∧
(∃ (s : State) (w : World) (need : Nat), s.m.up = true ∧ (w = .s ∨ s.m.lcState = 0) ∧ s.m.lc = none ∧ lcNeeds s.m.lcState (s.m.fld
      Reg.secLcstat 4 2) 3 = some need ∧ (need = 0 ∨ s.authOk need = true) ∧ s.m.drain = none) ∧
(∃ (s : State) (w : World) (need : Nat), s.m.up = true ∧ (w = .s ∨ s.m.lcState = 0) ∧ s.m.lc = none ∧ lcNeeds s.m.lcState (s.m.fld
      Reg.secLcstat 4 2) 4 = some need ∧ (need = 0 ∨ s.authOk need = true) ∧ s.m.drain = none) ∧
(∃ (s : State) (w : World), s.m.up = true ∧ (w = .s ∨ s.m.lcState = 0) ∧ s.m.lc = none ∧ s.authOk 4 = true) ∧
(∃ (s : State) (l : LcTrans), s.m.up = true ∧ s.m.lc = some l ∧ l.stage = 1) ∧
(∃ (s : State) (l : LcTrans), s.m.up = true ∧ s.m.lc = some l ∧ l.stage = 2) ∧
(∃ (s : State) (l : LcTrans), s.m.up = true ∧ s.m.lc = some l ∧ l.stage = 3) ∧
(∃ (s : State) (l : LcTrans), s.m.up = true ∧ s.m.lc = some l ∧ l.stage = 4) ∧
(∃ (s : State) (l : LcTrans), s.m.up = true ∧ s.m.lc = some l ∧ l.stage = 5) ∧
(∃ (s : State) (l : LcTrans), s.m.up = true ∧ s.m.lc = some l ∧ l.stage = 6) ∧
(∃ (s : State) (w : World) (ctrl : BitVec 2), s.m.up = true ∧ (w = .s ∨ s.m.lcState = 0) ∧ ctrl.toNat < 3 ∧ (s.m.ctrl.get {}
      ctrl.toNat).run = 2 ∧ s.m.fld (Reg.secPatch + 4 * ctrl.toNat) 30 2 = 1 ∧ s.m.fld (Reg.secPatch + 4 * ctrl.toNat) 8 6 < s.m.fld
      (Reg.secPatch + 4 * ctrl.toNat) 0 6) ∧
(∃ (s : State) (w : World) (x : BitVec 20 × W32) (rest : List (BitVec 20 × W32)), s.m.up = true ∧ (w = .s ∨ s.m.lcState = 0) ∧ s.m.heldq =
      x :: rest) :=
⟨⟨wProv, .s, 0, by decide +kernel⟩,
⟨wLife 1, .s, 0, by decide +kernel⟩,
⟨wAuthRma, .s, 1, by decide +kernel⟩,
⟨wLife 0, .s, 0, by decide +kernel⟩,
⟨wAuthDebug, .s, by decide +kernel⟩,
⟨wLc 1 2, wLct 1 2, by decide +kernel⟩,
⟨wLc 2 2, wLct 2 2, by decide +kernel⟩,
⟨wLc 3 2, wLct 3 2, by decide +kernel⟩,
⟨wLc 4 2, wLct 4 2, by decide +kernel⟩,
⟨wLc 5 2, wLct 5 2, by decide +kernel⟩,
⟨wLc 6 4, wLct 6 4, by decide +kernel⟩,
⟨wPatch, .s, 2, by decide +kernel⟩,
⟨wHq, .s, (0x1024, 0xC0010), [], by decide +kernel⟩⟩

theorem met_MapPredictorAndCombining :
(∃ (s : State) (all : Bool) (sizeLog2 : BitVec 6), s.m.up = true ∧ s.m.invBusy = false ∧ (all = true ∨ 12 ≤ sizeLog2.toNat ∧
      sizeLog2.toNat ≤ 46 ∧ s.m.rangeOk (s.m.pair Reg.rmpInvBaseLo Reg.rmpInvBaseHi).toNat sizeLog2.toNat = true)) ∧
(∃ (s : State), s.m.up = true) ∧
(∃ (s : State) (data : W32), s.m.up = true ∧ (data.getLsbD 1 = false ∨ s.m.active.any (fun h => (s.m.slice h).predClr) = false)) ∧
(∃ (s : State) (hs : SliceId) (buf : Fin 16) (v : WcBuf), s.m.up = true ∧ (s.m.slice hs.val).wcb buf.val = some v ∧ v.wr = none ∧ v.bad =
      false ∧ ((s.m.bump hs.val Reg.hscWccls).bump hs.val Reg.hscWctmo).portDown (atPort v.attr) = false) ∧
(∃ (s : State) (hs : SliceId) (buf : Fin 16) (v : WcBuf), s.m.up = true ∧ (s.m.slice hs.val).wcb buf.val = some v ∧ v.wr = none ∧
      ((s.m.bump hs.val Reg.hscWccls).bump hs.val Reg.hscWctmo).portDown (atPort v.attr) = true) :=
⟨⟨wOn, true, 0, by decide +kernel⟩,
⟨wOn, by decide +kernel⟩,
⟨wOn, 3, by decide +kernel⟩,
⟨wWcWrite0, 0, 1, wWc none, by decide +kernel⟩,
⟨wWcDown, 0, 1, wWc none, by decide +kernel⟩⟩

theorem met_SliceAndPortPages :
(∃ (s : State) (data : W32), s.m.up = true ∧ (s.m.lcState = 0 ∨ s.m.lcState = 1 ∨ s.m.lcState = 3 ∨ s.m.dbgOpen = true) ∧ (data.getLsbD 31
      = false ∨ (data.extractLsb' 0 4 = 1 ∧ (data.extractLsb' 8 4).toNat < 8) ∨ ((data.extractLsb' 0 4 = 2 ∨ data.extractLsb' 0 4 = 3 ∨
      data.extractLsb' 0 4 = 6) ∧ (data.extractLsb' 8 4).toNat < 6) ∨ data.extractLsb' 0 4 = 4 ∨ data.extractLsb' 0 4 = 7)) ∧
(∃ (s : State) (hs : SliceId) (array : BitVec 4) (chunk : BitVec 2), s.m.up = true ∧ (s.m.slice hs.val).msp = none ∧ s.m.rvpHolds hs.val =
      false ∧ mspOk array chunk (s.m.fld (hsA hs.val Reg.hsMspIdx) 0 18) = true ∧ s.m.unpowered (mspDom hs.val array (s.m.fld (hsA hs.val
      Reg.hsMspIdx) 0 18)) = false) ∧
(∃ (s : State) (hs : SliceId) (array : BitVec 4) (chunk : BitVec 2), s.m.up = true ∧ (s.m.slice hs.val).msp = none ∧ s.m.rvpHolds hs.val =
      false ∧ mspOk array chunk (s.m.fld (hsA hs.val Reg.hsMspIdx) 0 18) = true ∧ s.m.unpowered (mspDom hs.val array (s.m.fld (hsA hs.val
      Reg.hsMspIdx) 0 18)) = true) ∧
(∃ (s : State) (hs : SliceId) (r : Msp), s.m.up = true ∧ (s.m.slice hs.val).msp = some r) ∧
(∃ (s : State), s.m.up = true) ∧
(∃ (s : State) (port : PortId), s.m.up = true ∧ s.m.populated port.val = true) :=
⟨⟨wOn, 0x80000001, by decide +kernel⟩,
⟨wOn, 0, 2, 0, by decide +kernel⟩,
⟨wCold, 0, 2, 0, by decide +kernel⟩,
⟨wMsp, 0, { array := 2, chunk := 0, idx := 0 }, by decide +kernel⟩,
⟨wOn, by decide +kernel⟩,
⟨wOn, 3, by decide +kernel⟩⟩

end Sys2Proof.Tests
end

section
/-! PROOFS. The shapes of the commands' meanings, and the two statements about the block as a whole (`spec/00_scope.md`). -/

namespace Sys2Proof.Machine

-- ===== the shape of every command's meaning =====

/-- What a command answers has one of the four shapes of `Sys2Proof/Machine/Exec.lean`, or the command is one of the four whose
meaning is a next state of its own: the two of POR, a read request and a request whose parity fails. The function of a shape is
the same for every state. -/
inductive Shape (c : Instr) : Prop
  | run (f : Mach → Mach) (h : ∀ s, exec c s = s.run f)
  | event (f : State → State) (h : ∀ s, exec c s = s.event f)
  | command (f : Mach → Mach) (h : ∀ s, exec c s = s.command f)
  | request (f : State → State) (h : ∀ s, exec c s = s.request f)
  | por (h : c = .por)
  | porRelease (h : c = .porRelease)
  | mgmtPerr (h : c = .mgmtPerr)
  | loRead (w : World) (addr : BitVec 20) (h : c = .loRead w addr)

/-- Every command has a shape. The register writes, the management requests and the events that reach a store are listed; the other
commands are events that reach no store. -/
theorem exec_shape (c : Instr) : Shape c := by
  cases c with
  | por => exact .por rfl
  | porRelease => exact .porRelease rfl
  | mgmtPerr => exact .mgmtPerr rfl
  | loRead w addr => exact .loRead w addr rfl
  | grant | deny | lcProvision | lcDeploy | lcRma | lcDecommission | debugAuthCheck | patchRaise | pgLock | pairHiWrite
  | registerWrite => exact .request _ fun _ => by unfold exec; rfl
  | safeStateFlushDone | lifecycleStageDone | tmon1Trip | vmonTrip | controllerRestart | opsecTick | recordFlushWrite
  | recorderHeadScanDone | snapshotDone | resetDrainDone | bringupStepDone => exact .event _ fun _ => by unfold exec; rfl
  | fltReleaseHead | fltClearLost | rehomeCmd | evacuate | bankPowerOn | evacuationAbort | sfPartitionEnable | mbistStart
  | mbistAbort | lbistStart | quiesce | portFenceCmd | lctlRetrain | domainOn | domainOff | freqSet | create | destroy | reset
  | info | pageout | qobDisable | queueHandOver | flush | freeze | unfreeze | first | last | next | prev | seek | ack | snap
  | snapsetHandover | rmpInv | rcDisable | predClr | wcEnClear | eackOffSet | hsEinj | mspRead | hscClr | hscFreeze | pctlClr
  | pctlFreeze | softReset | sliceReset | portReset | invcrm | flushqw | invrc | zero | scrubsp | abort | tmpAck | crmDisable
  | crmEnable | pfDisable | wayDisable | lock | unlock | lockWayHandover => exact .command _ fun _ => by unfold exec; rfl
  | _ => exact .run _ fun _ => by unfold exec; rfl

/-- Settles O5: each shape is a next state, whether the command takes effect or is refused, and so is each of the four meanings of
their own (`notes/assumptions/4.md`). -/
theorem everyCommandAnswers : Obligations.EveryCommandAnswers := by
  intro c s
  cases exec_shape c with
  | run f h => exact ⟨_, h s⟩
  | event f h => exact ⟨_, h s⟩
  | command f h => exact ⟨_, h s⟩
  | request f h => exact ⟨_, h s⟩
  | por h => exact ⟨s.por, by rw [h]; rfl⟩
  | porRelease h => exact ⟨s.porRelease, by rw [h]; rfl⟩
  | mgmtPerr h => exact ⟨s.parityError, by rw [h]; rfl⟩
  | loRead w addr h => exact ⟨s.mgmtRead w addr.toNat, by rw [h]; rfl⟩

-- ===== reads of a register that is no half of a pair =====

/-- A register that is no half of a pair, and not the sub-second count, reads what its page shows, and the read changes nothing (R4). -/
theorem State.readReg_of_half_eq_zero (s : State) (w : World) (a : Nat) (hhalf : s.m.half (primary a) = 0)
    (husec : primary a ≠ Reg.aonUsec) : s.readReg w a = (s, s.view w (primary a)) := by
  simp only [State.readReg, hhalf, if_neg husec]

/-- Out of POR a read request answers OK with what the register reads, on the state that the read leaves (R20, R304). -/
theorem exec_loRead_of_up (s : State) (w : World) (addr : BitVec 20) (hup : s.m.up = true) :
    exec (.loRead w addr) s =
      .next { (s.readReg w addr.toNat).1 with
        m := { (s.readReg w addr.toNat).1.m with resp := (.ok, (s.readReg w addr.toNat).2) } } := by
  have hread : exec (.loRead w addr) s = .next (s.mgmtRead w addr.toNat) := rfl
  simp [hread, State.mgmtRead, hup]

-- ===== PG_VER of the GLB page =====

/-- PG_VER is a header register of the GLB page, whatever the integration (Table 16-2). -/
theorem regRow_glbPgVer (g : Integ) : regRow g 0x4 = some ⟨0x004, 1, 4, 0, 0, 0, 0, 0x4230⟩ := rfl

theorem Mach.half_glbPgVer (m : Mach) : m.half 0x4 = 0 := by
  simp [Mach.half, regRow_glbPgVer]

theorem State.view_glbPgVer (s : State) (w : World) : s.view w 0x4 = 0x4230 := by
  simp [State.view, regRow_glbPgVer, Mach.readHdr]

/-- Settles O21: PG_VER is no half of a pair, so its read leaves no latch, and the header of the page shows the version to either
world. -/
theorem globalVersionRegisterReads : Obligations.GlobalVersionRegisterReads := by
  intro s w hup
  have hread : s.readReg w 0x4 = (s, 0x4230) := calc
    s.readReg w 0x4 = (s, s.view w (primary 0x4)) := s.readReg_of_half_eq_zero w 0x4 s.m.half_glbPgVer (by decide)
    _ = (s, 0x4230) := by rw [show primary 0x4 = 0x4 from rfl, s.view_glbPgVer w]
  rw [exec_loRead_of_up s w 0x4 hup, show (0x4 : BitVec 20).toNat = 0x4 from rfl, hread]

end Sys2Proof.Machine
end

section
/-! PROOFS. The two statements about the architecture: the block right after reset and a block at rest (`spec/01_architecture.md`). -/

namespace Sys2Proof.Machine

-- ===== a block in which nothing is left to follow =====

/-- Nothing is left to follow, and no port has a credit that waits to go back. -/
theorem Mach.still_iff (m : Mach) :
    m.still = true ↔ m.settled = true ∧ ∀ e ∈ m.ports, e.2.crq.all (· = 0) = true := by
  simp only [Mach.still, Bool.and_eq_true, List.all_eq_true]

/-- A settled machine ends its rounds before the first one. -/
theorem Mach.settleN_of_settled (n : Nat) (m : Mach) (hsettled : m.settled = true) : m.settleN n = m := by
  cases n with
  | zero => rfl
  | succ n => exact if_pos hsettled

/-- A still machine settles in no round and sends no credit. -/
theorem Mach.settle_of_still (m : Mach) (hstill : m.still = true) : m.settle = m := by
  obtain ⟨hsettled, hcredits⟩ := m.still_iff.mp hstill
  rw [Mach.settle, m.settleN_of_settled 3 hsettled]
  refine List.foldlRecOn (motive := (· = m)) m.ports _ rfl ?_
  rintro _ rfl e he
  exact if_pos (hcredits e he)

/-- Settles O12: settling a state is settling its machine, and a still machine settles to itself (`notes/assumptions/9.md`). -/
theorem settledStatesStay : Obligations.SettledStatesStay := by
  intro s hstill
  rw [State.settle, s.m.settle_of_still hstill]

-- ===== what an untouched register table reads =====

/-- GLB_LSMAPk holds 4k + 3, 4k + 2, 4k + 1 and 4k in its bytes after POR (Table 01-2). -/
theorem rstVal_glbLsmap (g : Integ) (k : Nat) (hk : k < 8) :
    rstVal g (Reg.glbLsmap + 4 * k) =
      BitVec.ofNat 32 ((4 * k + 3) * 2 ^ 24 + (4 * k + 2) * 2 ^ 16 + (4 * k + 1) * 2 ^ 8 + 4 * k) := by
  have hwrap : (Reg.glbLsmap + 4 * k) % 0x100000 = Reg.glbLsmap + 4 * k := by simp only [Reg.glbLsmap]; omega
  have hrange : Reg.glbLsmap ≤ Reg.glbLsmap + 4 * k ∧ Reg.glbLsmap + 4 * k < Reg.glbLsmap + 0x20 := by omega
  have hcfg0 : Reg.glbLsmap + 4 * k ≠ Reg.glbIntcfg0 := by simp only [Reg.glbLsmap, Reg.glbIntcfg0]; omega
  have hcfg1 : Reg.glbLsmap + 4 * k ≠ Reg.glbIntcfg1 := by simp only [Reg.glbLsmap, Reg.glbIntcfg1]; omega
  simp only [rstVal, hwrap, if_neg hcfg0, if_neg hcfg1, if_pos hrange, Nat.add_sub_cancel_left]

/-- Byte `j` of GLB_LSMAPk names the slice of its own number (R11, Table 01-2). -/
theorem rstVal_glbLsmap_byte (g : Integ) (k j : Nat) (hk : k < 8) (hj : j < 4) :
    ((rstVal g (Reg.glbLsmap + 4 * k)).extractLsb' (8 * j) 6).toNat = 4 * k + j := by
  rw [rstVal_glbLsmap g k hk]
  interval_cases k <;> interval_cases j <;> rfl

/-- PWR_FREQ holds 12 in thr and the integration's fmax in set (R23, Table 14-10). -/
theorem rstVal_pwrFreq (g : Integ) : rstVal g Reg.pwrFreq = (12#32 <<< 16) ||| (g.fmax.setWidth 32 &&& 0x1F) := rfl

/-- PWR_FREQ.set reads fmax, as far as the field is wide. -/
theorem rstVal_pwrFreq_set (g : Integ) : (rstVal g Reg.pwrFreq).extractLsb' 0 5 = g.fmax.setWidth 5 := by
  rw [rstVal_pwrFreq, BitVec.extractLsb'_or, BitVec.extractLsb'_and]
  ext i hi
  interval_cases i <;> simp

/-- PWR_FREQ.thr reads 12, whatever fmax is. -/
theorem rstVal_pwrFreq_thr (g : Integ) : (rstVal g Reg.pwrFreq).extractLsb' 16 5 = 12 := by
  rw [rstVal_pwrFreq, BitVec.extractLsb'_or, BitVec.extractLsb'_and]
  ext i hi
  interval_cases i <;> simp

/-- PWR_CTL reads 2 after POR (Table 14-10). -/
theorem rstVal_pwrCtl (g : Integ) : rstVal g Reg.pwrCtl = 2 := rfl

/-- AON_VCFG0-3 hold the thresholds of VMON0 to VMON3 in millivolts, below their pf bits (Table 14-4). -/
theorem rstVal_aonVcfg (g : Integ) :
    rstVal g Reg.aonVcfg = 680 ∧ rstVal g (Reg.aonVcfg + 4) = 0x80000000 + 680 ∧
    rstVal g (Reg.aonVcfg + 8) = 0x80000000 + 720 ∧ rstVal g (Reg.aonVcfg + 12) = 0x80000000 + 600 :=
  ⟨rfl, rfl, rfl, rfl⟩

-- ===== the block right after reset lists nothing, so every read is a default =====

theorem State.reset_slice (h : Nat) : State.reset.m.slice h = Slice.fresh h := rfl

theorem State.reset_reg (a : Nat) : State.reset.m.reg a = rstVal State.reset.m.integ a := rfl

theorem State.reset_fld (a lo w : Nat) :
    State.reset.m.fld a lo w = ((rstVal State.reset.m.integ a).extractLsb' lo w).toNat := rfl

theorem State.reset_dom (d : Nat) : State.reset.m.dom d = .off := rfl

theorem State.reset_port (p : Nat) : State.reset.m.port p = {} := rfl

/-- The first 32 slices serve the logical slices of their own numbers (R11). -/
theorem Slice.fresh_of_lt (h : Nat) (hlt : h < 32) : (Slice.fresh h).role = .active ∧ (Slice.fresh h).ls = h := by
  simp [Slice.fresh, hlt]

/-- The slices from 32 on are the spares (R11). -/
theorem Slice.fresh_role_of_le (h : Nat) (hle : 32 ≤ h) : (Slice.fresh h).role = .spare := by
  simp [Slice.fresh, Nat.not_lt.mpr hle]

/-- GLB_LSMAP0-7 map LSn to HSn after reset (R11). -/
theorem State.reset_hsOf (n : Nat) (hn : n < 32) : State.reset.m.hsOf n = n := by
  rw [Mach.hsOf, State.reset_fld, rstVal_glbLsmap_byte _ (n / 4) (n % 4) (by omega) (by omega)]
  omega

/-- Settles O6: every read of the reset state is the default of its table, which the lemmas above name (R11, R23, Table 14-4,
Table 14-10); the stores, the captures and the queue start empty (`notes/assumptions/6.md`). -/
theorem resetMapsAndClears : Obligations.ResetMapsAndClears := by
  have hactive (h : Fin 32) : (State.reset.m.slice h).role = .active ∧ (State.reset.m.slice h).ls = h ∧
      State.reset.m.hsOf h = h := by
    obtain ⟨hrole, hls⟩ := Slice.fresh_of_lt h h.isLt
    rw [State.reset_slice]
    exact ⟨hrole, hls, State.reset_hsOf h h.isLt⟩
  have hspare (h : Nat) (hle : 32 ≤ h) : (State.reset.m.slice h).role = .spare := by
    rw [State.reset_slice, Slice.fresh_role_of_le h hle]
  have hctl : State.reset.m.reg Reg.pwrCtl = 2 := by
    rw [State.reset_reg, rstVal_pwrCtl]
  have hset : State.reset.m.fld Reg.pwrFreq 0 5 = State.reset.m.integ.fmax.toNat := by
    rw [State.reset_fld, rstVal_pwrFreq_set]
    rfl
  have hthr : State.reset.m.fld Reg.pwrFreq 16 5 = 12 := by
    rw [State.reset_fld, rstVal_pwrFreq_thr]
    rfl
  have hmv : (State.reset.m.fld Reg.aonVcfg 0 10, State.reset.m.fld (Reg.aonVcfg + 4) 0 10,
      State.reset.m.fld (Reg.aonVcfg + 8) 0 10, State.reset.m.fld (Reg.aonVcfg + 12) 0 10) = (680, 680, 720, 600) := by
    obtain ⟨hvmon0, hvmon1, hvmon2, hvmon3⟩ := rstVal_aonVcfg State.reset.m.integ
    simp only [State.reset_fld, hvmon0, hvmon1, hvmon2, hvmon3]
    decide
  exact ⟨hactive, hspare 32 (by omega), hspare 33 (by omega), hctl, hthr, hset, hmv, fun d => State.reset_dom d,
    fun p => State.reset_port p, rfl, rfl, rfl, rfl, rfl⟩

end Sys2Proof.Machine
end

section
/-! PROOFS. Homing: the refusals of S-only commands, the fold to a logical slice, requests at their port, and the region map
(`spec/02_homing_region_map.md`). -/

namespace Sys2Proof.Machine

-- ===== commands and events out of POR =====

/-- Out of POR a register write answers OK with the machine its control makes (R20, R304). -/
theorem State.command_of_up (s : State) (f : Mach → Mach) (hup : s.m.up = true) : s.command f = .next (s.replied (f s.m)) := by
  simp [State.command, State.ctl, State.mgmt, hup, State.replied, State.after]

/-- Out of POR an event answers the machine it makes (R376). -/
theorem State.run_of_up (s : State) (f : Mach → Mach) (hup : s.m.up = true) : s.run f = .next (s.after (f s.m)) := by
  simp [State.run, State.event, hup, State.after]

-- ===== S-only controls written from the NS world =====

@[simp] theorem Mach.sOnly_ns (m : Mach) (x : Nat) (f : Mach → Mach) : m.sOnly .ns x f = m.refuse .ns x .world := rfl

@[simp] theorem Mach.handOver_ns (m : Mach) (x n : Nat) : m.handOver .ns x n = m.refuse .ns x .world := m.sOnly_ns x _

@[simp] theorem Mach.lockWays_ns (m : Mach) (x n : Nat) : m.lockWays .ns x n = m.refuse .ns x .world := m.sOnly_ns x _

@[simp] theorem Mach.invalidate_ns (m : Mach) (x : Nat) (all : Bool) (n : Nat) :
    m.invalidate .ns x all n = m.refuse .ns x .world := m.sOnly_ns x _

@[simp] theorem Mach.rcEnable_ns (m : Mach) (x : Nat) (on : Bool) : m.rcEnable .ns x on = m.refuse .ns x .world := m.sOnly_ns x _

@[simp] theorem Mach.rehomeWrite_ns (m : Mach) (x : Nat) (go : Bool) (h : Nat) :
    m.rehomeWrite .ns x go h = m.refuse .ns x .world := m.sOnly_ns x _

@[simp] theorem Mach.einj_ns (m : Mach) (x h : Nat) (v : W32) : m.einj .ns x h v = m.refuse .ns x .world := rfl

@[simp] theorem Mach.setWorld_ns (m : Mach) (k : Nat) (w : World) :
    m.setWorld .ns k w = m.refuse .ns (Reg.recSscfg + 4 * k) .world := rfl

/-- RST_STAT.result is 2, WORLD (Table 14-11). -/
@[simp] theorem Mach.softReset_ns (m : Mach) (x : Nat) :
    m.softReset .ns x = (m.setFld Reg.rstStat 0 4 2).refuse .ns x .world := if_pos rfl

@[simp] theorem Mach.sliceReset_ns (m : Mach) (x h : Nat) :
    m.sliceReset .ns x h = (m.setFld Reg.rstStat 0 4 2).refuse .ns x .world := if_pos rfl

/-- TST_LBSTAT.result is 2, WORLD. -/
@[simp] theorem Mach.lbStart_ns (m : Mach) : m.lbStart .ns = (m.setFld Reg.tstLbstat 0 4 2).refuse .ns Reg.tstLbcmd .world :=
  if_pos rfl

/-- HS_MSP_STAT.result is 2, WORLD (R431). -/
@[simp] theorem Mach.mspStart_ns (m : Mach) (x h : Nat) (a : BitVec 4) (c : BitVec 2) :
    m.mspStart .ns x h a c = (m.setFld (hsA h Reg.hsMspStat) 0 4 2).refuse .ns x .world := rfl

/-- A register write whose control refuses it answers OK with the refusal. -/
theorem exec_of_command {c : Instr} {s : State} {f : Mach → Mach} {m' : Mach} (hexec : exec c s = s.command f) (hup : s.m.up = true)
    (hctl : f s.m = m') : exec c s = .next (s.replied m') := by
  rw [hexec, s.command_of_up f hup, hctl]

/-- Settles O2: each of the eleven commands is a register write, and the control behind it refuses the NS world before any other rule. -/
theorem secureCommandsRefuseTheNormalWorld : Obligations.SecureCommandsRefuseTheNormalWorld :=
  ⟨fun s hup => exec_of_command rfl hup (s.m.softReset_ns _),
   fun s _ hup => exec_of_command rfl hup (s.m.sliceReset_ns _ _),
   fun s _ hup => exec_of_command rfl hup (s.m.handOver_ns _ _),
   fun s _ hup => exec_of_command rfl hup (s.m.lockWays_ns _ _),
   fun s _ _ hup => exec_of_command rfl hup (s.m.invalidate_ns _ _ _),
   fun s hup => exec_of_command rfl hup (s.m.rcEnable_ns _ _),
   fun s _ hup => exec_of_command rfl hup (s.m.rehomeWrite_ns _ _ _),
   fun s hup => exec_of_command rfl hup s.m.lbStart_ns,
   fun s _ _ hup => exec_of_command rfl hup (s.m.einj_ns _ _ _),
   fun s _ _ _ hup => exec_of_command rfl hup (s.m.mspStart_ns _ _ _ _),
   fun s _ _ hup => exec_of_command rfl hup (s.m.setWorld_ns _ _)⟩

-- ===== the fold to a logical slice (R28) =====

/-- Bit `j` of the logical slice folds bit `7 + j` of the offset and every fifth bit above it. -/
theorem lsOf_getLsbD (off : Off) (j : Nat) (hj : j < 5) :
    (lsOf off).getLsbD j = (off.getLsbD (7 + j) ^^ off.getLsbD (12 + j) ^^ off.getLsbD (17 + j) ^^ off.getLsbD (22 + j) ^^
      off.getLsbD (27 + j) ^^ off.getLsbD (32 + j) ^^ off.getLsbD (37 + j) ^^ off.getLsbD (42 + j)) := by
  simp [lsOf, List.range_succ, hj]

/-- Settles O16: the fold for each of the five bits; bit 46, which the last one reaches, is no bit of an offset. -/
theorem logicalSliceFoldsTheOffset : Obligations.LogicalSliceFoldsTheOffset := by
  intro off
  have hend : off.getLsbD 46 = false := off.getLsbD_of_ge 46 le_rfl
  refine ⟨lsOf_getLsbD off 0 (by omega), lsOf_getLsbD off 1 (by omega), lsOf_getLsbD off 2 (by omega),
    lsOf_getLsbD off 3 (by omega), ?_⟩
  simpa [hend] using lsOf_getLsbD off 4 (by omega)

/-- A line key keeps the offset's bits from 6 up. -/
theorem offOf_keyOf_getLsbD (off : Off) (i : Nat) (hi : 6 ≤ i) : (offOf (keyOf off)).getLsbD i = off.getLsbD i := by
  have hkey : (offOf (keyOf off)).getLsbD i = (decide (i - 6 < 40) && off.getLsbD i) := by
    rw [offOf, keyOf, BitVec.getLsbD_append, if_neg (Nat.not_lt.mpr hi), BitVec.getLsbD_extractLsb', Nat.add_sub_cancel' hi]
  rcases Nat.lt_or_ge i 46 with hlt | hge
  · rw [hkey, decide_eq_true (by omega), Bool.true_and]
  · rw [hkey, off.getLsbD_of_ge i hge, Bool.and_false]

/-- The fold reads no bit below 7, so the line key of an offset has its logical slice. -/
theorem lsOf_offOf_keyOf (off : Off) : lsOf (offOf (keyOf off)) = lsOf off := by
  refine BitVec.eq_of_getLsbD_eq fun j hj => ?_
  rw [lsOf_getLsbD _ j hj, lsOf_getLsbD _ j hj]
  repeat rw [offOf_keyOf_getLsbD off _ (by omega)]

-- ===== a request at its port (R27, R51, R53, R271) =====

theorem Mach.viaYard_of_none (m : Mach) (f : Mach → Mach) (hyard : m.yard = none) : m.viaYard f = f m := by
  simp [Mach.viaYard, hyard]

/-- What a port takes, read as propositions. -/
theorem Mach.takesReq_iff (m : Mach) (i : Instr) (r : Req) :
    m.takesReq i r = true ↔ m.portIn r.port.val = true ∧ ¬ (16 ≤ r.port.val ∧ r.port.val < 24) ∧ behind r.port.val r.agent.toNat = true ∧
      m.agFenced r.agent.toNat = false ∧ badReq i r = false ∧
      ((m.port r.port.val).outs.any fun o => o.agent = r.agent && o.tid = r.tid && !o.ended) = false ∧
      m.safe = none ∧ m.drain = none := by
  simp only [Mach.takesReq, Mach.hears, Bool.and_eq_true, Bool.not_eq_true', Option.isNone_iff_eq_none, ← Bool.decide_and,
    decide_eq_false_iff_not, and_assoc]

/-- Is a request an EVH, which has no completion (R72)? -/
def isEvh (i : Instr) : Bool := decide ((tmpl i).kind = .evh) && hasAddr i

/-- The line key of a request: none where it carries no address, or one outside homed space (R27). -/
def Mach.reqKey (m : Mach) (i : Instr) (r : Req) : Option LineKey := if hasAddr i then (m.homed r.pa.toNat).map keyOf else none

/-- A request as the queue of its port holds it (R28, R29, R79). -/
def heldOf (i : Instr) (r : Req) (key : Option LineKey) : Held :=
  let k := key.getD (tmpl i).key
  { req := i, r, ls := if isBar i || isMcl i then 32 else if !hasAddr i then k.toNat % 32 else (lsOf (offOf k)).toNat
    key := k, wrk := isWr i, qid := !hasAddr i }

/-- What a request leaves outstanding at its port (R48, R53, R271). -/
def outsOf (i : Instr) (r : Req) (key : Option LineKey) : List Outst :=
  if isEvh i then [] else [{ agent := r.agent, tid := r.tid, key, dtw := isWr i, at_ := none }]

/-- The event that a port captures for a request outside homed space (Table 12-4). -/
def unhomedEv (i : Instr) (r : Req) : Ev :=
  { src := 34 + r.port.val, code := 0x03, akind := 1, addr := r.pa, auth := if r.w = .s then 1 else 0,
    who := some (r.agent, r.rqid, r.tid), opc := reqOpc i }

/-- A request outside homed space ends at its port: an EVH frees its slot, another is captured and ends with CMX UNHOMED (R27). -/
def Mach.endUnhomed (m : Mach) (i : Instr) (r : Req) : Mach :=
  if isEvh i then m.credit r.port.val 1
  else (m.capture (unhomedEv i r)).portCmx r.port.val r (isWr i) .unhomed 0

/-- What becomes of a request that its port takes and that is alone on its line: it ends where it lies outside homed space, and
else joins the queue of its port. -/
theorem Mach.request_of_takesReq (m : Mach) (i : Instr) (r : Req) (htakes : m.takesReq i r = true)
    (halone : isEvh i = true ∨ m.reqKey i r = none ∨
      ((m.port r.port.val).outs.any fun o => o.agent = r.agent && o.key = m.reqKey i r && !o.ended) = false) :
    m.request i r = if hasAddr i && (m.reqKey i r).isNone then m.endUnhomed i r
      else (m.joins (heldOf i r (m.reqKey i r)) (outsOf i r (m.reqKey i r))).passOn := by
  obtain ⟨hin, hmem, hbehind, hfence, hbad, hreused, hsafe, hdrain⟩ := (m.takesReq_iff i r).mp htakes
  have hevh : (decide ((tmpl i).kind = .evh) && hasAddr i) = isEvh i := rfl
  have hkey : (if hasAddr i = true then (m.homed r.pa.toNat).map keyOf else none) = m.reqKey i r := rfl
  have hagain : (!isEvh i && (m.reqKey i r).isSome &&
      (m.port r.port.val).outs.any fun o => o.agent = r.agent && o.key = m.reqKey i r && !o.ended) = false := by
    rcases halone with h | h | h <;> simp [h]
  have hmem' : (decide (16 ≤ r.port.val) && decide (r.port.val < 24)) = false := by simpa using hmem
  have houts (v : Port) : v.outs ++ outsOf i r (m.reqKey i r) = if isEvh i = true then v.outs else
      v.outs ++ [{ agent := r.agent, tid := r.tid, key := m.reqKey i r, dtw := isWr i, at_ := none }] := by
    cases h : isEvh i <;> simp [outsOf, h]
  simp only [Mach.request, hevh, hkey, hin, hmem', hbehind, hfence, hbad, hreused, hagain, hsafe, hdrain, Bool.not_true, Bool.and_false,
    Bool.or_false, Option.isSome_none, Bool.false_eq_true, if_false]
  by_cases hend : (hasAddr i && (m.reqKey i r).isNone) = true
  · rw [if_pos hend, if_pos hend, Mach.endUnhomed, unhomedEv]
  · rw [if_neg hend, if_neg hend]
    simp only [Mach.passOn, Mach.joins, houts]
    cases m.reqKey i r <;> simp only [heldOf, Option.getD_some, Option.getD_none]

-- ===== the three ways of a request that its port takes =====

/-- A request with an address is neither a BAR nor an MCL (R27, R79). -/
theorem isBar_or_isMcl_of_hasAddr {i : Instr} (haddr : hasAddr i = true) : (isBar i || isMcl i) = false := by
  simp only [hasAddr, Bool.and_eq_true, Bool.not_eq_true'] at haddr
  obtain ⟨⟨hbar, hmcl⟩, -⟩ := haddr
  rw [hbar, hmcl, Bool.or_false]

/-- A homed line request joins the queue of its port under its line key and logical slice (R28, R53). -/
theorem Mach.request_homed (m : Mach) (i : Instr) (r : Req) (off : Off) (haddr : hasAddr i = true) (htakes : m.takesReq i r = true)
    (hhomed : m.homed r.pa.toNat = some off) (hfree : isEvh i = true ∨ m.lineFree r off = true) :
    m.request i r =
      (m.joins (lineHeld i r off (isWr i)) (if isEvh i then [] else lineOut r off (isWr i))).passOn := by
  have hkey : m.reqKey i r = some (keyOf off) := by simp [Mach.reqKey, haddr, hhomed]
  have hheld : heldOf i r (some (keyOf off)) = lineHeld i r off (isWr i) := by
    simp [heldOf, lineHeld, isBar_or_isMcl_of_hasAddr haddr, haddr, lsOf_offOf_keyOf]
  have halone := hfree.imp_right fun h : m.lineFree r off = true => by
    simpa only [Mach.lineFree, Bool.not_eq_true'] using h
  rw [m.request_of_takesReq i r htakes (by rw [hkey]; exact halone.imp_right .inr), hkey, hheld]
  simp [outsOf, lineOut]

/-- A line request outside homed space ends at its port (R27). -/
theorem Mach.request_unhomed (m : Mach) (i : Instr) (r : Req) (haddr : hasAddr i = true) (htakes : m.takesReq i r = true)
    (hhomed : m.homed r.pa.toNat = none) : m.request i r = m.endUnhomed i r := by
  have hkey : m.reqKey i r = none := by simp [Mach.reqKey, hhomed]
  rw [m.request_of_takesReq i r htakes (.inr (.inl hkey))]
  simp [hkey, haddr]

/-- A request without an address joins the queue of its port under the key of its entry (R29, R79). -/
theorem Mach.request_noAddr (m : Mach) (i : Instr) (r : Req) (haddr : hasAddr i = false) (htakes : m.takesReq i r = true) :
    m.request i r = (m.joins (heldOf i r none) (plainOut r (isWr i))).passOn := by
  have hkey : m.reqKey i r = none := by simp [Mach.reqKey, haddr]
  have houts : outsOf i r none = plainOut r (isWr i) := by simp [outsOf, plainOut, isEvh, haddr]
  rw [m.request_of_takesReq i r htakes (.inr (.inl hkey)), hkey, houts]
  simp [haddr]

/-- A queue operation is held under its QID and QID[4:0] (R29). -/
theorem heldOf_queue {i : Instr} {qid : BitVec 20} (r : Req) (haddr : hasAddr i = false) (hbar : (isBar i || isMcl i) = false)
    (hkey : (tmpl i).key = qid.setWidth 40) : heldOf i r none = queueHeld i r qid (isWr i) := by
  simp [heldOf, queueHeld, haddr, hbar, hkey]

-- ===== the commands that carry a request =====

/-- A request that the Yard delivers answers with what its port makes of it (R316). -/
theorem exec_of_request {c : Instr} {r : Req} {s : State} {m' : Mach}
    (hexec : exec c s = s.run fun m => m.viaYard fun m => m.request c r) (hup : s.m.up = true) (hyard : s.m.yard = none)
    (hreq : s.m.request c r = m') : exec c s = .next (s.after m') := by
  rw [hexec, s.run_of_up _ hup, s.m.viaYard_of_none _ hyard, hreq]

/-- A line request but an EVH, for a homed line on which its agent has no other. -/
theorem exec_lineRequest {c : Instr} {r : Req} {s : State} (off : Off)
    (hexec : exec c s = s.run fun m => m.viaYard fun m => m.request c r) (haddr : hasAddr c = true) (hevh : isEvh c = false)
    (hup : s.m.up = true) (hyard : s.m.yard = none) (htakes : s.m.takesReq c r = true) (hhomed : s.m.homed r.pa.toNat = some off)
    (hfree : s.m.lineFree r off = true) :
    exec c s = .next (s.after ((s.m.joins (lineHeld c r off (isWr c)) (lineOut r off (isWr c))).passOn)) :=
  exec_of_request hexec hup hyard (by simp [s.m.request_homed c r off haddr htakes hhomed (.inr hfree), hevh])

/-- A line request but an EVH outside homed space. -/
theorem exec_lineRequest_unhomed {c : Instr} {r : Req} {s : State}
    (hexec : exec c s = s.run fun m => m.viaYard fun m => m.request c r) (haddr : hasAddr c = true) (hevh : isEvh c = false)
    (hup : s.m.up = true) (hyard : s.m.yard = none) (htakes : s.m.takesReq c r = true) (hhomed : s.m.homed r.pa.toNat = none) :
    exec c s = .next (s.after ((s.m.capture (unhomedEv c r)).portCmx r.port.val r (isWr c) .unhomed 0)) :=
  exec_of_request hexec hup hyard (by simp [s.m.request_unhomed c r haddr htakes hhomed, Mach.endUnhomed, hevh])

/-- A queue operation. -/
theorem exec_queueOperation {c : Instr} {r : Req} {s : State} {qid : BitVec 20}
    (hexec : exec c s = s.run fun m => m.viaYard fun m => m.request c r) (haddr : hasAddr c = false)
    (hbar : (isBar c || isMcl c) = false) (hkey : (tmpl c).key = qid.setWidth 40)
    (hup : s.m.up = true) (hyard : s.m.yard = none) (htakes : s.m.takesReq c r = true) :
    exec c s = .next (s.after ((s.m.joins (queueHeld c r qid (isWr c)) (plainOut r (isWr c))).passOn)) :=
  exec_of_request hexec hup hyard (by rw [s.m.request_noAddr c r haddr htakes, heldOf_queue r haddr hbar hkey])

/-- Settles O24: an EVH leaves nothing outstanding, and each other line request one entry; the two differ in nothing else. -/
theorem lineRequestsJoinTheirPort : Obligations.LineRequestsJoinTheirPort :=
  ⟨fun _ _ off => exec_lineRequest off rfl rfl rfl,
   fun _ _ off => exec_lineRequest off rfl rfl rfl,
   fun _ _ off => exec_lineRequest off rfl rfl rfl,
   fun _ _ off => exec_lineRequest off rfl rfl rfl,
   fun _ _ off => exec_lineRequest off rfl rfl rfl,
   fun _ _ _ off => exec_lineRequest off rfl rfl rfl,
   fun _ _ off => exec_lineRequest off rfl rfl rfl,
   fun s r off hup hyard htakes hhomed =>
     exec_of_request rfl hup hyard (s.m.request_homed (.evh r) r off rfl htakes hhomed (.inl rfl)),
   fun _ _ _ _ _ off => exec_lineRequest off rfl rfl rfl,
   fun _ _ off => exec_lineRequest off rfl rfl rfl,
   fun _ _ off => exec_lineRequest off rfl rfl rfl⟩

/-- Settles O25: none of the seven carries an address, and the entry of each has the QID as its key. -/
theorem queueOperationsJoinTheirPort : Obligations.QueueOperationsJoinTheirPort :=
  ⟨fun _ _ _ _ _ => exec_queueOperation rfl rfl rfl rfl,
   fun _ _ _ _ => exec_queueOperation rfl rfl rfl rfl,
   fun _ _ _ _ => exec_queueOperation rfl rfl rfl rfl,
   fun _ _ _ _ => exec_queueOperation rfl rfl rfl rfl,
   fun _ _ _ _ => exec_queueOperation rfl rfl rfl rfl,
   fun _ _ _ _ => exec_queueOperation rfl rfl rfl rfl,
   fun _ _ _ _ => exec_queueOperation rfl rfl rfl rfl⟩

/-- Settles O28: no line request joins its port's queue without a line key; what ends it depends on whether it is an EVH. -/
theorem unhomedRequestsEndAtTheirPort : Obligations.UnhomedRequestsEndAtTheirPort :=
  ⟨fun _ _ => exec_lineRequest_unhomed rfl rfl rfl,
   fun _ _ => exec_lineRequest_unhomed rfl rfl rfl,
   fun _ _ => exec_lineRequest_unhomed rfl rfl rfl,
   fun _ _ => exec_lineRequest_unhomed rfl rfl rfl,
   fun _ _ => exec_lineRequest_unhomed rfl rfl rfl,
   fun _ _ => exec_lineRequest_unhomed rfl rfl rfl,
   fun s r hup hyard htakes hhomed => exec_of_request rfl hup hyard (s.m.request_unhomed (.evh r) r rfl htakes hhomed),
   fun _ _ => exec_lineRequest_unhomed rfl rfl rfl,
   fun _ _ => exec_lineRequest_unhomed rfl rfl rfl,
   fun _ _ _ => exec_lineRequest_unhomed rfl rfl rfl,
   fun _ _ _ _ _ => exec_lineRequest_unhomed rfl rfl rfl⟩

-- ===== a write of GLB_WCCTL while a combining write is in its turn (R199) =====

/-- The entry of a WRL to a non-cached region with early acknowledgement, in its turn, which began under wc_en and waits for data. -/
def combiningTe : TE := { st := .active, kind := .wrl, ph := .collect, port := 3, agent := 3, attr := some 5, wcEn := true }

/-- The reset state out of POR, with that write in entry 1 of HS0. The other slices are fenced, so that HS0 alone is active. -/
def combiningState : State :=
  { State.reset with m := { State.reset.m with
      up := true
      slices := (0, { Slice.fresh 0 with te := [(1, combiningTe)] }) ::
        (List.range 33).map fun h => (h + 1, { Slice.fresh (h + 1) with role := .fenced, run := .stopped }) } }

/-- May the write in entry 1 of HS0 still be combined? -/
def mayCombine : Out → Bool
  | .next t => (t.m.te 0 1).wcEn
  | _ => false

/-- Refutes O59: where WC_EN_CLEAR clears wc_en, the model also takes wcEn from every write whose turn has begun, so that R199's last
sentence holds though wc_en be set again. The clause for WC_EN_CLEAR names only the register and the closed buffers: in the machine
it gives, the write of `combiningState`, which has no open buffer, may still be combined. -/
theorem not_mapPredictorAndCombining : ¬ Obligations.MapPredictorAndCombining := by
  rintro ⟨-, -, -, -, hclear, -⟩
  have hmodel : exec (.wcEnClear .s 0) combiningState = .next (combiningState.replied (combiningState.m.wcctl 0)) :=
    exec_of_command rfl rfl rfl
  have hcombine := congrArg mayCombine (hmodel.symm.trans (hclear combiningState .s 0 rfl))
  exact absurd hcombine (by decide +kernel)

end Sys2Proof.Machine
end

section
/-! PROOFS. The coherence protocol: barriers, snoop answers, data, memory returns, back-invalidates and notes as they reach their
place (`spec/03_coherence_protocol.md`). -/

namespace Sys2Proof.Machine

-- ===== a port after its own update =====

/-- A value listed under a key is found there, whatever else the table lists. -/
theorem SMap.find_put {α : Type} (n : Nat) (v : α) : ∀ m : SMap α, SMap.find (SMap.put m n v) n = some v
  | [] => by simp [SMap.put, SMap.find]
  | (k, u) :: r => by
    rcases Nat.lt_trichotomy n k with hlt | rfl | hgt
    · simp [SMap.put, SMap.find, hlt, hlt.ne]
    · simp [SMap.put, SMap.find]
    · simp [SMap.put, SMap.find, hgt.ne', hgt.asymm, SMap.find_put n v r]

/-- The later of two values listed under one key is the one that stands. -/
theorem SMap.put_put {α : Type} (n : Nat) (u v : α) : ∀ m : SMap α, SMap.put (SMap.put m n u) n v = SMap.put m n v
  | [] => by simp [SMap.put]
  | (k, w) :: r => by
    rcases Nat.lt_trichotomy n k with hlt | rfl | hgt
    · simp [SMap.put, hlt, hlt.ne]
    · simp [SMap.put]
    · simp [SMap.put, hgt.ne', hgt.asymm, SMap.put_put n u v r]

/-- A port that an update leaves in another than its first state reads as the update made it. -/
theorem Mach.port_modP (m : Mach) (p : Nat) (f : Port → Port) (hf : f (m.port p) ≠ {}) : (m.modP p f).port p = f (m.port p) := by
  simp only [Mach.modP, Mach.setPort, Mach.port] at hf ⊢
  rw [SMap.set, if_neg hf, SMap.get, SMap.find_put, Option.getD_some]

/-- Two updates of a port, neither to its first state, are one. -/
theorem Mach.modP_modP (m : Mach) (p : Nat) (f g : Port → Port) (hf : f (m.port p) ≠ {}) (hg : g (f (m.port p)) ≠ {}) :
    (m.modP p f).modP p g = m.modP p fun v => g (f v) := by
  have hport := m.port_modP p f hf
  rw [Mach.modP, hport]
  simp only [Mach.modP, Mach.setPort, SMap.set, if_neg hf, if_neg hg, SMap.put_put]

/-- A count that has risen is not among nine zeros. -/
theorem set_succ_ne_zeros (l : List Nat) (c n : Nat) (hc : c < 9) : l.set c (n + 1) ≠ [0, 0, 0, 0, 0, 0, 0, 0, 0] := by
  intro hzeros
  have hlen : l.length = 9 := by simpa using congrArg List.length hzeros
  have hmem : n + 1 ∈ l.set c (n + 1) := List.mem_set (by omega) _
  simp [hzeros] at hmem

/-- Returning a credit, or withholding it, changes two counts of its port alone. -/
theorem Mach.port_credit (m : Mach) (p c : Nat) (hc : c < 9) :
    ∃ crq withh, (m.credit p c).port p = { m.port p with crq, withh } := by
  rw [Mach.credit]
  by_cases hstop : ((decide (c = 1) || decide (c = 8)) && (m.bit (portA p Reg.pLctl) 0 || m.safe.isSome || m.drain.isSome)) = true
  · simp only [hstop, if_true]
    rw [m.port_modP]
    · exact ⟨_, _, rfl⟩
    · exact fun h => set_succ_ne_zeros _ c _ hc (congrArg Port.withh h)
  · simp only [hstop]
    rw [m.port_modP]
    · exact ⟨_, _, rfl⟩
    · exact fun h => set_succ_ne_zeros _ c _ hc (congrArg Port.crq h)

theorem Mach.outs_credit (m : Mach) (p c : Nat) (hc : c < 9) : ((m.credit p c).port p).outs = (m.port p).outs := by
  obtain ⟨crq, withh, hport⟩ := m.port_credit p c hc
  rw [hport]

-- ===== messages that reach a port (R50, R285, R316) =====

/-- Nothing follows a step that released no waiter. -/
@[simp] theorem Mach.fin_nil (m : Mach) : Mach.fin (m, []) = m := rfl

/-- An event that need not cross the Yard answers with what it makes of the machine. -/
theorem exec_of_run {c : Instr} {s : State} {f : Mach → Mach} {m' : Mach} (hexec : exec c s = s.run f) (hup : s.m.up = true)
    (hf : f s.m = m') : exec c s = .next (s.after m') := by
  rw [hexec, s.run_of_up f hup, hf]

/-- A message that the Yard delivers answers with what its receiver makes of it (R316). -/
theorem exec_of_yard {c : Instr} {s : State} {f : Mach → Mach} {m' : Mach} (hexec : exec c s = s.run fun m => m.viaYard f)
    (hup : s.m.up = true) (hyard : s.m.yard = none) (hf : f s.m = m') : exec c s = .next (s.after m') :=
  exec_of_run hexec hup (by rw [s.m.viaYard_of_none f hyard, hf])

/-- What a port hears, read as propositions. -/
theorem Mach.hears_iff (m : Mach) (p : PortId) (a : BitVec 5) :
    m.hears p a = true ↔ m.portIn p.val = true ∧ (decide (16 ≤ p.val) && decide (p.val < 24)) = false ∧
      behind p.val a.toNat = true ∧ m.agFenced a.toNat = false := by
  simp only [Mach.hears, Bool.and_eq_true, Bool.not_eq_true', and_assoc]

/-- A slice that runs takes a message at once (Table 12-6). -/
theorem Mach.toSlice_of_on (m : Mach) (ls : Nat) (i : Instr) (hrun : (m.slice (m.hsOf ls)).run = .on) :
    m.toSlice ls i = m.sliceMsg i := if_pos hrun

/-- A BAR or an MCL is held for no slice of its own (R79). -/
theorem heldOf_bar {i : Instr} (r : Req) (hbar : (isBar i || isMcl i) = true) (haddr : hasAddr i = false) (hwr : isWr i = false)
    (hkey : (tmpl i).key = 0) : heldOf i r none = barHeld i r := by
  simp [heldOf, barHeld, hbar, haddr, hwr, hkey]

/-- Settles O26: neither carries an address, and the entry of each has no key; a BAR does not cross the Yard (R79, R192). -/
theorem barriersAndMonitorClearsJoin : Obligations.BarriersAndMonitorClearsJoin := by
  refine ⟨fun s r hup htakes => exec_of_run (f := fun m => m.request (.bar r) r) rfl hup ?_,
    fun s r hup hyard htakes => exec_of_yard (f := fun m => m.request (.mcl r) r) rfl hup hyard ?_⟩
  · rw [s.m.request_noAddr (.bar r) r rfl htakes, heldOf_bar r rfl rfl rfl rfl]
    rfl
  · rw [s.m.request_noAddr (.mcl r) r rfl htakes, heldOf_bar r rfl rfl rfl rfl]
    rfl

-- ===== snoop answers (R57, R67, R275) =====

/-- Where no forwarded DAT waits at a port, no answer waits behind one (R57). -/
theorem Mach.behindDat_of_nil (m : Mach) (p : Nat) (r : Rsp) (hfwd : (m.port p).fwdq = []) : m.behindDat p r = false := by
  simp [Mach.behindDat, hfwd]

/-- An answer that its port hears and that nothing holds back returns its credit and goes to its slice. -/
theorem Mach.answer_of_hears (m : Mach) (i : Instr) (x : Ans) (r : Rsp) (hhears : m.hears r.port r.agent = true)
    (hfwd : (m.port r.port.val).fwdq = []) :
    m.answer i x r = (m.credit r.port.val 3).toSlice (r.htag.toNat / 512) i := by
  obtain ⟨hin, hmem, hbehind, hfence⟩ := (m.hears_iff r.port r.agent).mp hhears
  simp [Mach.answer, hin, hmem, hbehind, hfence, m.behindDat_of_nil r.port.val r hfwd]

/-- The line whose monitors an answer may clear: that of the entry, or the one of its sector that is in turn (R176). -/
def TE.ansLine (e : TE) : LineKey :=
  if e.kind = .rebuild ∨ e.kind = .biv ∨ e.kind = .mbs then lineKey (keySec e.key) e.line1 else e.key

/-- Is an answer the second SRF of a rebuild (R103)? -/
def TE.secondSrf (e : TE) (x : Ans) : Bool := decide (e.kind = .rebuild) && decide (x = .srf) && e.snp.from_.isSome

/-- An answer taken into an entry, as data too where `two` holds (R67). -/
def TE.takeAns (e : TE) (a : Nat) (x : Ans) (kst : BitVec 2) (two : Bool) : TE :=
  { e.take a x kst with snp := { (e.take a x kst).snp with dtw := (e.take a x kst).snp.dtw || two } }

@[simp] theorem TE.takeAns_false (e : TE) (a : Nat) (x : Ans) (kst : BitVec 2) : e.takeAns a x kst false = e.take a x kst := by
  simp [TE.takeAns]

@[simp] theorem TE.secondSrf_of_ne (e : TE) (x : Ans) (hx : x ≠ .srf) : e.secondSrf x = false := by
  simp [TE.secondSrf, hx]

/-- The entry that the listed answer of a pending agent is taken into: it goes on where its slice had stopped its clock. -/
def Mach.answered (m : Mach) (h t : Nat) (x : Ans) (r : Rsp) : Mach :=
  (m.modS h fun v => { v with gated := false }).modTe h t fun e => e.takeAns r.agent.toNat x r.kst ((m.te h t).secondSrf x)

/-- A listed answer of a pending agent is taken into its entry, which ends if it can; an SRFO after its data, but for FWC, clears
the monitors of the line (R176). -/
theorem Mach.ansAt_of_listed (m : Mach) (x : Ans) (r : Rsp) (h t : Nat) (hhtag : m.htagOf r.htag = (h, t))
    (hactive : (m.te h t).st = .active) (hpend : (m.te h t).pend.getLsbD r.agent.toNat = true)
    (hlists : (m.te h t).snp.lists (m.te h t).kind (decide ((m.te h t).lst = hsOS)) r.agent.toNat x r.kst = true) :
    m.ansAt x r =
      (if x = .srfo ∧ (m.te h t).snp.dtw = true ∧ (m.te h t).snp.fwd ≠ some .fwc then
        (m.answered h t x r).clrMons h (m.te h t).ansLine else m.answered h t x r).tryEnd h t := by
  simp only [Mach.ansAt, hhtag, hactive, hpend, hlists, ne_eq, not_true_eq_false, decide_false, Bool.not_true, Bool.or_self,
    Bool.false_eq_true, if_false]
  simp only [Bool.and_eq_true, decide_eq_true_eq, Bool.or_eq_true, and_assoc, or_assoc]
  rfl

/-- The listed answer of a pending agent, behind no forwarded DAT, for a slice that runs. -/
theorem exec_answer {c : Instr} {x : Ans} {s : State} {r : Rsp} {h t : Nat} {m' : Mach}
    (hexec : exec c s = s.run fun m => m.viaYard fun m => m.answer c x r) (hmsg : ∀ m : Mach, m.sliceMsg c = m.ansAt x r)
    (hm : (if x = .srfo ∧ (s.m.te h t).snp.dtw = true ∧ (s.m.te h t).snp.fwd ≠ some .fwc then
        ((s.m.credit r.port.val 3).answered h t x r).clrMons h (s.m.te h t).ansLine
      else (s.m.credit r.port.val 3).answered h t x r) = m')
    (hup : s.m.up = true) (hyard : s.m.yard = none) (hhears : s.m.hears r.port r.agent = true)
    (hfwd : (s.m.port r.port.val).fwdq = []) (hhtag : s.m.htagOf r.htag = (h, t)) (hrun : (s.m.slice h).run = .on)
    (hactive : (s.m.te h t).st = .active) (hpend : (s.m.te h t).pend.getLsbD r.agent.toNat = true)
    (hlists : (s.m.te h t).snp.lists (s.m.te h t).kind (decide ((s.m.te h t).lst = hsOS)) r.agent.toNat x r.kst = true) :
    exec c s = .next (s.after (m'.tryEnd h t)) := by
  have hls : s.m.hsOf (r.htag.toNat / 512) = h := congrArg Prod.fst hhtag
  have hslice : s.m.answer c x r = (s.m.credit r.port.val 3).ansAt x r := by
    rw [s.m.answer_of_hears c x r hhears hfwd, Mach.toSlice_of_on, hmsg]
    simpa [hls] using hrun
  refine exec_of_yard hexec hup hyard ?_
  rw [hslice, Mach.ansAt_of_listed _ x r h t (by simpa using hhtag) (by simpa using hactive) (by simpa using hpend)
    (by simpa using hlists), ← hm]
  simp

/-- Settles O29: the four answers reach their entry alike; SRF alone may count as data, and SRFO alone clears monitors. -/
theorem snoopAnswersReachTheirEntry : Obligations.SnoopAnswersReachTheirEntry :=
  ⟨fun _ _ _ _ => exec_answer (x := .sri) rfl (fun _ => rfl) (by simp [Mach.answered]),
   fun _ _ _ _ => exec_answer (x := .srs) rfl (fun _ => rfl) (by simp [Mach.answered]),
   fun _ _ _ _ => exec_answer (x := .srf) rfl (fun _ => rfl) (by simp [Mach.answered, TE.takeAns, TE.secondSrf, TE.take]),
   fun _ _ _ _ => exec_answer (x := .srfo) rfl (fun _ => rfl) (by simp [Mach.answered, TE.ansLine])⟩

-- ===== a DTW at its port (R48, R271, R275) =====

/-- The request that a DTW follows, as its port lists it. -/
def Mach.dtwOut (m : Mach) (d : Dtw) : Option Outst :=
  (m.port d.port.val).outs.find? fun o => o.agent = d.agent && o.tid = d.tid && o.dtw

/-- A DTW has come whose request has not ended: the DAT credit returns, and the port awaits no more data for it. -/
def Mach.gotData (m : Mach) (d : Dtw) (o : Outst) : Mach :=
  (m.credit d.port.val 4).modP d.port.val fun v => { v with outs := v.outs.map fun x => if x = o then { x with dtw := false } else x }

/-- A DTW has come whose request has ended: the DAT credit returns, and the REQ slot frees (R271). -/
def Mach.lateOut (m : Mach) (d : Dtw) (o : Outst) : Mach :=
  ((m.credit d.port.val 4).modP d.port.val fun v => { v with outs := v.outs.erase o }).credit d.port.val 1

section
variable {m : Mach} {d : Dtw} {o : Outst} {ls t : Nat}

/-- A DTW that answers a snoop goes to the slice its htag names (R275). -/
theorem Mach.data_ans (hhears : m.hears d.port d.agent = true) (hans : d.ans = true) :
    m.data d = (m.credit d.port.val 4).toSlice (d.htag.toNat / 512) (.dtw d) := by
  obtain ⟨hin, hmem, hbehind, hfence⟩ := (m.hears_iff d.port d.agent).mp hhears
  simp [Mach.data, hin, hmem, hbehind, hfence, hans]

/-- One that follows a write is for the request that its port lists. -/
theorem Mach.find_outs_credit (hout : m.dtwOut d = some o) :
    ((m.credit d.port.val 4).port d.port.val).outs.find? (fun o => o.agent = d.agent && o.tid = d.tid && o.dtw) = some o := by
  rw [m.outs_credit d.port.val 4 (by decide)]
  exact hout

/-- Its write lies in a slice. -/
theorem Mach.data_atSlice (hhears : m.hears d.port d.agent = true) (hans : d.ans = false) (hout : m.dtwOut d = some o)
    (hended : o.ended = false) (hat : o.at_ = some (ls, t)) :
    m.data d = ((m.gotData d o).credit d.port.val 1).toSlice ls (.dtw d) := by
  obtain ⟨hin, hmem, hbehind, hfence⟩ := (m.hears_iff d.port d.agent).mp hhears
  simp only [Mach.data, hin, hmem, hbehind, hfence, hans, Mach.find_outs_credit hout, hended, hat]
  rfl

/-- Its write is held at the port. -/
theorem Mach.data_atPort (hhears : m.hears d.port d.agent = true) (hans : d.ans = false) (hout : m.dtwOut d = some o)
    (hended : o.ended = false) (hat : o.at_ = none) :
    m.data d = (m.gotData d o).modP d.port.val fun v => { v with heldq := v.heldq.map fun q =>
      if q.r.agent = d.agent && q.r.tid = d.tid && q.wrk then { q with dtw := some (d.psn, d.data) } else q } := by
  obtain ⟨hin, hmem, hbehind, hfence⟩ := (m.hears_iff d.port d.agent).mp hhears
  simp only [Mach.data, hin, hmem, hbehind, hfence, hans, Mach.find_outs_credit hout, hended, hat]
  rfl

/-- Its write has ended at the port. -/
theorem Mach.data_ended_atPort (hhears : m.hears d.port d.agent = true) (hans : d.ans = false) (hout : m.dtwOut d = some o)
    (hended : o.ended = true) (hat : o.at_ = none) : m.data d = m.lateOut d o := by
  obtain ⟨hin, hmem, hbehind, hfence⟩ := (m.hears_iff d.port d.agent).mp hhears
  simp only [Mach.data, hin, hmem, hbehind, hfence, hans, Mach.find_outs_credit hout, hended, hat]
  rfl

/-- Its write has ended in a slice, which keeps a buffer for the data (R62). -/
theorem Mach.data_ended_atSlice (hhears : m.hears d.port d.agent = true) (hans : d.ans = false) (hout : m.dtwOut d = some o)
    (hended : o.ended = true) (hat : o.at_ = some (ls, t)) :
    m.data d = if ((m.lateOut d o).slice ((m.lateOut d o).hsOf ls)).run = .on then (m.lateOut d o).lateData d.agent d.tid
      else (m.lateOut d o).toSlice ls (.dtw d) := by
  obtain ⟨hin, hmem, hbehind, hfence⟩ := (m.hears_iff d.port d.agent).mp hhears
  simp only [Mach.data, hin, hmem, hbehind, hfence, hans, Mach.find_outs_credit hout, hended, hat]
  rfl

end

/-- A DTW that the Yard delivers. -/
theorem exec_dtw {s : State} {d : Dtw} {m' : Mach} (hdata : s.m.data d = m') (hup : s.m.up = true) (hyard : s.m.yard = none) :
    exec (.dtw d) s = .next (s.after m') := exec_of_yard (f := fun m => m.data d) rfl hup hyard hdata

-- ===== a forwarded DAT (R48, R57) =====

/-- A populated agent is one of the 24. -/
theorem Mach.lt_of_agPop (m : Mach) (a : Nat) (hpop : m.agPop a = true) : a < 24 := by
  simp only [Mach.agPop, Bool.and_eq_true, decide_eq_true_eq] at hpop
  exact hpop.1

/-- A forwarded DAT for a live agent with that tid outstanding leaves, or waits at its port behind its target (R57, R268). -/
theorem Mach.fwdDat_of_live {m : Mach} {p : Nat} {agent : BitVec 5} {tid : Tid} {o : Outst} (op : DatOp) (psn : Bool) (data : Line)
    (hin : m.portIn p = true) (hport : p < 16 ∨ 24 ≤ p) (hpop : m.agPop agent.toNat = true)
    (hlive : m.portDown (agPort agent.toNat) = false) (hfence : m.agFenced agent.toNat = false)
    (hout : (m.port (agPort agent.toNat)).outs.find? (fun o => o.agent = agent && o.tid = tid && !o.ended) = some o) :
    m.fwdDat p op agent tid psn data =
      if (m.port p).fwdq.any (fun f => f.target = agPort agent.toNat) = false ∧ m.egressOk (agPort agent.toNat) = true then
        (m.forward (agPort agent.toNat) { op := datOpc op, agent, tid, psn, key := o.key.getD 0, data }).credit p 4
      else m.modP p fun v => { v with fwdq := v.fwdq ++
        [{ target := agPort agent.toNat, msg := { op := datOpc op, agent, tid, psn, key := o.key.getD 0, data } }] } := by
  have hmem : (decide (16 ≤ p) && decide (p < 24)) = false := by
    rw [← Bool.decide_and, decide_eq_false_iff_not]
    omega
  have hagent : decide (24 ≤ agent.toNat) = false := decide_eq_false (Nat.not_le.mpr (m.lt_of_agPop _ hpop))
  simp only [Mach.fwdDat, hin, hmem, hagent, hpop, hlive, hfence, hout, Bool.not_true, Bool.or_self, Bool.false_eq_true, if_false,
    Bool.and_eq_true, Bool.not_eq_true']

/-- Settles O31: a DTW goes by what its port lists for it, a forwarded DAT by what its target can take. -/
theorem dataTakesItsPlace : Obligations.DataTakesItsPlace := by
  refine ⟨?ans, ?slice, ?port, ?ended, ?forward, ?release⟩
  case ans =>
    intro s d hup hyard hhears hans hrun
    refine exec_dtw ?_ hup hyard
    rw [Mach.data_ans hhears hans, Mach.toSlice_of_on _ _ _ (by simpa [Mach.htagOf] using hrun)]
    simp [Mach.sliceMsg, hans]
  case slice =>
    intro s d o ls t hup hyard hhears hans hout hended hat
    exact exec_dtw (Mach.data_atSlice hhears hans hout hended hat) hup hyard
  case port =>
    intro s d o hup hyard hhears hans hout hended hat
    exact exec_dtw (Mach.data_atPort hhears hans hout hended hat) hup hyard
  case ended =>
    intro s d o hup hyard hhears hans hout hended
    refine exec_dtw ?_ hup hyard
    cases hat : o.at_ with
    | none => exact Mach.data_ended_atPort hhears hans hout hended hat
    | some x => exact Mach.data_ended_atSlice hhears hans hout hended hat
  case forward =>
    intro s port op agent tid psn data o hup hyard hin hport hpop hlive hfence hout
    exact exec_of_yard (f := fun m => m.fwdDat port.val op agent tid psn data) rfl hup hyard
      (Mach.fwdDat_of_live op psn data hin hport hpop hlive hfence hout)
  case release =>
    intro s port hup
    exact exec_of_run (f := fun m => m.rspGo port.val) rfl hup rfl

-- ===== MRT and MWC at a port (R50, R270) =====

/-- At a die port an MRT or an MWC goes the wrong way (R50). -/
theorem Mach.memIn_die (m : Mach) (p : Nat) (htag : BitVec 14) (i : Instr) (hin : m.portIn p = true) (hdie : p < 16) :
    m.memIn p htag i = m.protErrM p 0 4 := by
  simp [Mach.memIn, hin, hdie]

/-- At a memory or I/O port it returns a credit and goes to its slice, which takes it where it runs. -/
theorem Mach.memIn_mem (m : Mach) (p : Nat) (htag : BitVec 14) (i : Instr) (hin : m.portIn p = true) (hmem : 16 ≤ p)
    (hrun : (m.slice (m.hsOf (htag.toNat / 512))).run = .on) : m.memIn p htag i = (m.credit p 5).sliceMsg i := by
  simp only [Mach.memIn, hin, Nat.not_lt.mpr hmem, Bool.not_true, Bool.false_eq_true, if_false]
  exact Mach.toSlice_of_on _ _ _ (by simpa using hrun)

-- ===== an MRT at its slice (R65, R276, R292) =====

/-- The machine with the return buffer of an MRT free: its credit is back, its slice goes on, and an uncorrectable error is captured
(R292). -/
def Mach.returned (m : Mach) (p h rb : Nat) (b : RBuf) (ue : Bool) : Mach :=
  let m := (m.credit p 5).modS h fun v => { v with gated := false }
  (if ue = true then m.capture { src := 34 + b.port, code := 0x07, cls := .d, akind := 1, addr := m.paOf b.off } else m).freeRbuf h rb

@[simp] theorem Mach.returned_ok (m : Mach) (p h rb : Nat) (b : RBuf) :
    m.returned p h rb b false = ((m.credit p 5).modS h fun v => { v with gated := false }).freeRbuf h rb := rfl

/-- The line of a demand read fills Crema where it may, whoever served the requester (R247). -/
def Mach.demandFill (m : Mach) (h : Nat) (b : RBuf) (bad : Bool) (d : Line) : Mach :=
  match b.fill with
  | some a => m.cremaFill h b.off a (!bad && b.fillOk) d false
  | none => m

/-- The entry of a demand read takes the data, and ends if it can. -/
def Mach.takeRead (m : Mach) (h t : Nat) (bad : Bool) (d : Line) : Mach :=
  let m := m.modTe h t fun e => { e with rd := .have bad d }
  if atWb (m.te h t).at_ then m.tryEnd h t else m.ncEnd h t

/-- What the line of an MRT does, by what its buffer was reserved for (R276). -/
def Mach.giveRead (m : Mach) (h : Nat) (b : RBuf) (bad : Bool) (d : Line) : Mach × WalkOut :=
  match b.use with
  | .data t => (if b.drop then m.demandFill h b bad d else (m.demandFill h b bad d).takeRead h t bad d, [])
  | .walk g i => m.walkReturn g i bad d
  | .bkt a => (m.bktReturn h a bad d, [])
  | .prefetch a => (m.cremaFill h b.off a (!bad && b.fillOk) d true, [])
  | .fill set w => (m.lockFill h set w b.off b.fillOk bad d, [])
  | .qdesc t => if b.drop then (m, []) else m.qDesc h t bad d
  | .ddesc t => if b.drop then (m, []) else (m.dDesc h t bad d, [])
  | .qtail i _ => if b.drop then (m, []) else m.qWindow h i none bad d
  | .qhead i n => if b.drop then (m, []) else m.qWindow h i (some n) bad d

section
variable {m : Mach} {h : Nat} {b : RBuf} {bad : Bool} {d : Line}

theorem Mach.giveRead_data {t : Nat} (huse : b.use = .data t) (hdrop : b.drop = false) :
    m.giveRead h b bad d = ((m.demandFill h b bad d).takeRead h t bad d, []) := by
  simp [Mach.giveRead, huse, hdrop]

theorem Mach.giveRead_dropped {t : Nat} (huse : b.use = .data t) (hdrop : b.drop = true) :
    m.giveRead h b bad d = (m.demandFill h b bad d, []) := by
  simp [Mach.giveRead, huse, hdrop]

theorem Mach.giveRead_walk {g i : Nat} (huse : b.use = .walk g i) : m.giveRead h b bad d = m.walkReturn g i bad d := by
  simp [Mach.giveRead, huse]

theorem Mach.giveRead_bkt {a : PA} (huse : b.use = .bkt a) : m.giveRead h b bad d = (m.bktReturn h a bad d, []) := by
  simp [Mach.giveRead, huse]

theorem Mach.giveRead_prefetch {a : BitVec 16} (huse : b.use = .prefetch a) :
    m.giveRead h b bad d = (m.cremaFill h b.off a (!bad && b.fillOk) d true, []) := by
  simp [Mach.giveRead, huse]

theorem Mach.giveRead_fill {set w : Nat} (huse : b.use = .fill set w) :
    m.giveRead h b bad d = (m.lockFill h set w b.off b.fillOk bad d, []) := by
  simp [Mach.giveRead, huse]

theorem Mach.giveRead_qdesc {t : Nat} (huse : b.use = .qdesc t) (hdrop : b.drop = false) :
    m.giveRead h b bad d = m.qDesc h t bad d := by
  simp [Mach.giveRead, huse, hdrop]

theorem Mach.giveRead_ddesc {t : Nat} (huse : b.use = .ddesc t) (hdrop : b.drop = false) :
    m.giveRead h b bad d = (m.dDesc h t bad d, []) := by
  simp [Mach.giveRead, huse, hdrop]

theorem Mach.giveRead_qtail {i t : Nat} (huse : b.use = .qtail i t) (hdrop : b.drop = false) :
    m.giveRead h b bad d = m.qWindow h i none bad d := by
  simp [Mach.giveRead, huse, hdrop]

theorem Mach.giveRead_qhead {i : Nat} {n : W64} (huse : b.use = .qhead i n) (hdrop : b.drop = false) :
    m.giveRead h b bad d = m.qWindow h i (some n) bad d := by
  simp [Mach.giveRead, huse, hdrop]

end

/-- An MRT frees the return buffer it is for, and its line goes to what the buffer was reserved for. -/
theorem Mach.mrtAt_of_rbFor {m : Mach} {ls p tag h rb : Nat} {b : RBuf} (psn ue : Bool) (d : Line) (hh : m.hsOf ls = h)
    (hrb : (m.slice h).rbFor p tag = some (rb, b)) :
    (m.credit p 5).mrtAt ls p tag psn ue d = (m.returned p h rb b ue).giveRead h b (psn || ue) d := by
  have hls : (m.credit p 5).hsOf ls = h := by simpa using hh
  have hbuf : ((m.credit p 5).slice h).rbFor p tag = some (rb, b) := by simpa using hrb
  simp only [Mach.mrtAt, hls, hbuf, Mach.giveRead]
  cases b.use with
  | data t => cases b.drop <;> rfl
  | walk g i => rfl
  | bkt a => rfl
  | prefetch a => rfl
  | fill set w => rfl
  | qdesc t => rfl
  | ddesc t => rfl
  | qtail i t => rfl
  | qhead i n => rfl

section
variable {s : State} {port : PortId} {htag : BitVec 14} {psn : Bool} {data : Line} {h rb : Nat} {b : RBuf} {m' : Mach}

/-- An MRT for a return buffer of a slice that runs. -/
theorem exec_mrt {ue : Bool} (hup : s.m.up = true) (hyard : s.m.yard = none) (hin : s.m.portIn port.val = true)
    (hmem : 16 ≤ port.val) (hh : s.m.hsOf (htag.toNat / 512) = h) (hrun : (s.m.slice h).run = .on)
    (hrb : (s.m.slice h).rbFor port.val (htag.toNat % 512) = some (rb, b))
    (hgive : Mach.fin ((s.m.returned port.val h rb b ue).giveRead h b (psn || ue) data) = m') :
    exec (.mrt port htag psn ue data) s = .next (s.after m') := by
  refine exec_of_yard (f := fun m => m.memIn port.val htag (.mrt port htag psn ue data)) rfl hup hyard ?_
  rw [s.m.memIn_mem port.val htag _ hin hmem (by rw [hh, hrun]), Mach.sliceMsg, Mach.mrtAt_of_rbFor psn ue data hh hrb, hgive]

/-- One without an uncorrectable error. -/
theorem exec_mrt_ok (hup : s.m.up = true) (hyard : s.m.yard = none) (hin : s.m.portIn port.val = true)
    (hmem : 16 ≤ port.val) (hh : s.m.hsOf (htag.toNat / 512) = h) (hrun : (s.m.slice h).run = .on)
    (hrb : (s.m.slice h).rbFor port.val (htag.toNat % 512) = some (rb, b))
    (hgive : Mach.fin ((((s.m.credit port.val 5).modS h fun v => { v with gated := false }).freeRbuf h rb).giveRead h b psn data) = m') :
    exec (.mrt port htag psn false data) s = .next (s.after m') :=
  exec_mrt hup hyard hin hmem hh hrun hrb (by rw [Mach.returned_ok, Bool.or_false, hgive])

end

/-- Settles O32: each use of a return buffer is one case of what an MRT's line does. -/
theorem memoryReturnsReachTheirBuffer : Obligations.MemoryReturnsReachTheirBuffer := by
  refine ⟨?data, ?dropped, ?walk, ?bkt, ?prefetch, ?fill, ?qdesc, ?ddesc, ?qtail, ?qhead, ?die, ?unknown⟩
  case data =>
    intro s port htag psn data h rb b t hup hyard hin hmem hh hrun hrb huse hdrop
    exact exec_mrt_ok hup hyard hin hmem hh hrun hrb (by rw [Mach.giveRead_data huse hdrop, Mach.fin_nil]; rfl)
  case dropped =>
    intro s port htag psn ue data h rb t b hup hyard hin hmem hh hrun hrb huse hdrop
    exact exec_mrt hup hyard hin hmem hh hrun hrb (by rw [Mach.giveRead_dropped huse hdrop, Mach.fin_nil]; rfl)
  case walk =>
    intro s port htag psn data h rb b g i hup hyard hin hmem hh hrun hrb huse
    exact exec_mrt_ok hup hyard hin hmem hh hrun hrb (by rw [Mach.giveRead_walk huse])
  case bkt =>
    intro s port htag psn data h rb b a hup hyard hin hmem hh hrun hrb huse
    exact exec_mrt_ok hup hyard hin hmem hh hrun hrb (by rw [Mach.giveRead_bkt huse, Mach.fin_nil])
  case prefetch =>
    intro s port htag psn data h rb b a hup hyard hin hmem hh hrun hrb huse
    exact exec_mrt_ok hup hyard hin hmem hh hrun hrb (by rw [Mach.giveRead_prefetch huse, Mach.fin_nil])
  case fill =>
    intro s port htag psn data h rb b x y hup hyard hin hmem hh hrun hrb huse
    exact exec_mrt_ok hup hyard hin hmem hh hrun hrb (by rw [Mach.giveRead_fill huse, Mach.fin_nil])
  case qdesc =>
    intro s port htag psn data h rb b t hup hyard hin hmem hh hrun hrb huse hdrop
    exact exec_mrt_ok hup hyard hin hmem hh hrun hrb (by rw [Mach.giveRead_qdesc huse hdrop])
  case ddesc =>
    intro s port htag psn data h rb b t hup hyard hin hmem hh hrun hrb huse hdrop
    exact exec_mrt_ok hup hyard hin hmem hh hrun hrb (by rw [Mach.giveRead_ddesc huse hdrop, Mach.fin_nil])
  case qtail =>
    intro s port htag psn data h rb b i t hup hyard hin hmem hh hrun hrb huse hdrop
    exact exec_mrt_ok hup hyard hin hmem hh hrun hrb (by rw [Mach.giveRead_qtail huse hdrop])
  case qhead =>
    intro s port htag psn data h rb b i n hup hyard hin hmem hh hrun hrb huse hdrop
    exact exec_mrt_ok hup hyard hin hmem hh hrun hrb (by rw [Mach.giveRead_qhead huse hdrop])
  case die =>
    intro s port htag psn ue data hup hyard hin hdie
    exact exec_of_yard (f := fun m => m.memIn port.val htag (.mrt port htag psn ue data)) rfl hup hyard
      (s.m.memIn_die port.val htag _ hin hdie)
  case unknown =>
    intro s port htag psn ue data hup hyard hin hmem hrun hnone
    refine exec_of_yard (f := fun m => m.memIn port.val htag (.mrt port htag psn ue data)) rfl hup hyard ?_
    rw [s.m.memIn_mem port.val htag _ hin hmem hrun]
    simp [Mach.sliceMsg, Mach.mrtAt, hnone]

-- ===== an MWC at its slice (R78, R100, R188, R190, R226, R249, R263) =====

/-- The machine with the retire notes of a buffer's writes sent: the credit of their MWC is back, and its slice goes on (R190). -/
def Mach.retired (m : Mach) (p h : Nat) (x : Wr) : Mach :=
  x.notes.foldl (fun (m : Mach) n => m.sendNote n false) ((m.credit p 5).modS h fun v => { v with gated := false })

/-- The buffer of a write goes free: a data buffer, or from 192 on a write-combining buffer (R197). -/
def Mach.freeWrite (m : Mach) (h wb : Nat) : Mach :=
  if wb < 192 then m.freeDbuf h wb else m.modS h fun y => y.setWc (wb - 192) none

theorem Mach.freeWrite_data (m : Mach) (h : Nat) {wb : Nat} (hwb : wb < 192) : m.freeWrite h wb = m.freeDbuf h wb := if_pos hwb

theorem Mach.freeWrite_combining (m : Mach) (h : Nat) {wb : Nat} (hwb : 192 ≤ wb) :
    m.freeWrite h wb = m.modS h fun y => y.setWc (wb - 192) none := if_neg (Nat.not_lt.mpr hwb)

/-- What waited for a write goes on; a demand write, a descriptor or a window needs no more (R78, R100, R188, R226, R263). -/
def Mach.giveWrite (m : Mach) (h wb : Nat) (x : Wr) : Mach × WalkOut :=
  match x.use with
  | .mbs t => (if (m.te h t).ph = .mwc then m.mbsEnd h t else m, [])
  | .zero _ => (({ m with tmp := m.tmp.map fun (o : TmpOp) => { o with busy := o.busy - 1 } } : Mach).tmpCheck, [])
  | .deferred t => (m.ackWrite h t, [])
  | .bkt a => (m.bktWritten h a, [])
  | .doorbell _ => (m.modS h fun v => { v with dbq := v.dbq.filter fun b => b.wb ≠ some wb }).bellGo h
  | _ => (m, [])

section
variable {m : Mach} {h wb : Nat} {x : Wr}

theorem Mach.giveWrite_plain (huse : x.use = .demand ∨ x.use = .desc ∨ x.use = .qwin) : m.giveWrite h wb x = (m, []) := by
  rcases huse with huse | huse | huse <;> simp [Mach.giveWrite, huse]

theorem Mach.giveWrite_mbs {t : Nat} (huse : x.use = .mbs t) :
    m.giveWrite h wb x = (if (m.te h t).ph = .mwc then m.mbsEnd h t else m, []) := by
  simp [Mach.giveWrite, huse]

theorem Mach.giveWrite_zero {t : Nat} (huse : x.use = .zero t) : m.giveWrite h wb x =
    (({ m with tmp := m.tmp.map fun (o : TmpOp) => { o with busy := o.busy - 1 } } : Mach).tmpCheck, []) := by
  simp [Mach.giveWrite, huse]

theorem Mach.giveWrite_deferred {t : Nat} (huse : x.use = .deferred t) : m.giveWrite h wb x = (m.ackWrite h t, []) := by
  simp [Mach.giveWrite, huse]

theorem Mach.giveWrite_bkt {a : PA} (huse : x.use = .bkt a) : m.giveWrite h wb x = (m.bktWritten h a, []) := by
  simp [Mach.giveWrite, huse]

theorem Mach.giveWrite_doorbell {q : BitVec 20} (huse : x.use = .doorbell q) : m.giveWrite h wb x =
    (m.modS h fun v => { v with dbq := v.dbq.filter fun b => b.wb ≠ some wb }).bellGo h := by
  simp [Mach.giveWrite, huse]

end

/-- An MWC sends the notes of its buffer, frees it, lets what waited go on, and reads a line of Crema again that awaits that (R249). -/
theorem Mach.mwcAt_of_wrFor {m : Mach} {ls p tag h wb : Nat} {x : Wr} (hh : m.hsOf ls = h)
    (hwr : (m.slice h).wrFor p tag = some (wb, x)) {y : Mach × WalkOut}
    (hgive : ((m.retired p h x).freeWrite h wb).giveWrite h wb x = y) :
    (m.credit p 5).mwcAt ls p tag = (y.1.refill h x.port x.off, y.2) := by
  have hls : (m.credit p 5).hsOf ls = h := by simpa using hh
  have hbuf : ((m.credit p 5).slice h).wrFor p tag = some (wb, x) := by simpa using hwr
  subst hgive
  simp only [Mach.mwcAt, hls, hbuf, Mach.giveWrite]
  cases x.use <;> rfl

section
variable {s : State} {port : PortId} {htag : BitVec 14} {h wb : Nat} {x : Wr}

/-- An MWC for a buffer of a slice that runs. -/
theorem exec_mwc {y : Mach × WalkOut} (hup : s.m.up = true) (hyard : s.m.yard = none) (hin : s.m.portIn port.val = true)
    (hmem : 16 ≤ port.val) (hh : s.m.hsOf (htag.toNat / 512) = h) (hrun : (s.m.slice h).run = .on)
    (hwr : (s.m.slice h).wrFor port.val (htag.toNat % 512) = some (wb, x))
    (hgive : ((s.m.retired port.val h x).freeWrite h wb).giveWrite h wb x = y) :
    exec (.mwc port htag) s = .next (s.after (Mach.fin (y.1.refill h x.port x.off, y.2))) := by
  refine exec_of_yard (f := fun m => m.memIn port.val htag (.mwc port htag)) rfl hup hyard ?_
  rw [s.m.memIn_mem port.val htag _ hin hmem (by rw [hh, hrun]), Mach.sliceMsg, Mach.mwcAt_of_wrFor hh hwr hgive]

/-- One that releases no waiter of a region walk. -/
theorem exec_mwc_nil {m' : Mach} (hup : s.m.up = true) (hyard : s.m.yard = none) (hin : s.m.portIn port.val = true)
    (hmem : 16 ≤ port.val) (hh : s.m.hsOf (htag.toNat / 512) = h) (hrun : (s.m.slice h).run = .on)
    (hwr : (s.m.slice h).wrFor port.val (htag.toNat % 512) = some (wb, x))
    (hgive : ((s.m.retired port.val h x).freeWrite h wb).giveWrite h wb x = (m', [])) :
    exec (.mwc port htag) s = .next (s.after (m'.refill h x.port x.off)) := by
  simpa only [Mach.fin_nil] using exec_mwc hup hyard hin hmem hh hrun hwr hgive

end

/-- Settles O33: each use of a write is one case of what waits for its MWC. -/
theorem memoryWritesComplete : Obligations.MemoryWritesComplete := by
  refine ⟨?plain, ?mbs, ?zero, ?deferred, ?bkt, ?doorbell, ?combining, ?die⟩
  case plain =>
    intro s port htag h wb x hup hyard hin hmem hh hrun hwr hwb huse
    exact exec_mwc_nil hup hyard hin hmem hh hrun hwr (by rw [Mach.freeWrite_data _ h hwb, Mach.giveWrite_plain huse]; rfl)
  case mbs =>
    intro s port htag h wb x t hup hyard hin hmem hh hrun hwr hwb huse
    exact exec_mwc_nil hup hyard hin hmem hh hrun hwr (by rw [Mach.freeWrite_data _ h hwb, Mach.giveWrite_mbs huse]; rfl)
  case zero =>
    intro s port htag h wb x t hup hyard hin hmem hh hrun hwr hwb huse
    exact exec_mwc_nil hup hyard hin hmem hh hrun hwr (by rw [Mach.freeWrite_data _ h hwb, Mach.giveWrite_zero huse]; rfl)
  case deferred =>
    intro s port htag h wb x t hup hyard hin hmem hh hrun hwr hwb huse
    exact exec_mwc_nil hup hyard hin hmem hh hrun hwr (by rw [Mach.freeWrite_data _ h hwb, Mach.giveWrite_deferred huse]; rfl)
  case bkt =>
    intro s port htag h wb x a hup hyard hin hmem hh hrun hwr hwb huse
    exact exec_mwc_nil hup hyard hin hmem hh hrun hwr (by rw [Mach.freeWrite_data _ h hwb, Mach.giveWrite_bkt huse]; rfl)
  case doorbell =>
    intro s port htag h wb x q hup hyard hin hmem hh hrun hwr hwb huse
    exact exec_mwc hup hyard hin hmem hh hrun hwr (by rw [Mach.freeWrite_data _ h hwb, Mach.giveWrite_doorbell huse]; rfl)
  case combining =>
    intro s port htag h wb x hup hyard hin hmem hh hrun hwr hwb huse
    exact exec_mwc_nil hup hyard hin hmem hh hrun hwr (by rw [Mach.freeWrite_combining _ h hwb, Mach.giveWrite_plain (.inl huse)]; rfl)
  case die =>
    intro s port htag hup hyard hin hdie
    exact exec_of_yard (f := fun m => m.memIn port.val htag (.mwc port htag)) rfl hup hyard (s.m.memIn_die port.val htag _ hin hdie)

-- ===== back-invalidate snoops (R78, R270, R303) =====

/-- The bytes that a BISnp of a length names (R303). -/
def biBytes (len : BitVec 2) : Nat := if len = 0 then 64 else if len = 1 then 128 else 256

/-- May a CXL port take a BISnp: its length is listed, its offset is aligned to it, and its range is HDM-DB (R303)? -/
def Mach.biOk (m : Mach) (p : Nat) (len : BitVec 2) (off : Off) : Bool :=
  len ≠ 3 && off.toNat % biBytes len = 0 && m.hdmDb p off.toNat (biBytes len)

theorem Mach.biOk_eq_true (m : Mach) (p : Nat) (len : BitVec 2) (off : Off) :
    m.biOk p len off = true ↔ len ≠ 3 ∧ off.toNat % biBytes len = 0 ∧ m.hdmDb p off.toNat (biBytes len) = true := by
  simp only [Mach.biOk, Bool.and_eq_true, decide_eq_true_eq, and_assoc]

theorem Mach.biOk_eq_false (m : Mach) (p : Nat) (len : BitVec 2) (off : Off) :
    m.biOk p len off = false ↔ len = 3 ∨ off.toNat % biBytes len ≠ 0 ∨ m.hdmDb p off.toNat (biBytes len) = false := by
  simp only [Mach.biOk, Bool.and_eq_false_iff, decide_eq_false_iff_not, ne_eq, not_not, or_assoc]

/-- A BISnp that waits at its port. -/
def Mach.biWaits (m : Mach) (p : Nat) (len : BitVec 2) (off : Off) (biId biTag : BitVec 12) : Mach :=
  m.modP p fun v => { v with biq := v.biq ++ [{ len, off, biId, biTag }] }

section
variable {m : Mach} {p : Nat} {len : BitVec 2} {off : Off} {biId biTag : BitVec 12}

/-- On a port without CXL a BISNP is a protocol error. -/
theorem Mach.biSnp_noCxl (hin : m.portIn p = true) (hcxl : p < 24 ∨ m.isCxl p = false) :
    m.biSnp p len off biId biTag = m.protErrM p (m.paOf off) 4 := by
  have hno : (decide (24 ≤ p) && m.isCxl p) = false := by
    rcases hcxl with hlt | hcxl
    · simp [hlt]
    · simp [hcxl]
  simp [Mach.biSnp, hin, hno]

/-- On a CXL port it waits for an index, which it is given if one is free, or is answered at once where it may not be taken. -/
theorem Mach.biSnp_cxl (hin : m.portIn p = true) (hio : 24 ≤ p) (hcxl : m.isCxl p = true) :
    m.biSnp p len off biId biTag =
      if (!m.biOk p len off) = true then ((m.protErrM p (m.paOf off) 4).sendMbr p 0 len off biId biTag).creditMbs p
      else (m.biWaits p len off biId biTag).biTake p := by
  simp only [Mach.biSnp, hin, hcxl, decide_eq_true hio, Bool.and_self, Bool.not_true, Bool.false_eq_true, if_false]
  rfl

/-- The port of a BISnp that waits there. -/
theorem Mach.port_biWaits : (m.biWaits p len off biId biTag).port p =
    { m.port p with biq := (m.port p).biq ++ [{ len, off, biId, biTag }] } :=
  m.port_modP p _ fun h => by simpa using congrArg Port.biq h

/-- With no index free it waits on (R303). -/
theorem Mach.biTake_full (hfull : firstBelow 64 (fun i => !(m.port p).bisn.any fun b => b.idx = i) = none) :
    (m.biWaits p len off biId biTag).biTake p = m.biWaits p len off biId biTag := by
  simp [Mach.biTake, Mach.port_biWaits, hfull]

/-- Where none waits before it, a BISnp takes the lowest free index and is split into one MBS for each sector (R78, R303). -/
theorem Mach.biTake_free {i : Nat} (hfirst : (m.port p).biq = [])
    (hfree : firstBelow 64 (fun i => !(m.port p).bisn.any fun b => b.idx = i) = some i) :
    (m.biWaits p len off biId biTag).biTake p = m.modP p fun v => { v with
      bisn := v.bisn ++ [{ idx := i, biId, biTag, len, off, left := (mbsOf i len off).length }], mbsq := v.mbsq ++ mbsOf i len off } := by
  simp only [Mach.biTake, Mach.port_biWaits, hfirst, List.nil_append, hfree]
  rw [Mach.biWaits, Mach.modP_modP]
  · simp only [Mach.modP, hfirst]
  · exact fun h => by simpa using congrArg Port.biq h
  · exact fun h => by simpa using congrArg Port.bisn h

end

/-- A BISNP. -/
theorem exec_bisnp {s : State} {port : PortId} {len : BitVec 2} {off : Off} {biId biTag : BitVec 12} {m' : Mach} (form : BiForm)
    (hup : s.m.up = true) (hsnp : s.m.biSnp port.val len off biId biTag = m') :
    exec (.bisnp port form len off biId biTag) s = .next (s.after m') :=
  exec_of_run (f := fun m => m.biSnp port.val len off biId biTag) rfl hup hsnp

/-- An MBS at the head of its queue takes an entry of a slice that serves (R78, R118). -/
theorem Mach.mbsIn_accepted {m : Mach} {p : Nat} {q : MbsQ} {rest : List MbsQ} {h t : Nat} {pool : Pool} (hq : (m.port p).mbsq = q :: rest)
    (hh : m.hsOf (lsOf (secOff q.sec)).toNat = h) (hserving : m.serving h = true) (hgrant : m.grantMbs h p = some pool)
    (hfree : (m.slice h).freeTe = some t) :
    m.mbsIn p = Mach.fin ((if q.last = true then (m.modP p fun v => { v with mbsq := rest }).creditMbs p
      else m.modP p fun v => { v with mbsq := rest }).accepted h t
        { kind := .mbs, pool, port := p, key := lineKey q.sec (!q.lines.getLsbD 0), two := q.lines = 3
          lines := q.lines, aux := q.idx }) := by
  simp only [Mach.mbsIn, hq, hh, hserving, hgrant, hfree, Bool.not_true, Bool.false_eq_true, if_false]

/-- An MBR leaves its queue and finds its BISnp there. -/
theorem Mach.port_mbrTaken {m : Mach} {p i : Nat} (rest : List Nat) {b : Bisnp} (hb : (m.port p).bisn.find? (fun b => b.idx = i) = some b) :
    (m.modP p fun v => { v with mbrq := rest }).port p = { m.port p with mbrq := rest } := by
  refine m.port_modP p _ fun h => ?_
  have hnil : (m.port p).bisn = [] := congrArg Port.bisn h
  simp [hnil] at hb

/-- An MBR that is not the last one of its BISnp. -/
theorem Mach.mbrIn_more {m : Mach} {p i : Nat} {rest : List Nat} {b : Bisnp} (hq : (m.port p).mbrq = i :: rest)
    (hb : (m.port p).bisn.find? (fun b => b.idx = i) = some b) (hleft : 1 < b.left) :
    m.mbrIn p = (m.modP p fun v => { v with mbrq := rest }).modP p fun v =>
      { v with bisn := v.bisn.map fun x => if x.idx = i then { x with left := x.left - 1 } else x } := by
  simp only [Mach.mbrIn, hq, Mach.port_mbrTaken rest hb, hb, if_pos hleft]

/-- The last MBR of a BISnp frees its index and answers the device; the credits that waited for an index return (R303). -/
theorem Mach.mbrIn_last {m : Mach} {p i : Nat} {rest : List Nat} {b : Bisnp} (hq : (m.port p).mbrq = i :: rest)
    (hb : (m.port p).bisn.find? (fun b => b.idx = i) = some b) (hleft : b.left ≤ 1) :
    m.mbrIn p = (List.range (m.port p).mbsCr).foldl (fun (m : Mach) _ => m.creditMbs p)
      ((((m.modP p fun v => { v with mbrq := rest }).modP p fun v =>
        { v with bisn := v.bisn.filter fun x => x.idx ≠ i, mbsCr := 0 }).sendMbr p i b.len b.off b.biId b.biTag).biTake p) := by
  simp only [Mach.mbrIn, hq, Mach.port_mbrTaken rest hb, hb, if_neg (Nat.not_lt.mpr hleft)]

/-- Settles O34: a BISNP goes by its port and its range, an MBR by what is left of its BISnp. -/
theorem backInvalidateSnoops : Obligations.BackInvalidateSnoops := by
  refine ⟨?taken, ?waits, ?refused, ?noCxl, ?mbs, ?mbr, ?last⟩
  case taken =>
    intro s port form len off biId biTag i hup hin hio hcxl hlen halign hdb hfirst hfree
    refine exec_bisnp form hup ?_
    rw [Mach.biSnp_cxl hin hio hcxl, (s.m.biOk_eq_true port.val len off).mpr ⟨hlen, halign, hdb⟩, Bool.not_true,
      if_neg Bool.false_ne_true, Mach.biTake_free hfirst hfree]
    rfl
  case waits =>
    intro s port form len off biId biTag hup hin hio hcxl hlen halign hdb hfirst hfull
    refine exec_bisnp form hup ?_
    rw [Mach.biSnp_cxl hin hio hcxl, (s.m.biOk_eq_true port.val len off).mpr ⟨hlen, halign, hdb⟩, Bool.not_true,
      if_neg Bool.false_ne_true, Mach.biTake_full hfull]
    rfl
  case refused =>
    intro s port form len off biId biTag hup hin hio hcxl hbad
    refine exec_bisnp form hup ?_
    rw [Mach.biSnp_cxl hin hio hcxl, (s.m.biOk_eq_false port.val len off).mpr hbad, Bool.not_false, if_pos rfl]
  case noCxl =>
    intro s port form len off biId biTag hup hin hcxl
    exact exec_bisnp form hup (Mach.biSnp_noCxl hin hcxl)
  case mbs =>
    intro s port q rest h t pool hup hyard hq hh hserving hgrant hfree
    exact exec_of_yard (f := fun m => m.mbsIn port.val) rfl hup hyard (Mach.mbsIn_accepted hq hh hserving hgrant hfree)
  case mbr =>
    intro s port i rest b hup hyard hq hb hleft
    exact exec_of_yard (f := fun m => m.mbrIn port.val) rfl hup hyard (Mach.mbrIn_more hq hb hleft)
  case last =>
    intro s port i rest b hup hyard hq hb hleft
    exact exec_of_yard (f := fun m => m.mbrIn port.val) rfl hup hyard (Mach.mbrIn_last hq hb hleft)

-- ===== retire notes and MCL notices (R79, R190, R192) =====

/-- The BARs of a port once a note has come: a lost one marks those of its requester that were accepted after its write (R192). -/
def Port.barsAfter (v : Port) (n : Note) : List Bar :=
  match v.wo.find? fun w => w.seq = n.seq with
  | some w => if n.lost then v.bars.map fun b =>
      if b.agent = w.agent && b.rqid = w.rqid && decide (w.seq < b.seq) then { b with lost := true } else b else v.bars
  | none => v.bars

/-- The oldest retire note of a port marks its write done; what waited at the egress goes on (R190). -/
theorem Mach.noteIn_cons {m : Mach} {p : Nat} {n : Note} {rest : List Note} (hq : (m.port p).notes = n :: rest) :
    m.noteIn p = (m.modP p fun v => { v with
      notes := rest, wo := v.wo.map fun w => if w.seq = n.seq then { w with done := true, lost := n.lost } else w
      bars := v.barsAfter n }).pump p := by
  simp only [Mach.noteIn, hq]
  rfl

/-- The oldest MCL notice of a port finds its MCL there. -/
theorem Mach.mclNote_cons {m : Mach} {p ls : Nat} {a : BitVec 5} {q : BitVec 9} {rest : List (Nat × BitVec 5 × BitVec 9)} {x : MclSt}
    (hq : (m.port p).mnotes = (ls, a, q) :: rest)
    (hx : (m.port p).mcls.find? (fun x => x.agent = a && x.rqid = q && x.left.contains ls) = some x) :
    m.mclNote p = if x.left.erase ls ≠ [] then (m.modP p fun v => { v with mnotes := rest }).modP p fun v =>
        { v with mcls := v.mcls.map fun y => if y = x then { x with left := x.left.erase ls } else y }
      else ((m.modP p fun v => { v with mnotes := rest }).modP p fun v => { v with mcls := v.mcls.erase x }).reply p
        { op := .cmp, agent := a, tid := x.tid } := by
  have hport : (m.modP p fun v => { v with mnotes := rest }).port p = { m.port p with mnotes := rest } := by
    refine m.port_modP p _ fun h => ?_
    have hnil : (m.port p).mcls = [] := congrArg Port.mcls h
    simp [hnil] at hx
  simp only [Mach.mclNote, hq, hport, hx]

/-- Settles O35: a note names a write, a notice an MCL, which ends with the last slice it awaits. -/
theorem notesAndNoticesRetire : Obligations.NotesAndNoticesRetire := by
  refine ⟨?note, ?notice, ?last⟩
  case note =>
    intro s port n rest hup hyard hq
    exact exec_of_yard (f := fun m => m.noteIn port.val) rfl hup hyard (Mach.noteIn_cons hq)
  case notice =>
    intro s port ls a q rest x hup hyard hq hx hleft
    exact exec_of_yard (f := fun m => m.mclNote port.val) rfl hup hyard ((Mach.mclNote_cons hq hx).trans (if_pos hleft))
  case last =>
    intro s port ls a q rest x hup hyard hq hx hleft
    exact exec_of_yard (f := fun m => m.mclNote port.val) rfl hup hyard ((Mach.mclNote_cons hq hx).trans (if_neg (not_not.mpr hleft)))

end Sys2Proof.Machine
end

section
/-! PROOFS. Crow's Nest: the set index and the tag, parity, buckets, turns that start and go on, and the engines of the snoop filter
(`spec/04_crows_nest_snoop_filter.md`). -/

namespace Sys2Proof.Machine

-- ===== the set index and the tag of a sector (R82) =====

/-- A field of a field is a field of the whole. -/
theorem extractLsb'_extractLsb'_add {n a k b l : Nat} (x : BitVec n) (h : b + l ≤ k) :
    (x.extractLsb' a k).extractLsb' b l = x.extractLsb' (a + b) l := by
  ext i hi
  simp [show b + i < k by omega, Nat.add_assoc]

/-- Bit `i` of a sector number is bit 7 + i of its offset. -/
theorem secOf_getLsbD (off : Off) (i : Nat) : (secOf off).getLsbD i = off.getLsbD (7 + i) := by
  rcases Nat.lt_or_ge i 39 with hlt | hge
  · rw [secOf, BitVec.getLsbD_extractLsb', decide_eq_true hlt, Bool.true_and]
  · rw [BitVec.getLsbD_of_ge _ i hge, off.getLsbD_of_ge (7 + i) (by omega)]

/-- Bit `i` of the set index folds bits i, 14 + i and 28 + i of the sector; the last is past its end from i = 11 on. -/
theorem setOf_getLsbD (sec : BitVec 39) (i : Nat) (hi : i < 14) :
    (setOf sec).getLsbD i = (sec.getLsbD i ^^ sec.getLsbD (14 + i) ^^ sec.getLsbD (28 + i)) := by
  have htop : (decide (i < 11) && sec.getLsbD (28 + i)) = sec.getLsbD (28 + i) := by
    rcases Nat.lt_or_ge i 11 with hlt | hge
    · rw [decide_eq_true hlt, Bool.true_and]
    · rw [sec.getLsbD_of_ge (28 + i) (by omega), Bool.and_false]
  simp only [setOf, BitVec.getLsbD_xor, BitVec.getLsbD_extractLsb', BitVec.getLsbD_setWidth, htop, hi, decide_true, Bool.true_and,
    Nat.zero_add]

theorem tagOf_secOf (off : Off) : tagOf (secOf off) = off.extractLsb' 21 25 := extractLsb'_extractLsb'_add off (by omega)

/-- The index and the two fields of the tag that it folds give back the low bits of the sector: each field cancels itself. -/
theorem setOf_xor_tagOf (sec : BitVec 39) :
    setOf sec ^^^ (tagOf sec).extractLsb' 0 14 ^^^ ((tagOf sec).extractLsb' 14 11).setWidth 14 = sec.extractLsb' 0 14 := by
  have hlow : (tagOf sec).extractLsb' 0 14 = sec.extractLsb' 14 14 := extractLsb'_extractLsb'_add sec (by omega)
  have hhigh : (tagOf sec).extractLsb' 14 11 = sec.extractLsb' 28 11 := extractLsb'_extractLsb'_add sec (by omega)
  rw [hlow, hhigh, setOf, BitVec.xor_assoc, BitVec.xor_assoc (sec.extractLsb' 0 14), BitVec.xor_assoc, BitVec.xor_self, BitVec.xor_zero]

theorem sectorOf_setOf_tagOf (sec : BitVec 39) : sectorOf (setOf sec) (tagOf sec) = sec := by
  rw [sectorOf, setOf_xor_tagOf, tagOf]
  exact BitVec.extractLsb'_append_extractLsb' (w := 25) (len := 14)

/-- Settles O17: the fold bit by bit, and the sector it came from; bits of an offset from 46 on are zero. -/
theorem setIndexAndTagGiveBackTheSector : Obligations.SetIndexAndTagGiveBackTheSector := by
  intro off
  have hbit (i : Nat) (hi : i < 14) :
      (setOf (secOf off)).getLsbD i = (off.getLsbD (7 + i) ^^ off.getLsbD (21 + i) ^^ off.getLsbD (35 + i)) := by
    simp only [setOf_getLsbD _ i hi, secOf_getLsbD, ← Nat.add_assoc, Nat.reduceAdd]
  have hlow : off.extractLsb' 7 14 =
      setOf (secOf off) ^^^ off.extractLsb' 21 14 ^^^ (off.extractLsb' 35 11).setWidth 14 := by
    have hfold := setOf_xor_tagOf (secOf off)
    rw [tagOf_secOf, secOf, extractLsb'_extractLsb'_add off (by omega), extractLsb'_extractLsb'_add off (by omega),
      extractLsb'_extractLsb'_add off (by omega)] at hfold
    exact hfold.symm
  refine ⟨fun i hi => hbit i (by omega), fun i hge hi => ?_, tagOf_secOf off, hlow, sectorOf_setOf_tagOf _⟩
  rw [hbit i hi, off.getLsbD_of_ge (35 + i) (by omega), Bool.xor_false]

-- ===== parity (R85) =====

/-- The fold of the bits of an exclusive-or is the exclusive-or of the folds. -/
theorem foldl_testBit_xor (x y : Nat) (l : List Nat) (a b : Bool) :
    l.foldl (fun c i => c != (x ^^^ y).testBit i) (a ^^ b) =
      (l.foldl (fun c i => c != x.testBit i) a ^^ l.foldl (fun c i => c != y.testBit i) b) := by
  induction l generalizing a b with
  | nil => rfl
  | cons i l ih =>
    have hbit : ((a ^^ b) != (x ^^^ y).testBit i) = ((a != x.testBit i) ^^ (b != y.testBit i)) := by
      rw [Nat.testBit_xor]
      cases a <;> cases x.testBit i <;> simp
    rw [List.foldl_cons, hbit, ih]
    rfl

/-- Parity is linear. -/
theorem parBit_xor (x y : Nat) : parBit (x ^^^ y) = (parBit x ^^ parBit y) := foldl_testBit_xor x y (List.range 8) false false

/-- A single bit is odd in the byte that it lies in, and in no other. -/
theorem parBit_byte_two_pow (i k : Nat) : parBit ((2 ^ i >>> (8 * k)) % 256) = decide (i / 8 = k) := by
  rw [Nat.shiftRight_eq_div_pow]
  rcases Nat.lt_or_ge i (8 * k) with hlt | hge
  · rw [Nat.div_eq_of_lt (Nat.pow_lt_pow_right (by omega) hlt), decide_eq_false (by omega)]
    rfl
  rw [Nat.pow_div hge (by omega)]
  rcases Nat.lt_or_ge (i - 8 * k) 8 with hin | hout
  · rw [decide_eq_true (by omega)]
    interval_cases i - 8 * k <;> rfl
  · rw [Nat.mod_eq_zero_of_dvd (Nat.pow_dvd_pow 2 hout), decide_eq_false (by omega)]
    rfl

/-- Does byte `k` of a stored word of `n` bytes disagree with its parity bit? -/
def byteFails (n x k : Nat) : Bool := parBit ((x >>> (8 * k)) % 256) ^^ x.testBit (8 * n + k)

theorem byteFails_xor (n x y k : Nat) : byteFails n (x ^^^ y) k = (byteFails n x k ^^ byteFails n y k) := by
  have hbyte : ((x ^^^ y) >>> (8 * k)) % 256 = ((x >>> (8 * k)) % 256) ^^^ ((y >>> (8 * k)) % 256) := by
    rw [Nat.shiftRight_xor_distrib]
    exact Nat.xor_mod_two_pow (n := 8)
  simp only [byteFails, hbyte, parBit_xor, Nat.testBit_xor, Bool.xor_assoc, Bool.xor_left_comm]

/-- A single bit fails the byte that it lies in, or the byte whose parity bit it is. -/
theorem byteFails_two_pow (n i k : Nat) : byteFails n (2 ^ i) k = (decide (i / 8 = k) ^^ decide (i = 8 * n + k)) := by
  rw [byteFails, parBit_byte_two_pow, Nat.testBit_two_pow]

/-- A byte of the data reads the same with the parity bits above it cut off. -/
theorem byte_mod_two_pow {n k : Nat} (x : Nat) (hk : k < n) :
    ((x % 2 ^ (8 * n)) >>> (8 * k)) % 2 ^ 8 = (x >>> (8 * k)) % 2 ^ 8 := by
  refine Nat.eq_of_testBit_eq fun i => ?_
  simp only [Nat.testBit_mod_two_pow, Nat.testBit_shiftRight]
  rcases Nat.lt_or_ge i 8 with hi | hi
  · rw [decide_eq_true (show 8 * k + i < 8 * n by omega), Bool.true_and]
  · rw [decide_eq_false (Nat.not_lt.mpr hi), Bool.false_and, Bool.false_and]

theorem badBytes_eq_filter (n x : Nat) : badBytes n x = (List.range n).filter (byteFails n x) := by
  refine List.filter_congr fun k hk => ?_
  rw [byteFails, Nat.testBit_div_two_pow, Nat.add_comm k]
  exact congrArg (fun b => parBit b != x.testBit (8 * n + k)) (byte_mod_two_pow x (List.mem_range.mp hk))

theorem parBits_succ (n w : Nat) :
    parBits (n + 1) w = if parBit ((w >>> (8 * n)) % 256) then parBits n w + 2 ^ n else parBits n w := by
  rw [parBits, List.range_succ, List.foldl_append]
  rfl

theorem parBits_lt (n w : Nat) : parBits n w < 2 ^ n := by
  induction n with
  | zero => exact Nat.one_pos
  | succ n ih =>
    rw [parBits_succ]
    split <;> omega

/-- Parity bit `k` is that of byte `k`. -/
theorem parBits_testBit (n w k : Nat) (hk : k < n) : (parBits n w).testBit k = parBit ((w >>> (8 * k)) % 256) := by
  induction n with
  | zero => omega
  | succ n ih =>
    rw [parBits_succ, Nat.add_comm (parBits n w)]
    rcases Nat.lt_succ_iff_lt_or_eq.mp hk with hlt | rfl
    · split
      · rw [Nat.testBit_two_pow_add_gt hlt, ih hlt]
      · exact ih hlt
    · have htop : (parBits k w).testBit k = false := Nat.testBit_lt_two_pow (parBits_lt k w)
      split
      next hodd => rw [Nat.testBit_two_pow_add_eq, htop, hodd, Bool.not_false]
      next heven => rw [htop, eq_false_of_ne_true heven]

/-- A word written with its parity has no byte that disagrees. -/
theorem byteFails_withPar (n w k : Nat) (hw : w < 2 ^ (8 * n)) (hk : k < n) : byteFails n (withPar n w) k = false := by
  have hpos : 0 < 2 ^ (8 * n) := Nat.two_pow_pos _
  have hdata : withPar n w % 2 ^ (8 * n) = w := by
    rw [withPar, Nat.mul_comm, Nat.mul_add_mod, Nat.mod_eq_of_lt hw]
  have hpar : withPar n w / 2 ^ (8 * n) = parBits n w := by
    rw [withPar, Nat.mul_comm, Nat.mul_add_div hpos, Nat.div_eq_of_lt hw, Nat.add_zero]
  have hbyte : (withPar n w >>> (8 * k)) % 256 = (w >>> (8 * k)) % 256 := by
    have hcut := byte_mod_two_pow (withPar n w) hk
    rw [hdata] at hcut
    exact hcut.symm
  rw [byteFails, hbyte, Nat.add_comm, ← Nat.testBit_div_two_pow, hpar, parBits_testBit n w k hk, Bool.xor_self]

theorem filter_range_eq_singleton {n c : Nat} (hc : c < n) : (List.range n).filter (fun k => k = c) = [c] := by
  rw [List.filter_eq, List.count_eq_one_of_mem List.nodup_range (List.mem_range.mpr hc)]
  rfl

/-- With one bit of a written word flipped, the bytes that fail are the one it lies in or the one whose parity bit it is. -/
theorem badBytes_flip {n w c : Nat} (i : Nat) (hw : w < 2 ^ (8 * n)) (hc : c < n)
    (hbit : ∀ k < n, (decide (i / 8 = k) ^^ decide (i = 8 * n + k)) = decide (k = c)) :
    badBytes n (withPar n w ^^^ 2 ^ i) = [c] := by
  rw [badBytes_eq_filter, ← filter_range_eq_singleton hc]
  refine List.filter_congr fun k hk => ?_
  have hlt : k < n := List.mem_range.mp hk
  rw [byteFails_xor, byteFails_withPar n w k hw hlt, Bool.false_xor, byteFails_two_pow, hbit k hlt]

/-- Settles O18: parity is linear, so a flip fails exactly the bytes that the flipped bit alone would; the width plays no part. -/
theorem parityFindsEverySingleFlip : Obligations.ParityFindsEverySingleFlip := by
  intro n w _ hw
  refine ⟨?_, fun i hi => badBytes_flip i hw (by omega) fun k hk => ?_,
    fun k hk => badBytes_flip (8 * n + k) hw hk fun j hj => ?_⟩
  · rw [badBytes_eq_filter, List.filter_eq_nil_iff]
    intro k hk
    rw [byteFails_withPar n w k hw (List.mem_range.mp hk)]
    exact Bool.false_ne_true
  · rw [decide_eq_false (show i ≠ 8 * n + k by omega), Bool.xor_false, decide_eq_decide]
    exact eq_comm
  · rw [decide_eq_false (show (8 * n + k) / 8 ≠ j by omega), Bool.false_xor, decide_eq_decide]
    omega

-- ===== buckets (R93) =====

theorem thOf_lt (m : Nat) (tag : BitVec 25) (hm : 0 < m) : thOf m tag < 2 ^ m := by
  refine List.foldlRecOn (motive := (· < 2 ^ m)) _ _ (Nat.two_pow_pos m) fun a ha i _ => ?_
  split
  · rw [Nat.one_shiftLeft]
    exact Nat.xor_lt_two_pow ha (Nat.pow_lt_pow_right Nat.one_lt_two (Nat.mod_lt i hm))
  · exact ha

/-- The set index stands above the fold of the tag in a bucket index. -/
theorem bucketIdx_div {z : Nat} (s : BitVec 39) (hz : 25 < z) : bucketIdx z s / 2 ^ (z - 25) = (setOf s).toNat := by
  have hth := thOf_lt (z - 25) (tagOf s) (by omega)
  rw [bucketIdx, Nat.mul_comm, Nat.mul_add_div (Nat.two_pow_pos _), Nat.div_eq_of_lt hth, Nat.add_zero]

theorem bucketIdx_mod {z : Nat} (s : BitVec 39) (hz : 25 < z) : bucketIdx z s % 2 ^ (z - 25) = thOf (z - 25) (tagOf s) := by
  rw [bucketIdx, Nat.mul_comm, Nat.mul_add_mod, Nat.mod_eq_of_lt (thOf_lt (z - 25) (tagOf s) (by omega))]

theorem bucketIdx_lt {z : Nat} (s : BitVec 39) (hz : 25 < z) : bucketIdx z s < 2 ^ (z - 11) := by
  rw [show z - 11 = 14 + (z - 25) by omega, Nat.pow_add, ← Nat.div_lt_iff_lt_mul (Nat.two_pow_pos _), bucketIdx_div s hz]
  exact (setOf s).isLt

/-- Settles O19: a bucket index is a pair, the set index above a fold that is below 2^(z-25). -/
theorem bucketsLieInTheirShare : Obligations.BucketsLieInTheirShare := by
  intro z a b hz _
  have hz25 : 25 < z := by omega
  refine ⟨bucketIdx_lt a hz25, bucketIdx_div a hz25, bucketIdx_mod a hz25, fun h => ⟨?_, ?_⟩, fun ⟨hset, hth⟩ => ?_⟩
  · rw [← BitVec.toNat_inj, ← bucketIdx_div a hz25, h, bucketIdx_div b hz25]
  · rw [← bucketIdx_mod a hz25, h, bucketIdx_mod b hz25]
  · rw [bucketIdx, hset, hth, bucketIdx]

-- ===== a turn starts (R112, R122, R125, R128) =====

/-- The machine in which TURN_START looks at an entry: its wait lists are readable, and the move owed to its sector is made if it can
be. -/
def Mach.readied (m : Mach) (h t : Nat) : Mach :=
  if ((m.repairLists h).te h t).kind.isLine = true then (m.repairLists h).owedMove h (keySec ((m.repairLists h).te h t).key)
  else m.repairLists h

/-- Does an entry of two keys hold its line `b`, or take it now (R128)? -/
def Mach.reaches (m : Mach) (h t b : Nat) : Bool :=
  (m.te h t).got.getLsbD b || (match (m.te h t).keys[b]? with
    | some k => !(m.slice h).held k && (m.slice h).isNext t k
    | none => false)

/-- The slice once entry `e` of number `t` has left the list of its line `b`, where it takes that line `now`. -/
def Slice.takes (s : Slice) (t : Nat) (e : TE) (b : Nat) (now : Bool) : Slice :=
  if now && !e.got.getLsbD b then s.leave t (e.keys.getD b 0) else s

section
variable {s : Slice} {t : Nat} {e : TE} {b : Nat}

theorem Slice.takes_of_got {now : Bool} (hgot : e.got.getLsbD b = true) : s.takes t e b now = s := by simp [Slice.takes, hgot]

theorem Slice.takes_of_not_got (hgot : e.got.getLsbD b = false) : s.takes t e b true = s.leave t (e.keys.getD b 0) := by
  simp only [Slice.takes, hgot, Bool.not_false, Bool.and_true, if_true]

end

/-- An entry of two keys holds the lines `g₀` and `g₁` from now on, and its turn begins once it holds both (R128). -/
def Mach.takeLines (m : Mach) (h t : Nat) (g₀ g₁ : Bool) : Mach × WalkOut :=
  let e := m.te h t
  let l : BitVec 2 := (if g₀ then 1 else 0) ||| (if g₁ then 2 else 0)
  let s := ((m.slice h).takes t e 0 g₀).takes t e 1 g₁
  if l = 3 then (m.setSlice h ({ s with ovf := s.ovf.erase t }.setEnt t { e with st := .active, got := 0 })).beginTurn h t
  else (m.setSlice h (s.setEnt t { e with got := l }), [])

/-- Nothing but its keys holds back an entry in WAIT: its region is known, Tribex is in service, the slice runs, no move is owed. -/
structure Mach.MayTurn (m : Mach) (h t : Nat) : Prop where
  wait : (m.te h t).st = .wait
  region : (m.te h t).ph ≠ .region
  safe : m.safe = none
  drain : m.drain = none
  run : (m.slice h).run = .on
  owed : ((m.te h t).kind.isLine && (m.slice h).moveOwed (keySec (m.te h t).key)) = false

/-- TURN_START goes by the keys of an entry that nothing else holds back. -/
theorem Mach.turnStart_of_mayTurn {m₀ m : Mach} {h t : Nat} (hm : m = m₀.readied h t) (hmay : m.MayTurn h t) :
    m₀.turnStart h t =
      if (m.te h t).both then m.takeLines h t (m.reaches h t 0) (m.reaches h t 1)
      else if (m.slice h).held (m.te h t).hkey || !(m.slice h).isNext t (m.te h t).hkey then (m, [])
      else (m.setSlice h (((m.slice h).leaveAll t).setEnt t { m.te h t with st := .active })).beginTurn h t := by
  obtain ⟨hwait, hregion, hsafe, hdrain, hrun, howed⟩ := hmay
  unfold Mach.turnStart
  extract_lets m₁ m₂ e s got l s'
  have hm₂ : m₂ = m := hm.symm
  clear_value m₂
  subst hm₂
  have hgo : (e.st ≠ .wait || e.ph = .region || m₂.safe.isSome || m₂.drain.isSome || s.run ≠ .on) = false := by
    simp [e, s, hwait, hregion, hsafe, hdrain, hrun]
  rw [if_neg (Bool.eq_false_iff.mp hgo), if_neg (Bool.eq_false_iff.mp howed)]
  rfl

/-- The keys of an entry of two are a first and a second one. -/
theorem TE.keys_getElem?_of_both {e : TE} (hboth : e.both = true) {b : Nat} (hb : b < 2) : e.keys[b]? = some (e.keys.getD b 0) := by
  have hlen : e.keys.length = 2 := by rw [TE.keys, if_pos hboth]; rfl
  rw [List.getD_eq_getElem?_getD, List.getElem?_eq_getElem (by omega)]
  rfl

section
variable {m : Mach} {h t b : Nat}

/-- A line that an entry holds stays its own. -/
theorem Mach.reaches_of_got (hgot : (m.te h t).got.getLsbD b = true) : m.reaches h t b = true := by
  rw [Mach.reaches, hgot, Bool.true_or]

/-- It takes a line that it is next on and nobody holds. -/
theorem Mach.reaches_of_isNext (hboth : (m.te h t).both = true) (hb : b < 2)
    (hheld : (m.slice h).held ((m.te h t).keys.getD b 0) = false) (hnext : (m.slice h).isNext t ((m.te h t).keys.getD b 0) = true) :
    m.reaches h t b = true := by
  simp only [Mach.reaches, TE.keys_getElem?_of_both hboth hb, hheld, hnext, Bool.not_false, Bool.and_true, Bool.or_true]

/-- It does not take one that it is not next on. -/
theorem Mach.reaches_of_not_isNext (hboth : (m.te h t).both = true) (hb : b < 2) (hgot : (m.te h t).got.getLsbD b = false)
    (hnext : (m.slice h).isNext t ((m.te h t).keys.getD b 0) = false) : m.reaches h t b = false := by
  simp only [Mach.reaches, TE.keys_getElem?_of_both hboth hb, hgot, hnext, Bool.and_false, Bool.or_false]

end

section
variable {s : State} {hs : SliceId} {te : Fin 512} {m : Mach}

/-- TURN_START gives an entry of one key its turn. -/
theorem exec_turnStart_one (hup : s.m.up = true) (hm : m = s.m.readied hs.val te.val) (hmay : m.MayTurn hs.val te.val)
    (hone : (m.te hs.val te.val).both = false) (hheld : (m.slice hs.val).held (m.te hs.val te.val).hkey = false)
    (hnext : (m.slice hs.val).isNext te.val (m.te hs.val te.val).hkey = true) :
    exec (.turnStart hs te) s = .next (s.after (Mach.fin ((m.setSlice hs.val
      (((m.slice hs.val).leaveAll te.val).setEnt te.val { m.te hs.val te.val with st := .active })).beginTurn hs.val te.val))) := by
  refine exec_of_run (f := fun m => Mach.fin (m.turnStart hs.val te.val)) rfl hup (congrArg Mach.fin ?_)
  rw [Mach.turnStart_of_mayTurn hm hmay, hone, hheld, hnext]
  rfl

/-- TURN_START lets an entry of two keys take the lines it reaches. -/
theorem exec_turnStart_both (hup : s.m.up = true) (hm : m = s.m.readied hs.val te.val) (hmay : m.MayTurn hs.val te.val)
    (hboth : (m.te hs.val te.val).both = true) {g₀ g₁ : Bool} (h₀ : m.reaches hs.val te.val 0 = g₀)
    (h₁ : m.reaches hs.val te.val 1 = g₁) :
    exec (.turnStart hs te) s = .next (s.after (Mach.fin (m.takeLines hs.val te.val g₀ g₁))) := by
  refine exec_of_run (f := fun m => Mach.fin (m.turnStart hs.val te.val)) rfl hup (congrArg Mach.fin ?_)
  rw [Mach.turnStart_of_mayTurn hm hmay, hboth, h₀, h₁]
  rfl

end

-- ===== a turn goes on (R86, R91, R275) =====

section
variable {m : Mach} {h t : Nat}

/-- The kinds that wait in RESERVE for a step of their own. -/
theorem not_mem_ownStep {k : TKind} (hkind : k ∉ [TKind.mbs, .rebuild, .biv]) : k ≠ .mbs ∧ k ≠ .rebuild ∧ k ≠ .biv := by
  simpa only [List.mem_cons, List.not_mem_nil, or_false, not_or] using hkind

/-- A turn that waits in RESERVE repeats the step of its kind; a far atomic without a buffer starts again (R275). -/
theorem Mach.resume_reserve (hst : (m.te h t).st = .active) (hph : (m.te h t).ph = .reserve) :
    m.resume h t false =
      (if (m.te h t).kind = .mbs then m.mbsTurn h t
      else if (m.te h t).kind = .rebuild then (m.suspectNext h t).tryEnd h t
      else if (m.te h t).kind = .biv then m.evict h (keySec (m.te h t).key)
      else if (m.te h t).kind = .atm && (m.te h t).far && (m.te h t).sbuf.isNone && atWb (m.te h t).at_ then m.farStart h t
      else if atWb (m.te h t).at_ then (m.serve h t).tryEnd h t
      else m.ncRead h t, []) := by
  simp only [Mach.resume, hst, hph, apply_ite (fun x : Mach => (x, ([] : WalkOut)))]
  rfl

/-- A turn of a line that waits for a way looks up again, where the sector has one by now; else it goes on with its refill, or with its
miss (R86, R91). Either command repeats the choice. -/
theorem Mach.resume_wayWait (waysOnly : Bool) (hst : (m.te h t).st = .active) (hph : (m.te h t).ph = .wayWait)
    (hkind : (m.te h t).kind ≠ .rebuild) :
    m.resume h t waysOnly = (
      match m.findWay h (keySec (m.te h t).key), (m.te h t).refill with
      | some _, w => (if w.isSome then m.bktDel h (m.bktOf h (keySec (m.te h t).key)) else m).lookup h t
      | none, some w => m.refillWay h t w
      | none, none => if ssSimp (m.ss h (setOf (keySec (m.te h t).key)).toNat) then m.missImp h t else m.missWay h t, []) := by
  simp only [Mach.resume, hst, hph, if_neg hkind]
  cases hway : m.findWay h (keySec (m.te h t).key) <;> cases hrefill : (m.te h t).refill <;> rfl

end

section
variable {s : State} {hs : SliceId} {te : Fin 512}

/-- TURN_RESUME with the step that it repeats. -/
theorem exec_turnResume {m' : Mach} (hup : s.m.up = true) (hstep : s.m.resume hs.val te.val false = (m', [])) :
    exec (.turnResume hs te) s = .next (s.after m') :=
  exec_of_run (f := fun m => Mach.fin (m.resume hs.val te.val false)) rfl hup (congrArg Mach.fin hstep)

theorem exec_wayChoiceRetry {m' : Mach} (hup : s.m.up = true) (hstep : s.m.resume hs.val te.val true = (m', [])) :
    exec (.wayChoiceRetry hs te) s = .next (s.after m') :=
  exec_of_run (f := fun m => Mach.fin (m.resume hs.val te.val true)) rfl hup (congrArg Mach.fin hstep)

end

/-- Settles O36: a turn starts by the lines that its entry reaches, and goes on by the step that its entry waited at. -/
theorem turnsStartAndGoOn : Obligations.TurnsStartAndGoOn := by
  refine ⟨?one, ?lastIsSecond, ?lastIsFirst, ?takesFirst, ?takesSecond, ?lookup, ?mbs, ?rebuild, ?biv, ?serve, ?ncRead, ?far, ?wcWait, ?wbuf,
    ?qop, ?wayHit, ?wayRefill, ?wayMiss, ?retryHit, ?retryRefill, ?retryMiss⟩
  case one =>
    intro s hs te m hup hm hwait hregion hsafe hdrain hrun howed hone hheld hnext
    exact exec_turnStart_one hup hm ⟨hwait, hregion, hsafe, hdrain, hrun, howed⟩ hone hheld hnext
  case lastIsSecond =>
    intro s hs te m hup hm hwait hregion hsafe hdrain hrun howed hboth hgot hheld hnext
    have hg₀ : (m.te hs.val te.val).got.getLsbD 0 = true := by rw [hgot]; rfl
    have hg₁ : (m.te hs.val te.val).got.getLsbD 1 = false := by rw [hgot]; rfl
    rw [exec_turnStart_both hup hm ⟨hwait, hregion, hsafe, hdrain, hrun, howed⟩ hboth (Mach.reaches_of_got hg₀)
      (Mach.reaches_of_isNext hboth (by omega) hheld hnext), Mach.takeLines, Slice.takes_of_got hg₀, Slice.takes_of_not_got hg₁]
    rfl
  case lastIsFirst =>
    intro s hs te m hup hm hwait hregion hsafe hdrain hrun howed hboth hgot hheld hnext
    have hg₀ : (m.te hs.val te.val).got.getLsbD 0 = false := by rw [hgot]; rfl
    have hg₁ : (m.te hs.val te.val).got.getLsbD 1 = true := by rw [hgot]; rfl
    rw [exec_turnStart_both hup hm ⟨hwait, hregion, hsafe, hdrain, hrun, howed⟩ hboth
      (Mach.reaches_of_isNext hboth (by omega) hheld hnext) (Mach.reaches_of_got hg₁), Mach.takeLines, Slice.takes_of_not_got hg₀,
      Slice.takes_of_got hg₁]
    rfl
  case takesFirst =>
    intro s hs te m hup hm hwait hregion hsafe hdrain hrun howed hboth hgot hheld hnext hlast
    have hg₀ : (m.te hs.val te.val).got.getLsbD 0 = false := by rw [hgot]; rfl
    have hg₁ : (m.te hs.val te.val).got.getLsbD 1 = false := by rw [hgot]; rfl
    rw [exec_turnStart_both hup hm ⟨hwait, hregion, hsafe, hdrain, hrun, howed⟩ hboth
      (Mach.reaches_of_isNext hboth (by omega) hheld hnext) (Mach.reaches_of_not_isNext hboth (by omega) hg₁ hlast), Mach.takeLines,
      Slice.takes_of_not_got hg₀]
    rfl
  case takesSecond =>
    intro s hs te m hup hm hwait hregion hsafe hdrain hrun howed hboth hgot hheld hnext hlast
    have hg₀ : (m.te hs.val te.val).got.getLsbD 0 = false := by rw [hgot]; rfl
    have hg₁ : (m.te hs.val te.val).got.getLsbD 1 = false := by rw [hgot]; rfl
    rw [exec_turnStart_both hup hm ⟨hwait, hregion, hsafe, hdrain, hrun, howed⟩ hboth
      (Mach.reaches_of_not_isNext hboth (by omega) hg₀ hlast) (Mach.reaches_of_isNext hboth (by omega) hheld hnext), Mach.takeLines,
      Slice.takes_of_not_got hg₁]
    rfl
  case lookup =>
    intro s hs te hup hst hph
    exact exec_turnResume hup (by simp only [Mach.resume, hst, hph]; rfl)
  case mbs =>
    intro s hs te hup hst hph hkind
    exact exec_turnResume hup (by simp [Mach.resume_reserve hst hph, hkind])
  case rebuild =>
    intro s hs te hup hst hph hkind
    exact exec_turnResume hup (by simp [Mach.resume_reserve hst hph, hkind])
  case biv =>
    intro s hs te hup hst hph hkind
    exact exec_turnResume hup (by simp [Mach.resume_reserve hst hph, hkind])
  case serve =>
    intro s hs te hup hst hph hkind hfar hwb
    obtain ⟨hmbs, hrebuild, hbiv⟩ := not_mem_ownStep hkind
    have hnear : ((s.m.te hs.val te.val).kind = .atm && (s.m.te hs.val te.val).far && (s.m.te hs.val te.val).sbuf.isNone &&
        atWb (s.m.te hs.val te.val).at_) = false := by
      simpa [hwb, Option.isSome_iff_ne_none] using hfar
    exact exec_turnResume hup (by
      rw [Mach.resume_reserve hst hph, if_neg hmbs, if_neg hrebuild, if_neg hbiv, if_neg (Bool.eq_false_iff.mp hnear), if_pos hwb])
  case ncRead =>
    intro s hs te hup hst hph hkind hwb
    obtain ⟨hmbs, hrebuild, hbiv⟩ := not_mem_ownStep hkind
    exact exec_turnResume hup (by simp [Mach.resume_reserve hst hph, hmbs, hrebuild, hbiv, hwb])
  case far =>
    intro s hs te hup hst hph hkind hfar hsbuf hwb
    exact exec_turnResume hup (by simp [Mach.resume_reserve hst hph, hkind, hfar, hsbuf, hwb])
  case wcWait =>
    intro s hs te hup hst hph
    exact exec_turnResume hup (by simp only [Mach.resume, hst, hph]; rfl)
  case wbuf =>
    intro s hs te hup hst hph
    exact exec_turnResume hup (by simp only [Mach.resume, hst, hph]; rfl)
  case qop =>
    intro s hs te hup hst hph hkind
    have hstep : s.m.resume hs.val te.val false = s.m.qGo hs.val te.val := by
      rcases hph with hph | hph <;> simp only [Mach.resume, hst, hph, hkind] <;> rfl
    exact exec_of_run (f := fun m => Mach.fin (m.resume hs.val te.val false)) rfl hup (congrArg Mach.fin hstep)
  case wayHit =>
    intro s hs te v hup hst hph hkind hway
    exact exec_turnResume hup (by simp only [Mach.resume_wayWait false hst hph hkind, hway])
  case wayRefill =>
    intro s hs te x hup hst hph hkind hway hrefill
    exact exec_turnResume hup (by simp only [Mach.resume_wayWait false hst hph hkind, hway, hrefill])
  case wayMiss =>
    intro s hs te hup hst hph hkind hway hrefill
    exact exec_turnResume hup (by simp only [Mach.resume_wayWait false hst hph hkind, hway, hrefill])
  case retryHit =>
    intro s hs te v hup hst hph hkind hway
    exact exec_wayChoiceRetry hup (by simp only [Mach.resume_wayWait true hst hph hkind, hway])
  case retryRefill =>
    intro s hs te x hup hst hph hkind hway hrefill
    exact exec_wayChoiceRetry hup (by simp only [Mach.resume_wayWait true hst hph hkind, hway, hrefill])
  case retryMiss =>
    intro s hs te hup hst hph hkind hway hrefill
    exact exec_wayChoiceRetry hup (by simp only [Mach.resume_wayWait true hst hph hkind, hway, hrefill])

-- ===== a rebuild starts (R103) =====

/-- The keys of a table rise. -/
def SMap.Rising {α : Type} (m : SMap α) : Prop := m.Pairwise fun a b => a.1 < b.1

/-- A key removed from a table whose keys rise is listed no more. -/
theorem SMap.find_del {α : Type} (n : Nat) : ∀ m : SMap α, m.Rising → SMap.find (SMap.del m n) n = none
  | [], _ => rfl
  | (k, u) :: r, hm => by
    obtain ⟨hk, hr⟩ := List.pairwise_cons.mp hm
    rcases Nat.lt_trichotomy n k with hlt | rfl | hgt
    · simp [SMap.del, SMap.find, hlt, hlt.ne]
    · cases r with
      | nil => simp [SMap.del, SMap.find]
      | cons e r =>
        have he : n < e.1 := hk e List.mem_cons_self
        simp [SMap.del, SMap.find, he, he.ne]
    · simp [SMap.del, SMap.find, hgt.ne', hgt.asymm, SMap.find_del n r hr]

/-- Listing a key that was removed first lists it where it was. -/
theorem SMap.put_del {α : Type} (n : Nat) (v : α) : ∀ m : SMap α, m.Rising → SMap.put (SMap.del m n) n v = SMap.put m n v
  | [], _ => rfl
  | (k, u) :: r, hm => by
    obtain ⟨hk, hr⟩ := List.pairwise_cons.mp hm
    rcases Nat.lt_trichotomy n k with hlt | rfl | hgt
    · simp [SMap.del, SMap.put, hlt, hlt.ne]
    · cases r with
      | nil => simp [SMap.del, SMap.put]
      | cons e r =>
        have he : n < e.1 := hk e List.mem_cons_self
        simp [SMap.del, SMap.put, he, he.ne]
    · simp [SMap.del, SMap.put, hgt.ne', hgt.asymm, SMap.put_del n v r hr]

section
variable {α : Type} [DecidableEq α] {d : α}

/-- A table whose keys rise reads what was written. -/
theorem SMap.get_set {m : SMap α} (hm : m.Rising) (n : Nat) (v : α) : (m.set d n v).get d n = v := by
  by_cases hv : v = d
  · rw [SMap.set, if_pos hv, SMap.get, SMap.find_del n m hm, Option.getD_none, hv]
  · rw [SMap.set, if_neg hv, SMap.get, SMap.find_put, Option.getD_some]

/-- The later of two writes stands; here it is not one of the default. -/
theorem SMap.set_set {m : SMap α} (hm : m.Rising) (n : Nat) (u : α) {v : α} (hv : v ≠ d) :
    (m.set d n u).set d n v = m.set d n v := by
  rw [SMap.set, if_neg hv, SMap.set, SMap.set, if_neg hv]
  split
  · exact SMap.put_del n v m hm
  · exact SMap.put_put n u v m

end

/-- Two updates of a slice are one where the keys of the slices rise, unless they end at the fresh slice. -/
theorem Mach.modS_modS_of_rising {m : Mach} (hm : m.slices.Rising) (h : Nat) (f g : Slice → Slice)
    (hg : g (f (m.slice h)) ≠ Slice.fresh h) : (m.modS h f).modS h g = m.modS h fun v => g (f v) := by
  have hslice : (m.modS h f).slice h = f (m.slice h) := SMap.get_set hm h _
  rw [Mach.modS, hslice]
  exact congrArg (fun x => ({ m with slices := x } : Mach)) (SMap.set_set hm h _ hg)

/-- Where the keys of the slices rise, REBUILD_START does what the statement says of it. -/
theorem Mach.rebuildStart_of_rising {m : Mach} {h t : Nat} {sec : BitVec 39} {sus : BitVec 2} {rest : List (BitVec 39 × BitVec 2)}
    (hm : m.slices.Rising) (hq : (m.slice h).rbq = (sec, sus) :: rest) (hfree : (m.slice h).freeCrow = some t) :
    m.rebuildStart h =
      let m' := (m.modS h fun v => { v with rbq := rest, seq := v.seq + 1 }).enter h t
        { kind := .rebuild, pool := .crow, key := lineKey sec false, suspect := sus, ord := (m.slice h).seq }
      if (m'.te h t).st = .active then m'.crowStart h t else m' := by
  have hord : (m.modS h fun v => { v with rbq := rest }).slice h = { m.slice h with rbq := rest } :=
    SMap.get_set hm h _
  have hone := Mach.modS_modS_of_rising hm h (fun v => { v with rbq := rest }) (fun v => { v with seq := v.seq + 1 }) fun hfresh => by
    have hseq := congrArg Slice.seq hfresh
    simp only [Slice.fresh] at hseq
    split at hseq <;> exact absurd hseq (Nat.succ_ne_zero _)
  simp only [Mach.rebuildStart, hq, hfree, hord, hone]

/-- HS0 with one sector queued for a rebuild, and nothing else in it. -/
def rebuildSlice : Slice := { Slice.fresh 0 with rbq := [(0, 0)] }

/-- The reset state out of POR with HS0 so and, against the canonical form of a table, listed a second time with 5 entries accepted.
The other slices are fenced, so that HS0 alone is active. -/
def rebuildState : State :=
  { State.reset with m := { State.reset.m with
      up := true
      slices := (0, rebuildSlice) :: (0, { Slice.fresh 0 with seq := 5 }) ::
        (List.range 33).map fun h => (h + 1, { Slice.fresh (h + 1) with role := .fenced, run := .stopped }) } }

/-- How many entries HS0 has accepted. -/
def acceptedEntries : Out → Nat
  | .next t => (t.m.slice 0).seq
  | _ => 0

/-- Refutes O40: its clause for REBUILD_START takes the sector off the queue and counts the entry in one update of the slice, where the
model makes two. They differ in a state whose slice table lists HSn twice: the first update of `rebuildState` leaves HS0 fresh, which
removes its entry, and the second update then reads the other one, so that 6 entries are accepted and not 1. In a table whose keys
rise the clause holds (`Mach.rebuildStart_of_rising`); the statement has no such hypothesis. -/
theorem not_snoopFilterEnginesWork : ¬ Obligations.SnoopFilterEnginesWork := by
  rintro ⟨-, -, -, -, -, hrebuild, -, -⟩
  have haccepted := congrArg acceptedEntries (hrebuild rebuildState 0 0 0 [] 504 rfl rfl rfl)
  exact absurd haccepted (by decide +kernel)

end Sys2Proof.Machine
end

section
/-! PROOFS. Halyard: a read that is accepted at idle ports, and links that train, sleep and time out
(`spec/05_halyard_races.md`). -/

namespace Sys2Proof.Machine

-- ===== a read at idle ports (R118, R122, R274) =====

/-- A read of port 3 for the first homed line. -/
def dedicatedReq : Req := { port := 3, agent := 3, tid := 7, rqid := 4, w := .ns, pa := 0x40000000, sz := 0 }

/-- Out of POR with every domain ON, homed space placed, port 3 UP and the default partition of R273, in which each port has four plain
dedicated entries of every slice. -/
def dedicatedState : State :=
  { State.reset with m := { State.reset.m with
      up := true
      doms := (List.range 247).map fun d => (d, .on)
      ports := [(3, { st := .up })]
      regs := [(Reg.glbHbaseLo, 0x40000000), (Reg.glbHsize, 0x80000022), (Reg.glbCrslc, 0x20408)] } }

/-- The port that HS0 last lent a shared entry to. -/
def lastLent : Out → Nat
  | .next t => (t.m.slice 0).rr
  | _ => 0

/-- Refutes O22: it has the slice serve the port last whatever entry it grants, where the round robin of R274 goes over the shared
entries alone. In `dedicatedState` the first read of port 3 takes a plain dedicated entry, and HS0 has lent to no port. -/
theorem not_readAtIdlePortsTakesAnEntry : ¬ Obligations.ReadAtIdlePortsTakesAnEntry := by
  intro h
  have hlent := congrArg lastLent (h dedicatedState dedicatedReq 0 (.rds dedicatedReq) 0 0 .plain (by simp)
    rfl rfl (by decide +kernel) (by decide +kernel) (by decide +kernel) (by decide +kernel) (by decide +kernel) (by decide +kernel)
    (by decide +kernel) (by decide +kernel) (by decide +kernel))
  exact absurd hlent (by decide +kernel)

-- ===== training (R301, R383) =====

section
variable {m : Mach} {p : Nat}

/-- A populated port in DOWN whose adapter is ON: the ports that train. -/
def Mach.Trains (m : Mach) (p : Nat) : Prop := (m.port p).st = .down ∧ m.dom (portDom p) = .on ∧ m.populated p = true

/-- A port that trains passes the guard of LINK_TRAINED and of its timeout. -/
theorem Mach.Trains.passes (htrains : m.Trains p) :
    (decide ((m.port p).st ≠ .down) || decide (m.dom (portDom p) ≠ .on) || !m.populated p) = false := by
  obtain ⟨hst, hdom, hpop⟩ := htrains
  simp [hst, hdom, hpop]

theorem Mach.linkTrained_wide {rate : BitVec 4} {lanes : BitVec 7} (htrains : m.Trains p) (hwide : narrow p lanes = false) :
    m.linkTrained p rate lanes =
      (((m.modP p fun v => { v with rate := portRate p v.cap rate, half := decide (p < 16) && decide (lanes.toNat < 64) }).setLink p
        .init).sendLink p (.ctrl 1 (BitVec.ofNat 64 (portType p + 256)))).sendLink p (.ctrl 2 0) := by
  simp only [Mach.linkTrained, htrains.passes, hwide, Bool.false_eq_true, if_false]

theorem Mach.linkTrained_narrow {rate : BitVec 4} {lanes : BitVec 7} (htrains : m.Trains p) (hnarrow : narrow p lanes = true) :
    m.linkTrained p rate lanes = { m with due := m.due ++ [.port p 5 true] } := by
  simp only [Mach.linkTrained, htrains.passes, hnarrow, Bool.false_eq_true, if_false, if_true]

theorem Mach.trainTimeout_of_trains (htrains : m.Trains p) :
    m.trainTimeout p = { m with due := m.due ++ [.port p 6 true] } := by
  simp only [Mach.trainTimeout, htrains.passes, Bool.false_eq_true, if_false]

end

-- ===== the snoop timeout (R129) =====

/-- SNOOP_RESPONSE_TIMEOUT of an ACTIVE entry with agents pending, in a slice that runs: they are captured, and at the third expiry
they are fenced as well. -/
theorem Mach.snpTimeout_of_pending {m : Mach} {h t : Nat} {e : TE} (he : m.te h t = e) (hst : e.st = .active) (hpend : e.pend ≠ 0)
    (hrun : (m.slice h).run = .on) (hrole : (m.slice h).role = .active) :
    m.snpTimeout h t =
      let pa := m.paOf (offOf (if e.kind = .rebuild ∨ e.kind = .biv ∨ e.kind = .mbs then lineKey (keySec e.key) e.line1 else e.key))
      let m' := (m.modTe h t fun e => { e with tocnt := BitVec.ofNat 2 (min 3 (e.tocnt.toNat + 1)) }).bump h Reg.hscSnpto
      let m' := (agents e.pend).foldl (fun (m : Mach) a =>
        m.capture { (e.ev (m.htag h t) pa (34 + agPort a) 0x04) with counted := true }) m'
      if e.tocnt.toNat = 2 then
        (agents e.pend).foldl (fun (m : Mach) a =>
          let m := m.capture { (e.ev (m.htag h t) pa (34 + agPort a) 0x05) with cls := .f }
          { m with due := m.due ++ [.agent a] }) m'
      else m' := by
  subst he
  simp only [Mach.snpTimeout, hst, hpend, hrun, hrole, ne_eq, not_true_eq_false, decide_false, Bool.or_self, Bool.false_eq_true,
    if_false, ite_not, Bool.or_eq_true, decide_eq_true_eq, or_assoc]
  rfl

/-- Settles O39: the ports that train are those of `Mach.Trains`, an idle die port passes the guard of L1_ENTRY, and a timeout that
finds agents pending is `Mach.snpTimeout_of_pending`. -/
theorem linksTrainAndSleep : Obligations.LinksTrainAndSleep := by
  refine ⟨?wide, ?narrow, ?timeout, ?entry, ?exit, ?snoop⟩
  case wide =>
    intro s port rate lanes hup hst hdom hpop hwide
    exact exec_of_run (f := fun m => m.linkTrained port.val rate lanes) rfl hup (Mach.linkTrained_wide ⟨hst, hdom, hpop⟩ hwide)
  case narrow =>
    intro s port rate lanes hup hst hdom hpop hnarrow
    exact exec_of_run (f := fun m => m.linkTrained port.val rate lanes) rfl hup (Mach.linkTrained_narrow ⟨hst, hdom, hpop⟩ hnarrow)
  case timeout =>
    intro s port hup hst hdom hpop
    exact exec_of_run (f := fun m => m.trainTimeout port.val) rfl hup (Mach.trainTimeout_of_trains ⟨hst, hdom, hpop⟩)
  case entry =>
    intro s port hup hdie hen hst hrpl hegr hheld hfwd hrsp hunack hcrq hclaimed
    refine exec_of_run (f := fun m => m.l1Entry port.val) rfl hup ?_
    have hallowed : (!s.m.claimed (portDom port.val) || s.m.bit Reg.secPart 1) = true := by simpa using hclaimed
    simp [Mach.l1Entry, hdie, hen, hst, hrpl, hegr, hheld, hfwd, hrsp, hunack, hcrq, hallowed]
  case exit =>
    intro s port hup
    exact exec_of_run (f := fun m => m.l1Exit port.val) rfl hup rfl
  case snoop =>
    intro s hs te e hup he hst hpend hrun hrole
    exact exec_of_run (f := fun m => m.snpTimeout hs.val te.val) rfl hup (Mach.snpTimeout_of_pending he hst hpend hrun hrole)

end Sys2Proof.Machine
end

section
/-! PROOFS. Far atomics and Crema: the contention counter and the Crema set of a line (`spec/06_atomics.md`,
`spec/09_crema_tamper.md`). -/

namespace Sys2Proof.Machine

-- ===== the counter index and the Crema set of a line (R167, R242) =====

/-- A field of a line key is the field of the offset six bits above it. -/
theorem keyOf_extractLsb' (off : Off) {a n : Nat} (h : a + n ≤ 40) : (keyOf off).extractLsb' a n = off.extractLsb' (6 + a) n :=
  extractLsb'_extractLsb'_add off h

theorem predIdx_keyOf (off : Off) : predIdx (keyOf off) =
    (off.extractLsb' 6 12 ^^^ off.extractLsb' 18 12 ^^^ off.extractLsb' 30 12 ^^^ (off.extractLsb' 42 4).setWidth 12).toNat := by
  simp only [predIdx, keyOf_extractLsb', Nat.reduceAdd, Nat.reduceLeDiff]

theorem crmSet_keyOf (off : Off) : crmSet (keyOf off) =
    (off.extractLsb' 6 10 ^^^ off.extractLsb' 16 10 ^^^ off.extractLsb' 26 10 ^^^ off.extractLsb' 36 10).toNat := by
  simp only [crmSet, keyOf_extractLsb', Nat.reduceAdd, Nat.reduceLeDiff]

/-- The lowest bit of a line key tells the two lines of its sector apart. -/
theorem lineKey_getLsbD_zero (sec : BitVec 39) (line1 : Bool) : (lineKey sec line1).getLsbD 0 = line1 := by
  rw [lineKey, BitVec.getLsbD_append, if_pos Nat.one_pos, BitVec.getLsbD_ofBool, decide_eq_true rfl, Bool.true_and]

/-- Every higher bit of a line key is the sector's. -/
theorem lineKey_getLsbD_of_pos (sec : BitVec 39) (line1 : Bool) {i : Nat} (hi : 0 < i) :
    (lineKey sec line1).getLsbD i = sec.getLsbD (i - 1) := by
  rw [lineKey, BitVec.getLsbD_append, if_neg (by omega)]

theorem predIdx_testBit_zero (k : LineKey) :
    (predIdx k).testBit 0 = (k.getLsbD 0 ^^ k.getLsbD 12 ^^ k.getLsbD 24 ^^ k.getLsbD 36) := by
  simp only [predIdx, BitVec.testBit_toNat, BitVec.getLsbD_xor, BitVec.getLsbD_setWidth, BitVec.getLsbD_extractLsb', Nat.add_zero,
    Nat.ofNat_pos, decide_true, Bool.true_and]

theorem crmSet_testBit_zero (k : LineKey) :
    (crmSet k).testBit 0 = (k.getLsbD 0 ^^ k.getLsbD 10 ^^ k.getLsbD 20 ^^ k.getLsbD 30) := by
  simp only [crmSet, BitVec.testBit_toNat, BitVec.getLsbD_xor, BitVec.getLsbD_extractLsb', Nat.add_zero, Nat.ofNat_pos,
    decide_true, Bool.true_and]

/-- A fold whose lowest bit takes in the lowest bit of the key, beside bits that are the sector's, keeps the two lines of a sector
apart. -/
theorem fold_lineKey_ne_of_testBit_zero {fold : LineKey → Nat} {a b c : Nat} (sec : BitVec 39) (ha : 0 < a) (hb : 0 < b) (hc : 0 < c)
    (hfold : ∀ k, (fold k).testBit 0 = (k.getLsbD 0 ^^ k.getLsbD a ^^ k.getLsbD b ^^ k.getLsbD c)) :
    fold (lineKey sec false) ≠ fold (lineKey sec true) := by
  intro heq
  have hbit := congrArg (Nat.testBit · 0) heq
  simp only [hfold, lineKey_getLsbD_zero, lineKey_getLsbD_of_pos, ha, hb, hc, Bool.xor_left_inj, Bool.false_eq_true] at hbit

/-- Settles O20: a line key is the offset without its low six bits, and the two lines of a sector differ in its lowest bit alone, which
each fold takes in once. -/
theorem linesOfASectorHaveTheirOwnCounters : Obligations.LinesOfASectorHaveTheirOwnCounters :=
  ⟨fun off => ⟨predIdx_keyOf off, crmSet_keyOf off⟩,
    fun sec => ⟨fold_lineKey_ne_of_testBit_zero sec (by decide) (by decide) (by decide) predIdx_testBit_zero,
      fold_lineKey_ne_of_testBit_zero sec (by decide) (by decide) (by decide) crmSet_testBit_zero⟩⟩

end Sys2Proof.Machine
end

section
/-! PROOFS. Carafe queue objects: queue operations whose layout is wrong, and the hand-over of QIDs
(`spec/08_carafe_queue_objects.md`). -/

namespace Sys2Proof.Machine

-- ===== a queue operation of a wrong layout (R210) =====

/-- A request that breaks its layout, from an agent behind its port that is not fenced: the port counts and captures a protocol error
and ends the request (R51). -/
theorem Mach.request_of_badReq (m : Mach) (i : Instr) (r : Req) (hin : m.portIn r.port.val = true)
    (hport : r.port.val < 16 ∨ 24 ≤ r.port.val) (hbehind : behind r.port.val r.agent.toNat = true)
    (hfence : m.agFenced r.agent.toNat = false) (hbad : badReq i r = true) (haddr : hasAddr i = false) :
    m.request i r = (m.protErr r.port.val r.agent r.rqid r.tid r.pa (reqOpc i) 0 (if r.w = .s then 1 else 0)).portCmx
      r.port.val r (isWr i) .proterr 0 := by
  have hmem : (decide (16 ≤ r.port.val) && decide (r.port.val < 24)) = false := by
    rw [← Bool.decide_and, decide_eq_false_iff_not]
    omega
  have hagent : ¬ 24 ≤ r.agent.toNat := by
    simp only [behind, Bool.and_eq_true, decide_eq_true_eq] at hbehind
    omega
  simp [Mach.request, hin, hmem, hbehind, hfence, hbad, haddr, hagent]

/-- The layout of a queue operation is wrong where pa or sz is not zero, where a QENQ8 has an n outside 1 to 8, and where another op has
an n that is not zero (R210). -/
theorem badReq_queueOp_iff {i : Instr} {r : Req} {op : BitVec 4} (hbar : (isBar i || isMcl i) = false)
    (hkind : (tmpl i).kind = .qop op) : badReq i r = true ↔
      (r.pa ≠ 0 ∨ r.sz ≠ 0) ∨ if op = 2 then (tmpl i).qn = 0 ∨ 8 < (tmpl i).qn.toNat else (tmpl i).qn ≠ 0 := by
  have hqop : badReq i r = (r.pa ≠ 0 || r.sz ≠ 0 ||
      (if op = 2 then (tmpl i).qn = 0 || decide (8 < (tmpl i).qn.toNat) else (tmpl i).qn ≠ 0)) := by
    simp only [badReq, hbar, hkind, Bool.false_eq_true, if_false]
  rw [hqop]
  split <;> simp

theorem badReq_of_queueOp {i : Instr} {r : Req} {op n : BitVec 4} (hbar : (isBar i || isMcl i) = false)
    (hkind : (tmpl i).kind = .qop op) (hqn : (tmpl i).qn = n) (hop : op ≠ 2) (hbad : r.pa ≠ 0 ∨ n ≠ 0) : badReq i r = true := by
  rw [badReq_queueOp_iff hbar hkind, if_neg hop, hqn]
  exact hbad.imp_left .inl

theorem badReq_qenq8 {r : Req} {qid : BitVec 20} {n : BitVec 4} (hbad : r.pa ≠ 0 ∨ n.toNat < 1 ∨ 8 < n.toNat) :
    badReq (.qenq8 r qid n) r = true := by
  rw [badReq_queueOp_iff (op := 2) rfl rfl, if_pos rfl]
  exact hbad.imp .inl (Or.imp_left fun hn => BitVec.eq_of_toNat_eq (Nat.lt_one_iff.mp hn))

/-- A queue operation that its port takes for a wrong layout ends there; `wrong` is what its op calls one. -/
theorem exec_badQueueOperation {c : Instr} {r : Req} {s : State} {wrong : Prop}
    (hexec : exec c s = s.run fun m => m.viaYard fun m => m.request c r) (haddr : hasAddr c = false) (hopc : reqOpc c = 10)
    (hlayout : wrong → badReq c r = true) (hup : s.m.up = true) (hyard : s.m.yard = none) (hin : s.m.portIn r.port.val = true)
    (hport : r.port.val < 16 ∨ 24 ≤ r.port.val) (hbehind : behind r.port.val r.agent.toNat = true)
    (hfence : s.m.agFenced r.agent.toNat = false) (hwrong : wrong) :
    exec c s = .next (s.after ((s.m.protErr r.port.val r.agent r.rqid r.tid r.pa 10 0 (if r.w = .s then 1 else 0)).portCmx
      r.port.val r (isWr c) .proterr 0)) :=
  exec_of_request hexec hup hyard (by rw [s.m.request_of_badReq c r hin hport hbehind hfence (hlayout hwrong) haddr, hopc])

/-- Settles O27: once a port hears the agent, a wrong layout ends the request before its tid, its line and the state of the block count;
QENQ8 alone has words that are still to come. -/
theorem queueOperationLayoutErrors : Obligations.QueueOperationLayoutErrors :=
  ⟨fun _ _ _ _ _ => exec_badQueueOperation rfl rfl rfl (badReq_of_queueOp (op := 1) rfl rfl rfl (by decide)),
   fun _ _ _ _ => exec_badQueueOperation rfl rfl rfl badReq_qenq8,
   fun _ _ _ _ => exec_badQueueOperation rfl rfl rfl (badReq_of_queueOp (op := 3) rfl rfl rfl (by decide)),
   fun _ _ _ _ => exec_badQueueOperation rfl rfl rfl (badReq_of_queueOp (op := 4) rfl rfl rfl (by decide)),
   fun _ _ _ _ => exec_badQueueOperation rfl rfl rfl (badReq_of_queueOp (op := 5) rfl rfl rfl (by decide)),
   fun _ _ _ _ => exec_badQueueOperation rfl rfl rfl (badReq_of_queueOp (op := 6) rfl rfl rfl (by decide)),
   fun _ _ _ _ => exec_badQueueOperation rfl rfl rfl (badReq_of_queueOp (op := 7) rfl rfl rfl (by decide))⟩

-- ===== the hand-over of QIDs (R237) =====

/-- Listing a value under one key leaves what is listed under another. -/
theorem SMap.find_put_of_ne {α : Type} {n k : Nat} (hne : k ≠ n) (v : α) : ∀ m : SMap α, SMap.find (SMap.put m n v) k = SMap.find m k
  | [] => by simp [SMap.put, SMap.find, hne]
  | (j, u) :: r => by
    rcases Nat.lt_trichotomy n j with hlt | rfl | hgt
    · have hskip : k < n → k ≠ j ∧ k < j := by omega
      by_cases hk : k < n <;> simp [SMap.put, SMap.find, hlt, hlt.ne, hne, hk, hskip]
    · simp [SMap.put, SMap.find, hne]
    · simp [SMap.put, SMap.find, hgt.ne', hgt.asymm, SMap.find_put_of_ne hne v r]

/-- A key below all that are listed is not listed. -/
theorem SMap.find_eq_none_of_lt {α : Type} {k : Nat} : ∀ m : SMap α, (∀ e ∈ m, k < e.1) → SMap.find m k = none
  | [], _ => rfl
  | (j, u) :: r, hlow => by
    have hj : k < j := hlow (j, u) List.mem_cons_self
    simp [SMap.find, hj, hj.ne]

/-- Removing a key from a table whose keys rise leaves what is listed under another. -/
theorem SMap.find_del_of_ne {α : Type} {n k : Nat} (hne : k ≠ n) :
    ∀ m : SMap α, m.Rising → SMap.find (SMap.del m n) k = SMap.find m k
  | [], _ => rfl
  | (j, u) :: r, hm => by
    obtain ⟨hj, hr⟩ := List.pairwise_cons.mp hm
    rcases Nat.lt_trichotomy n j with hlt | rfl | hgt
    · simp [SMap.del, hlt, hlt.ne]
    · by_cases hk : k < n
      · simp [SMap.del, SMap.find, hne, hk, SMap.find_eq_none_of_lt r fun e he => hk.trans (hj e he)]
      · simp [SMap.del, SMap.find, hne, hk]
    · simp [SMap.del, SMap.find, hgt.ne', hgt.asymm, SMap.find_del_of_ne hne r hr]

/-- Where the addresses of the stored registers rise, a register reads the same after another has been stored. -/
theorem Mach.reg_setReg_of_ne {m : Mach} (hm : m.regs.Rising) {a b : Nat} (hne : b ≠ a) (v : W32) : (m.setReg a v).reg b = m.reg b := by
  simp only [Mach.reg, Mach.setReg, SMap.get, SMap.set]
  split
  · rw [SMap.find_del_of_ne hne m.regs hm]
  · rw [SMap.find_put_of_ne hne v m.regs]

/-- The world of a QID is read from QOB_WCFG alone (R237). -/
theorem Mach.qidSec_congr {m m' : Mach} (hwcfg : m.reg Reg.qobWcfg = m'.reg Reg.qobWcfg) (q : BitVec 20) : m.qidSec q = m'.qidSec q := by
  rw [Mach.qidSec, Mach.fld, hwcfg, Mach.qidSec, Mach.fld]

/-- The hand-over `o` goes on: its current QID has its entry, and QOB_HO_POS shows the QID. -/
def Mach.qhoGoing (m : Mach) (o : QHo) : Mach :=
  ({ m with qho := some { o with going := true } } : Mach).setReg Reg.qobHoPos (BitVec.ofNat 32 o.cur)

/-- Where the addresses of the stored registers rise, HAND_OVER_QID does what the statement says of it. -/
theorem Mach.qhoStep_of_rising {m : Mach} {o : QHo} {t : Nat} (hm : m.regs.Rising) (hqho : m.qho = some o) (hgoing : o.going = false)
    (hserves : m.serving (m.qidHs (BitVec.ofNat 20 o.cur)) = true) (hfree : m.freeOwn (m.qidHs (BitVec.ofNat 20 o.cur)) = some t) :
    m.qhoStep = Mach.fin ((m.qhoGoing o).accepted (m.qidHs (BitVec.ofNat 20 o.cur)) t
      { kind := .qho, key := (BitVec.ofNat 20 o.cur).setWidth 40, sec := m.qidSec (BitVec.ofNat 20 o.cur) }) := by
  have hsec : (m.qhoGoing o).qidSec (BitVec.ofNat 20 o.cur) = m.qidSec (BitVec.ofNat 20 o.cur) :=
    Mach.qidSec_congr (Mach.reg_setReg_of_ne hm (by decide) _) _
  rw [← hsec]
  simp [Mach.qhoStep, Mach.qhoGoing, hqho, hgoing, hserves, hfree]

/-- A hand-over that has reached QID 0. -/
def handingOver : QHo := { cur := 0, first := 0, last := 1024, newFirst := 1 }

/-- The reset state out of POR with that hand-over and HS0 in service, in which QOB_WCFG is stored as 0 and, against the canonical form of
a table, listed after QOB_HO_POS. The other slices are fenced, so that HS0 alone is active. -/
def handOverState : State :=
  { State.reset with m := { State.reset.m with
      up := true
      doms := [(0, .on)]
      qho := some handingOver
      regs := [(Reg.qobHoPos, 1), (Reg.qobWcfg, 0)]
      slices := (0, Slice.fresh 0) ::
        (List.range 33).map fun h => (h + 1, { Slice.fresh (h + 1) with role := .fenced, run := .stopped }) } }

/-- Is the entry 0 of HS0 one of the S world? -/
def entrySec : Out → Bool
  | .next t => (t.m.te 0 0).sec
  | _ => false

/-- Refutes O42: its clause for HAND_OVER_QID takes the world of the QID from the machine before the command, where the model takes it
once QOB_HO_POS is stored. They differ in a state whose register table is not in canonical form: in `handOverState` the stored QOB_WCFG
cannot be read until the position 0, which is the default, has removed QOB_HO_POS before it, so that the entry is one of the S world
and not of NS. In a table whose keys rise the clause holds (`Mach.qhoStep_of_rising`); the statement has no such hypothesis. -/
theorem not_queueCommandsStart : ¬ Obligations.QueueCommandsStart := by
  rintro ⟨-, -, -, -, -, -, -, -, hqid⟩
  have hentry := congrArg entrySec (hqid handOverState handingOver 0 rfl rfl rfl (by decide +kernel) (by decide +kernel))
  exact absurd hentry (by decide +kernel)

end Sys2Proof.Machine
end

section
/-! PROOFS. Register writes that name a command: what a write of a command register does on its way to the control behind the register
(`spec/16_register_convention_global.md`), and the eleven command registers. -/

namespace Sys2Proof.Machine

-- ===== command registers (R411, R415) =====

/-- A command register of the control plane, `wo` its bits: its fields are all WO, so that it stores nothing, and it lies in the first
window of a page beyond the header, apart from the three registers whose value is held elsewhere. -/
structure CommandReg (a : Nat) (wo : W32) : Prop where
  row : ∀ g, regRow g a = some ⟨a % 0x1000, 1, 4, 0, 0, 0, wo, 0⟩
  place : wo ≠ 0#32 ∧ primary a = a ∧ a % 0x1000 / 0x400 = 0 ∧ 0x20 ≤ a % 0x1000 ∧ a < 0x40000 ∧
    a ≠ Reg.recSsadr ∧ a ≠ Reg.recSeek ∧ a ≠ Reg.recWsel

/-- The address of a command register as a write gives it. -/
theorem CommandReg.address {a : Nat} {wo : W32} (hreg : CommandReg a wo) : (BitVec.ofNat 20 a).toNat = a := by
  obtain ⟨-, -, -, -, -, hplane, -⟩ := hreg
  rw [BitVec.toNat_ofNat, Nat.mod_eq_of_lt (hplane.trans (by decide))]

/-- The word that a write of `raw` gives a command register: its WO fields are the ones written. -/
def Mach.cmdWord (m : Mach) (a : Nat) (wo raw : W32) : W32 := (m.reg a &&& ~~~ wo) ||| (raw &&& wo)

theorem Mach.cmdWord_and (m : Mach) (a : Nat) (wo raw : W32) : m.cmdWord a wo raw &&& wo = raw &&& wo := by
  refine BitVec.eq_of_getLsbD_eq fun i hi => ?_
  cases h : wo.getLsbD i <;> simp [Mach.cmdWord, h]

/-- A field all of whose bits are WO is the one written. -/
theorem Mach.cmdWord_field (m : Mach) (a : Nat) {wo : W32} (raw : W32) {lo n : Nat} (hwo : wo.extractLsb' lo n = BitVec.allOnes n) :
    (m.cmdWord a wo raw).extractLsb' lo n = raw.extractLsb' lo n := by
  have hfield := congrArg (BitVec.extractLsb' lo n) (m.cmdWord_and a wo raw)
  rwa [BitVec.extractLsb'_and, BitVec.extractLsb'_and, hwo, BitVec.and_allOnes, BitVec.and_allOnes] at hfield

/-- A WO bit is the one written. -/
theorem Mach.cmdWord_bit (m : Mach) (a : Nat) {wo : W32} (raw : W32) {i : Nat} (hwo : wo.getLsbD i = true) :
    (m.cmdWord a wo raw).getLsbD i = raw.getLsbD i := by
  have hbit := congrArg (BitVec.getLsbD · i) (m.cmdWord_and a wo raw)
  simpa only [BitVec.getLsbD_and, hwo, Bool.and_true] using hbit

/-- A register with a row has a page. -/
theorem pageRows_isNone_of_regRow {g : Integ} {a : Nat} {r : RegRow} (hrow : regRow g a = some r) :
    (pageRows g (a / 0x1000)).isNone = false := by
  cases hpage : pageRows g (a / 0x1000) with
  | none => simp [regRow, hpage] at hrow
  | some rows => rfl

/-- A register without RW fields keeps its value, whatever is written. -/
theorem mergeWrite_zero (ev old raw : W32) : mergeWrite 0 0#32 ev old raw = old := calc
  mergeWrite 0 0#32 ev old raw = (old &&& ~~~ 0#32) ||| (raw &&& 0#32 &&& ~~~ ev) ||| (old &&& raw &&& 0#32 &&& ev) := rfl
  _ = old := by simp only [BitVec.not_zero, BitVec.and_allOnes, BitVec.and_zero, BitVec.zero_and, BitVec.or_zero]

/-- A write of a command register is refused by its world rule, or is the work of SEC_HELDCMD, or takes effect by the word written. -/
theorem State.write_commandReg {a : Nat} {wo : W32} (hreg : CommandReg a wo) (s : State) (w : World) (raw : W32) :
    s.write w a raw =
      if w = .ns && s.m.worldBad a true (s.m.reg a) then { s with m := s.m.refuse w a .world }
      else if a = Reg.secHeldcmd then s.heldCmd w a (raw.extractLsb' 0 2).toNat
      else s.applyFuse w a a (s.m.cmdWord a wo raw) fun _ =>
        { s with m := s.m.applyGlobal w a a raw (s.m.cmdWord a wo raw) (s.m.storeReg w a true 0 0 raw (s.m.reg a)) } := by
  obtain ⟨hrow, hwo, hprim, hwin, hheader, hplane, hssadr, hseek, hwsel⟩ := hreg
  have hpage := pageRows_isNone_of_regRow (hrow s.m.integ)
  have hnoErr : a % 0x1000 ≠ 0x010 := by omega
  have hnoMask : a % 0x1000 ≠ 0x014 := by omega
  have hnoLock : a % 0x1000 ≠ 0x01C := by omega
  simp [State.write, State.writeWith, Mach.cmdWord, hprim, hwin, hpage, hrow, hssadr, hseek, hwsel, mergeWrite_zero, hwo, hnoErr,
    hnoMask, hnoLock, hplane]

/-- What a write request of a command register answers. -/
theorem exec_registerWrite_of_write {a : Nat} {wo : W32} (hreg : CommandReg a wo) {s : State} {w : World} {raw : W32} {f : State → State}
    (hwrite : s.write w a raw = f s) : exec (.registerWrite w (BitVec.ofNat 20 a) raw) s = s.request f := by
  have hexec : exec (.registerWrite w (BitVec.ofNat 20 a) raw) s = s.request fun s => s.write w (BitVec.ofNat 20 a).toNat raw := rfl
  rw [hexec, hreg.address]
  simp only [State.request, State.mgmt, hwrite]

/-- A write of a command register that reaches no fuses is a command where the control behind the register does what the command does, and
refuses an NS write where the world rule does. -/
theorem exec_registerWrite_of_commandReg {a : Nat} {wo : W32} (hreg : CommandReg a wo)
    (hfuse : a ≠ Reg.secHeldcmd ∧ a ≠ Reg.secLccmd ∧ a ≠ Reg.secPatchcmd) {s : State} {w : World} {raw : W32} {f : Mach → Mach}
    (hworld : s.m.worldBad a true (s.m.reg a) = false ∨ (w = .ns → f s.m = s.m.refuse w a .world))
    (hctl : ∀ store, s.m.applyGlobal w a a raw (s.m.cmdWord a wo raw) store = f s.m) :
    exec (.registerWrite w (BitVec.ofNat 20 a) raw) s = s.command f := by
  refine exec_registerWrite_of_write hreg (f := fun s => { s with m := f s.m }) ?_
  obtain ⟨hheld, hlc, hpatch⟩ := hfuse
  rw [s.write_commandReg hreg w raw, if_neg hheld, State.applyFuse, if_neg hlc, if_neg hpatch, hctl]
  split
  case isTrue hbad =>
    obtain ⟨hns, hbad⟩ := (Bool.and_eq_true _ _).mp hbad
    have hrefuses := hworld.resolve_left (by rw [hbad]; exact Bool.false_ne_true.symm)
    rw [hrefuses (of_decide_eq_true hns)]
  case isFalse => rfl

/-- NS uses the SEC page in BLANK alone. -/
theorem Mach.worldBad_secHeldcmd (m : Mach) (v : W32) : m.worldBad Reg.secHeldcmd true v = decide (m.lcState ≠ 0) :=
  Bool.and_true _

/-- SEC_LCCMD judges the world itself. -/
theorem Mach.worldBad_secLccmd (m : Mach) (v : W32) : m.worldBad Reg.secLccmd true v = false := Bool.and_false _

-- ===== the command registers =====

section
variable (s : State) (w : World) (raw : W32)

/-- REC_CMD (R345, R350, R357, R358, R361). -/
theorem exec_write_recCmd : exec (.registerWrite w (BitVec.ofNat 20 Reg.recCmd) raw) s =
    s.command fun m => m.recCmd w Reg.recCmd (raw.extractLsb' 0 4).toNat (BitVec.ofNat 8 (raw.extractLsb' 8 8).toNat) :=
  exec_registerWrite_of_commandReg (wo := 0xFF0F) ⟨fun _ => rfl, by decide⟩ (by decide) (.inl rfl) fun store => by
    change s.m.recCmd w Reg.recCmd _ _ = _
    simp (disch := decide) only [Mach.cmdWord_field]

/-- QOB_CMD (R228). -/
theorem exec_write_qobCmd : exec (.registerWrite w (BitVec.ofNat 20 Reg.qobCmd) raw) s =
    s.command fun m => m.queueCmd w Reg.qobCmd (BitVec.ofNat 4 (raw.extractLsb' 0 3).toNat) :=
  exec_registerWrite_of_commandReg (wo := 0x7) ⟨fun _ => rfl, by decide⟩ (by decide) (.inl rfl) fun store => by
    change s.m.queueCmd w Reg.qobCmd _ = _
    simp (disch := decide) only [Mach.cmdWord_field]

/-- TMP_CMD (R260, R265). -/
theorem exec_write_tmpCmd : exec (.registerWrite w (BitVec.ofNat 20 Reg.tmpCmd) raw) s =
    s.command fun m => m.tamper w Reg.tmpCmd (BitVec.ofNat 4 (raw.extractLsb' 0 4).toNat) (raw.getLsbD 15) (raw.getLsbD 14)
      (raw.extractLsb' 8 6).toNat :=
  exec_registerWrite_of_commandReg (wo := 0xFF0F) ⟨fun _ => rfl, by decide⟩ (by decide) (.inl rfl) fun store => by
    change s.m.tamper w Reg.tmpCmd _ _ _ _ = _
    simp (disch := decide) only [Mach.cmdWord_field, Mach.cmdWord_bit]

/-- CRM_LKCMD (R252). -/
theorem exec_write_crmLkcmd : exec (.registerWrite w (BitVec.ofNat 20 Reg.crmLkcmd) raw) s =
    s.command fun m => m.lockCmd w Reg.crmLkcmd (raw.extractLsb' 0 2).toNat (raw.extractLsb' 8 6).toNat :=
  exec_registerWrite_of_commandReg (wo := 0x3F03) ⟨fun _ => rfl, by decide⟩ (by decide) (.inl rfl) fun store => by
    change s.m.lockCmd w Reg.crmLkcmd _ _ = _
    simp (disch := decide) only [Mach.cmdWord_field]

/-- RVP_RHCMD (R339), which the world rule refuses to NS as the command does. -/
theorem exec_write_rvpRhcmd : exec (.registerWrite w (BitVec.ofNat 20 Reg.rvpRhcmd) raw) s =
    s.command fun m => m.rehomeWrite w Reg.rvpRhcmd (raw.getLsbD 31) (raw.extractLsb' 0 6).toNat :=
  exec_registerWrite_of_commandReg (wo := 0x8000003F) ⟨fun _ => rfl, by decide⟩ (by decide)
    (.inr fun hns => by rw [hns, Mach.rehomeWrite_ns]) fun store => by
    change s.m.rehomeWrite w Reg.rvpRhcmd _ _ = _
    simp (disch := decide) only [Mach.cmdWord_field, Mach.cmdWord_bit]

/-- PWR_DOMCMD (R365). -/
theorem exec_write_pwrDomcmd : exec (.registerWrite w (BitVec.ofNat 20 Reg.pwrDomcmd) raw) s =
    s.command fun m => m.domWrite w Reg.pwrDomcmd raw :=
  exec_registerWrite_of_commandReg (wo := 0x3FF) ⟨fun _ => rfl, by decide⟩ (by decide) (.inl rfl) fun store => by
    change s.m.domWrite w Reg.pwrDomcmd _ = _
    simp (disch := decide) only [Mach.domWrite, Mach.cmdWord_field]

/-- RST_CMD (R376, R377). -/
theorem exec_write_rstCmd : exec (.registerWrite w (BitVec.ofNat 20 Reg.rstCmd) raw) s =
    s.command fun m => m.resetCmd w Reg.rstCmd raw raw :=
  exec_registerWrite_of_commandReg (wo := 0x3F3F) ⟨fun _ => rfl, by decide⟩ (by decide) (.inl rfl) fun store => by
    change s.m.resetCmd w Reg.rstCmd raw _ = _
    simp (disch := decide) only [Mach.resetCmd, Mach.cmdWord_field]

/-- TST_LBCMD (R387). -/
theorem exec_write_tstLbcmd (hstart : raw.getLsbD 0 = true) :
    exec (.registerWrite w (BitVec.ofNat 20 Reg.tstLbcmd) raw) s = s.command fun m => m.lbStart w :=
  exec_registerWrite_of_commandReg (wo := 0x1) ⟨fun _ => rfl, by decide⟩ (by decide) (.inl rfl) fun store =>
    if_pos ((s.m.cmdWord_bit Reg.tstLbcmd raw (by decide)).trans hstart)

/-- FLT_RELEASE (R321). -/
theorem exec_write_fltRelease : exec (.registerWrite w (BitVec.ofNat 20 Reg.fltRelease) raw) s =
    s.command fun m => m.releaseWrite w Reg.fltRelease raw :=
  exec_registerWrite_of_commandReg (wo := 0x7F01) ⟨fun _ => rfl, by decide⟩ (by decide) (.inl rfl) fun store => by
    change s.m.releaseWrite w Reg.fltRelease _ = _
    simp (disch := decide) only [Mach.releaseWrite, Mach.cmdWord_field, Mach.cmdWord_bit]

/-- SEC_HELDCMD (R400), which the world rule refuses to NS outside BLANK as the command does. -/
theorem exec_write_secHeldcmd : exec (.registerWrite w (BitVec.ofNat 20 Reg.secHeldcmd) raw) s =
    s.request fun s => s.heldCmd w Reg.secHeldcmd (raw.extractLsb' 0 2).toNat := by
  have hreg : CommandReg Reg.secHeldcmd 0x3 := ⟨fun _ => rfl, by decide⟩
  refine exec_registerWrite_of_write hreg (f := fun s => s.heldCmd w Reg.secHeldcmd (raw.extractLsb' 0 2).toNat) ?_
  rw [s.write_commandReg hreg w raw, if_pos rfl]
  split
  case isTrue hbad =>
    rw [Mach.worldBad_secHeldcmd] at hbad
    rw [State.heldCmd, if_pos hbad]
  case isFalse => rfl

/-- SEC_LCCMD (R402): the target alone is read. -/
theorem exec_write_secLccmd : exec (.registerWrite w (BitVec.ofNat 20 Reg.secLccmd) raw) s =
    s.request fun s => s.applyFuse w Reg.secLccmd Reg.secLccmd raw fun _ => s := by
  have hreg : CommandReg Reg.secLccmd 0x7 := ⟨fun _ => rfl, by decide⟩
  refine exec_registerWrite_of_write hreg (f := fun s => s.applyFuse w Reg.secLccmd Reg.secLccmd raw fun _ => s) ?_
  rw [s.write_commandReg hreg w raw, Mach.worldBad_secLccmd, Bool.and_false, if_neg Bool.false_ne_true, if_neg (by decide)]
  simp (disch := decide) only [State.applyFuse, if_true, Mach.cmdWord_field]

end

-- ===== words that give a command its operand =====

/-- The field of a word between its upper and its lower bits. -/
theorem extractLsb'_middle {k n l : Nat} (hi : BitVec k) (f : BitVec n) (lo : BitVec l) : (hi ++ f ++ lo).extractLsb' l n = f := by
  rw [BitVec.extractLsb'_append_eq_of_le le_rfl, Nat.sub_self, BitVec.extractLsb'_append_eq_right]

section
variable (s : State) (w : World)

theorem exec_write_recCmd_sets (sets op : BitVec 8) :
    exec (.registerWrite w (BitVec.ofNat 20 Reg.recCmd) ((0 : BitVec 16) ++ sets ++ op)) s =
      s.command fun m => m.recCmd w Reg.recCmd (op.extractLsb' 0 4).toNat sets := by
  have hop : ((0 : BitVec 16) ++ sets ++ op : W32).extractLsb' 0 4 = op.extractLsb' 0 4 :=
    BitVec.extractLsb'_append_eq_of_add_le (by decide)
  have hsets : ((0 : BitVec 16) ++ sets ++ op : W32).extractLsb' 8 8 = sets := extractLsb'_middle 0 sets op
  rw [exec_write_recCmd, hop, hsets, BitVec.ofNat_toNat, BitVec.setWidth_eq]

theorem exec_write_crmLkcmd_size (n : BitVec 6) (op : BitVec 8) :
    exec (.registerWrite w (BitVec.ofNat 20 Reg.crmLkcmd) ((0 : BitVec 18) ++ n ++ op)) s =
      s.command fun m => m.lockCmd w Reg.crmLkcmd (op.extractLsb' 0 2).toNat n.toNat := by
  have hop : ((0 : BitVec 18) ++ n ++ op : W32).extractLsb' 0 2 = op.extractLsb' 0 2 :=
    BitVec.extractLsb'_append_eq_of_add_le (by decide)
  have hsize : ((0 : BitVec 18) ++ n ++ op : W32).extractLsb' 8 6 = n := extractLsb'_middle 0 n op
  rw [exec_write_crmLkcmd, hop, hsize]

theorem exec_write_rvpRhcmd_slice (n : BitVec 6) :
    exec (.registerWrite w (BitVec.ofNat 20 Reg.rvpRhcmd) ((1 : BitVec 1) ++ (0 : BitVec 25) ++ n)) s =
      s.command fun m => m.rehomeWrite w Reg.rvpRhcmd true n.toNat := by
  have hgo : ((1 : BitVec 1) ++ (0 : BitVec 25) ++ n : W32).getLsbD 31 = true := BitVec.getLsbD_append.trans rfl
  have hslice : ((1 : BitVec 1) ++ (0 : BitVec 25) ++ n : W32).extractLsb' 0 6 = n := BitVec.extractLsb'_append_eq_right
  rw [exec_write_rvpRhcmd, hgo, hslice]

theorem exec_write_pwrDomcmd_dom (op : BitVec 24) (d : BitVec 8) (on : Bool) (hop : op.extractLsb' 0 2 = if on then 1 else 2) :
    exec (.registerWrite w (BitVec.ofNat 20 Reg.pwrDomcmd) (op ++ d)) s =
      s.command fun m => m.domCommand w Reg.pwrDomcmd d.toNat on := by
  have hword : (op ++ d : W32).extractLsb' 8 2 = op.extractLsb' 0 2 := BitVec.extractLsb'_append_eq_of_le le_rfl
  have hdom : (op ++ d : W32).extractLsb' 0 8 = d := BitVec.extractLsb'_append_eq_right
  rw [exec_write_pwrDomcmd]
  simp only [Mach.domWrite, hword, hdom, hop]
  cases on <;> rfl

end

/-- Settles O23: each command register hands the fields written to one control, and so does each command. -/
theorem commandRegisterWritesAreTheCommands : Obligations.CommandRegisterWritesAreTheCommands := by
  intro s w
  exact ⟨⟨exec_write_recCmd s w 1, exec_write_recCmd s w 2, exec_write_recCmd s w 3, exec_write_recCmd s w 4, exec_write_recCmd s w 5,
      exec_write_recCmd s w 6, exec_write_recCmd s w 7, exec_write_recCmd s w 8, exec_write_recCmd s w 9,
      fun sets => exec_write_recCmd_sets s w sets 0xA⟩,
    ⟨exec_write_qobCmd s w 1, exec_write_qobCmd s w 2, exec_write_qobCmd s w 3, exec_write_qobCmd s w 4, exec_write_qobCmd s w 5⟩,
    exec_write_tmpCmd s w 15,
    fun n => ⟨exec_write_crmLkcmd_size s w n 1, exec_write_crmLkcmd_size s w n 2, exec_write_rvpRhcmd_slice s w n⟩,
    fun d => ⟨exec_write_pwrDomcmd_dom s w 1 d true rfl, exec_write_pwrDomcmd_dom s w 2 d false rfl⟩,
    exec_write_rstCmd s w 1, exec_write_tstLbcmd s w 1 rfl, exec_write_fltRelease s w 1,
    ⟨exec_write_secHeldcmd s w 1, exec_write_secHeldcmd s w 2⟩,
    exec_write_secLccmd s w 1, exec_write_secLccmd s w 2, exec_write_secLccmd s w 3, exec_write_secLccmd s w 4,
    exec_write_secLccmd s w 7⟩

end Sys2Proof.Machine
end

section
/-! PROOFS. Tamper and Crema: the commands that start an operation, the controls of Crema, and its lock ways
(`spec/09_crema_tamper.md`). -/

namespace Sys2Proof.Machine

-- ===== TMP_CMD (R260 to R262, R265) =====

/-- The operation that a Tamper command asks for. -/
def Mach.tmpAsked (m : Mach) (w : World) (op : BitVec 4) (all il : Bool) (s : Nat) : TmpOp :=
  { op, base := m.offPa (m.pair Reg.tmpBaseLo Reg.tmpBaseHi).toNat, log2 := s, il, all, owner := if w = .s then .s else .ns }

/-- Does R261 let an INVCRM with il pass: is there no resident queue in its range? -/
def Mach.NoQueueIn (m : Mach) (all il : Bool) (s : Nat) : Prop :=
  il = false ∨ ¬ (all = true ∨ 12 ≤ s ∧ s ≤ 46) ∨
    m.queueIn (if all then m.hbase else (m.pair Reg.tmpBaseLo Reg.tmpBaseHi).toNat) (if all then m.hlog2 else s) = false

/-- A command for one of the five operations starts it where none of R261's refusals applies. -/
theorem Mach.tamper_of_allowed {m : Mach} {w : World} {x s : Nat} {op : BitVec 4} {all il : Bool} (hop : 1 ≤ op.toNat ∧ op.toNat ≤ 5)
    (hworld : w = .s ∨ op ≠ 3 ∧ op ≠ 5) (htmp : m.tmp = none) (hqueue : op = 1 → m.NoQueueIn all il s)
    (hrange : m.tmpBad op all il (m.pair Reg.tmpBaseLo Reg.tmpBaseHi).toNat s = false) :
    m.tamper w x op all il s = m.tmpStart (m.tmpAsked w op all il s) := by
  simp only [Mach.tamper]
  rw [if_neg ?abort, if_neg ?listed, if_neg ?sOnly, if_neg ?busy, if_neg ?queue, if_neg ?range]
  case abort =>
    rintro rfl
    exact absurd hop (by decide)
  case listed =>
    simp only [Bool.or_eq_true, decide_eq_true_eq, not_or]
    exact ⟨by rintro rfl; exact absurd hop (by decide), by omega⟩
  case sOnly =>
    simp only [Bool.and_eq_true, Bool.or_eq_true, decide_eq_true_eq]
    rintro ⟨rfl, h35⟩
    obtain ⟨h3, h5⟩ := hworld.resolve_left (by decide)
    exact h35.elim h3 h5
  case busy => simp only [htmp, Option.isSome_none, Bool.false_eq_true, not_false_eq_true]
  case queue =>
    simp only [Bool.and_eq_true, Bool.or_eq_true, decide_eq_true_eq]
    rintro ⟨⟨⟨hil, h1⟩, hsize⟩, hin⟩
    rcases hqueue h1 with hno | hnone | hnone
    · exact Bool.false_ne_true (hno.symm.trans hil)
    · exact hnone hsize
    · exact Bool.false_ne_true (hnone.symm.trans hin)
  case range => simp only [hrange, Bool.false_eq_true, not_false_eq_true]
  rfl

/-- An operation other than INVRC begins and does no more. -/
theorem Mach.tamper_begins {m : Mach} {w : World} {x s : Nat} {op : BitVec 4} {all il : Bool} (hop : 1 ≤ op.toNat ∧ op.toNat ≤ 5)
    (hinvrc : op ≠ 3) (hworld : w = .s ∨ op ≠ 3 ∧ op ≠ 5) (htmp : m.tmp = none) (hqueue : op = 1 → m.NoQueueIn all il s)
    (hrange : m.tmpBad op all il (m.pair Reg.tmpBaseLo Reg.tmpBaseHi).toNat s = false) :
    m.tamper w x op all il s = m.tmpBegin (m.tmpAsked w op all il s) :=
  (Mach.tamper_of_allowed hop hworld htmp hqueue hrange).trans (if_neg hinvrc)

/-- INVRC shows the start of its range, takes the entries of the range out of the region caches and marks the walks in flight. -/
theorem Mach.tmpStart_invrc (m : Mach) {o : TmpOp} (hop : o.op = 3) :
    m.tmpStart o =
      ((m.tmpBegin o).setPair Reg.tmpPosLo Reg.tmpPosHi
        (BitVec.ofNat 64 ((m.tmpBegin o).hbase + ((m.tmpBegin o).tmpRange o).1))).rcInvalidate
          ((m.tmpBegin o).tmpRange o).1 ((m.tmpBegin o).tmpRange o).2 o.all true := if_pos hop

/-- ABORT stops an operation of software at its position (R265). -/
theorem Mach.tamper_abort {m : Mach} {o : TmpOp} (w : World) (x : Nat) (htmp : m.tmp = some o) (howner : o.owner ≠ .device) :
    m.tamper w x 15 false false 0 = ({ m with tmp := some { o with abort := true } } : Mach).tmpCheck := by
  simp [Mach.tamper, htmp, howner]

/-- Settles O43: each of the five commands passes the refusals of R261 one by one; INVRC alone does its work at its start. -/
theorem tamperCommandsStart : Obligations.TamperCommandsStart := by
  refine ⟨?invcrm, ?flushqw, ?invrc, ?zero, ?scrubsp, ?abort, ?ack⟩
  case invcrm =>
    intro s w all il sizeLog2 hup htmp hrange hqueue
    exact exec_of_command rfl hup (Mach.tamper_begins (by decide) (by decide) (.inr (by decide)) htmp (fun _ => hqueue) hrange)
  case flushqw =>
    intro s w all il sizeLog2 hup htmp hrange
    exact exec_of_command rfl hup (Mach.tamper_begins (by decide) (by decide) (.inr (by decide)) htmp (absurd · (by decide)) hrange)
  case invrc =>
    intro s all il sizeLog2 hup htmp hrange
    exact exec_of_command rfl hup
      ((Mach.tamper_of_allowed (by decide) (.inl rfl) htmp (absurd · (by decide)) hrange).trans (Mach.tmpStart_invrc _ rfl))
  case zero =>
    intro s w all il sizeLog2 hup htmp hrange
    exact exec_of_command rfl hup (Mach.tamper_begins (by decide) (by decide) (.inr (by decide)) htmp (absurd · (by decide)) hrange)
  case scrubsp =>
    intro s all il sizeLog2 hup htmp hrange
    exact exec_of_command rfl hup (Mach.tamper_begins (by decide) (by decide) (.inl rfl) htmp (absurd · (by decide)) hrange)
  case abort =>
    intro s w o hup htmp howner
    exact exec_of_command rfl hup (Mach.tamper_abort w _ htmp howner)
  case ack =>
    intro s w data hup
    exact exec_of_command rfl hup rfl

-- ===== CRM_CTL (R256 to R259) =====

/-- CRM_CTL stores en, and pf_en, whose clearing drops what the prefetcher holds (R256). -/
def Mach.crmCtlSet (m : Mach) (en : Bool) (v : W32) : Mach :=
  let m := m.setFld Reg.crmCtl 0 1 (if en then 1 else 0)
  if v.getLsbD 2 then m.setBits Reg.crmCtl 4 else m.pfOff

/-- An operation that began with Crema off sees it on, and so does not end the staleness any more (R258). -/
def Mach.tmpSeesCrmOn (m : Mach) : Mach := { m with tmp := m.tmp.map fun (o : TmpOp) => { o with enOff := false } }

/-- The S world forces a stale Crema on (R259). -/
def Mach.crmForced (m : Mach) : Mach := ((m.clrBits Reg.crmStat 1).setBits Reg.crmStat 4).recordV 8 true (payload 8 [1] 8) 1

section
variable (m : Mach) (w : World) (x : Nat) {v : W32}

theorem Mach.crmCtl_off (hen : v.getLsbD 0 = false) : m.crmCtl w x v = m.crmCtlSet false v := by
  simp only [Mach.crmCtl, Mach.crmCtlSet, hen, Bool.false_and, Bool.false_eq_true, if_false]

theorem Mach.crmCtl_on (hen : v.getLsbD 0 = true) (hstale : m.bit Reg.crmStat 0 = false) :
    m.crmCtl w x v = m.tmpSeesCrmOn.crmCtlSet true v := by
  simp only [Mach.crmCtl, Mach.crmCtlSet, Mach.tmpSeesCrmOn, hen, hstale, Bool.and_false, Bool.false_and, Bool.false_eq_true, if_false,
    if_true]

theorem Mach.crmCtl_forced (hen : v.getLsbD 0 = true) (hstale : m.bit Reg.crmStat 0 = true) (hforce : v.getLsbD 1 = true) :
    m.crmCtl .s x v = m.crmForced.tmpSeesCrmOn.crmCtlSet true v := by
  simp [Mach.crmCtl, Mach.crmCtlSet, Mach.tmpSeesCrmOn, Mach.crmForced, hen, hstale, hforce]

end

-- ===== the prefetch queue (R255) =====

/-- A queued prefetch that may go: its region is cached and permits it, Crema and the prefetcher are on and do not hold the line, the line
is free, and its port takes a read at once. -/
structure Mach.PfGoes (m : Mach) (h : Nat) (q : Pf) (a : BitVec 16) : Prop where
  region : m.rcFind h (BitVec.ofInt 46 q.off) = some a
  permits : atPf a = true ∧ atAlloc a = true ∧ m.crmClass (BitVec.ofInt 46 q.off) a = true ∧ atSec a = q.sec
  misses : m.crmWay h (keyOf (BitVec.ofInt 46 q.off)) = none
  on : m.bit Reg.crmCtl 0 = true ∧ m.bit Reg.crmCtl 2 = true
  lineFree : (m.slice h).held ((0 : BitVec 1) ++ keyOf (BitVec.ofInt 46 q.off)) = false ∧
    (m.slice h).waited ((0 : BitVec 1) ++ keyOf (BitVec.ofInt 46 q.off)) = false
  room : 8 < (m.slice h).rbFree
  portFree : (m.port (atPort a)).egr = [] ∧ (m.port (atPort a)).peer.getD 6 0 ≠ 0 ∧ m.portDown (atPort a) = false

/-- A head of the queue that may go is sent, and nothing behind it is looked at. -/
theorem Mach.pfIssue_of_head {m : Mach} {h : Nat} {q : Pf} {rest : List Pf} {a : BitVec 16} (hq : (m.slice h).pfq = q :: rest)
    (hgoes : m.PfGoes h q a) :
    m.pfIssue h = ((m.modS h fun v => { v with pfq := v.pfq.erase q }).bump h Reg.hscPfiss).askRead h (.prefetch a) (atPort a)
      (BitVec.ofInt 46 q.off) := by
  obtain ⟨hregion, ⟨hpf, halloc, hclass, hsec⟩, hmisses, ⟨hcrm, hpfEn⟩, ⟨hheld, hwaited⟩, hroom, hegr, hpeer, hdown⟩ := hgoes
  simp only [Mach.pfIssue, hq, List.foldl_cons, hregion]
  simp only [hpf, halloc, hclass, hsec, hmisses, hcrm, hpfEn, hheld, hwaited, hegr, hpeer, hdown, hroom.not_ge, bne_self_eq_false,
    Option.isSome_none, Bool.and_self, Bool.not_true, Bool.or_self, ne_eq, not_true_eq_false, decide_false, Bool.false_eq_true, if_false]
  exact congrArg Prod.fst (List.foldl_fixed' (fun _ => rfl) rest)

theorem Mach.pfExpire_cons {m : Mach} {h : Nat} {q : Pf} {rest : List Pf} (hq : (m.slice h).pfq = q :: rest) :
    m.pfExpire h = (m.modS h fun v => { v with pfq := rest }).bump h Reg.hscPfdrop := by
  simp only [Mach.pfExpire, hq]

-- ===== the controls of Crema, settled =====

/-- Settles O45: CRM_DISABLE, CRM_ENABLE and PF_DISABLE are one write of CRM_CTL, told apart by what it writes. -/
theorem cremaControls : Obligations.CremaControls := by
  refine ⟨?_, ?_, ?_, ?_, ?_, ?_, ?_, ?_, ?_, ?wayDisable, ?prefetchIssue, ?prefetchExpiry⟩
  -- en = 0
  iterate 3 exact fun s w _ hup hen => exec_of_command rfl hup (s.m.crmCtl_off w _ hen)
  -- en = 1 while Crema is not stale
  iterate 3 exact fun s w _ hup hen hstale => exec_of_command rfl hup (s.m.crmCtl_on w _ hen hstale)
  -- en = 1 with force while Crema is stale
  iterate 3 exact fun s _ hup hen hstale hforce => exec_of_command rfl hup (s.m.crmCtl_forced _ hen hstale hforce)
  case wayDisable => exact fun _ _ _ _ hup => exec_of_command rfl hup rfl
  case prefetchIssue =>
    intro s hs q rest a hup hq hregion hpf halloc hclass hsec hmisses hcrm hpfEn hheld hwaited hroom hegr hpeer hdown
    exact exec_of_run (f := fun m => m.pfIssue hs.val) rfl hup (Mach.pfIssue_of_head hq
      ⟨hregion, ⟨hpf, halloc, hclass, hsec⟩, hmisses, ⟨hcrm, hpfEn⟩, ⟨hheld, hwaited⟩, hroom, hegr, hpeer, hdown⟩)
  case prefetchExpiry => exact fun s hs q rest hup hq => exec_of_run (f := fun m => m.pfExpire hs.val) rfl hup (Mach.pfExpire_cons hq)

-- ===== lock commands (R252) =====

/-- The counts, the percentage and the position of the lock engine return to zero, and its result to OK. -/
def Mach.lkCleared (m : Mach) : Mach :=
  ((((m.setFld Reg.crmLkstat 0 4 0).setReg Reg.crmLkfail 0).setReg Reg.crmLkskip 0).setReg Reg.crmLkPct 0).setPair
    Reg.crmLkPosLo Reg.crmLkPosHi 0

/-- The lock command that is asked for. -/
def Mach.lkAsked (m : Mach) (w : World) (op s : Nat) : LkCmd :=
  { lock := decide (op = 1), base := m.lkCleared.offPa (m.pair Reg.crmLkbaseLo Reg.crmLkbaseHi).toNat, log2 := s, sec := decide (w = .s) }

/-- LOCK, op 1, and UNLOCK, op 2, start where the engine is free and the range is one that R252 permits, LOCK while Crema is on. -/
theorem Mach.lockCmd_of_allowed {m : Mach} {w : World} {x op s : Nat} (hop : op = 1 ∨ op = 2) (hlk : m.lk = none)
    (hwipe : m.wiping = false) (hmin : 12 ≤ s) (hmax : s ≤ 34) (hrange : m.rangeOk (m.pair Reg.crmLkbaseLo Reg.crmLkbaseHi).toNat s = true)
    (hcrm : op = 1 → m.bit Reg.crmCtl 0 = true) :
    m.lockCmd w x op s = { m.lkCleared with lk := some (m.lkAsked w op s) } := by
  simp only [Mach.lockCmd]
  rw [if_neg ?listed, if_neg ?busy, if_neg ?off, if_neg ?range]
  case listed => simp only [Bool.and_eq_true, decide_eq_true_eq]; omega
  case busy => simp only [hlk, hwipe, Option.isSome_none, Bool.or_self, Bool.false_eq_true, not_false_eq_true]
  case off =>
    simp only [Bool.and_eq_true, decide_eq_true_eq]
    rintro ⟨h1, hoff⟩
    simp [hcrm h1] at hoff
  case range => simp [hmin, hmax, hrange]
  rfl

/-- The engine sends its next line: the line is counted as sent and in work, CRM_LK_POS shows it and CRM_LK_PCT how far it is. -/
def Mach.lkSends (m : Mach) (k : LkCmd) : Mach :=
  (({ m with lk := some { k with sent := k.sent + 1, busy := k.busy + 1 } } : Mach).setPair Reg.crmLkPosLo Reg.crmLkPosHi
    (BitVec.ofNat 64 (m.hbase + (k.base + BitVec.ofNat 46 (k.sent * 64)).toNat))).setReg Reg.crmLkPct
    (BitVec.ofNat 32 (min 9999 ((k.sent + 1) * 64 * 10000 / 2 ^ k.log2)))

/-- The next line of the running command enters its home slice where that has an entry for it. -/
theorem Mach.lkNext_of_own {m : Mach} {k : LkCmd} {lock : Bool} {h t : Nat} (hlk : m.lk = some k) (hlock : k.lock = lock)
    (hleft : k.sent * 64 < 2 ^ k.log2)
    (hown : m.ownLine (k.base + BitVec.ofNat 46 (k.sent * 64)) = some (h, t)) :
    m.lkNext lock = Mach.fin ((m.lkSends k).accepted h t
      { kind := if lock then .lock else .unlock, key := keyOf (k.base + BitVec.ofNat 46 (k.sent * 64)), sec := k.sec }) := by
  have hsame : (k.lock != lock) = false := by rw [hlock, bne_self_eq_false]
  simp only [Mach.lkNext, hlk, hsame, hleft.not_ge, decide_false, Bool.or_self, Bool.false_eq_true, if_false, hown]
  rfl

-- ===== the hand-over of lock ways (R251) =====

/-- The S world changes the number of its ways to another that R251 permits. -/
theorem Mach.lockWays_of_allowed {m : Mach} (x : Nat) {n : Nat} (hnew : n ≠ m.fld Reg.crmLkcfg 0 3) (hwipe : m.wiping = false)
    (hmax : n ≤ 6) : m.lockWays .s x n = m.wipeStart n := by
  simp [Mach.lockWays, Mach.sOnly, hnew, hwipe, hmax.not_gt]

/-- Settles O46: LOCK and UNLOCK are one command register and one engine, told apart by the operation. -/
theorem cremaLocks : Obligations.CremaLocks := by
  refine ⟨?lock, ?unlock, ?lockLine, ?unlockLine, ?handover, ?wipeSet⟩
  case lock =>
    intro s w sizeLog2 hup hlk hwipe hmin hmax hrange hcrm
    exact exec_of_command rfl hup (Mach.lockCmd_of_allowed (.inl rfl) hlk hwipe hmin hmax hrange fun _ => hcrm)
  case unlock =>
    intro s w sizeLog2 hup hlk hwipe hmin hmax hrange
    exact exec_of_command rfl hup (Mach.lockCmd_of_allowed (.inr rfl) hlk hwipe hmin hmax hrange (absurd · (by decide)))
  case lockLine =>
    intro s k h t hup hlk hlock hleft hown
    exact exec_of_run (f := fun m => m.lkNext true) rfl hup (Mach.lkNext_of_own hlk hlock hleft hown)
  case unlockLine =>
    intro s k h t hup hlk hlock hleft hown
    exact exec_of_run (f := fun m => m.lkNext false) rfl hup (Mach.lkNext_of_own hlk hlock hleft hown)
  case handover =>
    intro s sWays hup hnew hwipe hmax
    exact exec_of_command rfl hup (Mach.lockWays_of_allowed _ hnew hwipe hmax)
  case wipeSet =>
    intro s hs x ways hup hwipe
    exact exec_of_run (f := fun m => m.wipeSet hs.val) rfl hup (by simp only [Mach.wipeSet, hwipe])

end Sys2Proof.Machine
end

section
/-! PROOFS. The control writes that store registers alone, and what of the block depends on a register that is stored
(`spec/16_register_convention_global.md`, `spec/17_register_slice_port.md`). -/

namespace Sys2Proof.Machine

-- ===== sparse tables whose keys rise =====

theorem SMap.del_sublist {α : Type} (n : Nat) : ∀ m : SMap α, (SMap.del m n).Sublist m
  | [] => .slnil
  | (k, u) :: r => by
    simp only [SMap.del]
    split
    · exact List.sublist_cons_self _ _
    · split
      · exact List.Sublist.refl _
      · exact (SMap.del_sublist n r).cons_cons _

/-- Writing a table lists no key but the one written. -/
theorem SMap.mem_put {α : Type} {n : Nat} {v : α} {e : Nat × α} : ∀ m : SMap α, e ∈ SMap.put m n v → e = (n, v) ∨ e ∈ m
  | [], he => .inl (List.mem_singleton.mp he)
  | (k, u) :: r, he => by
    simp only [SMap.put] at he
    split at he
    · exact (List.mem_cons.mp he).imp_right (List.mem_cons_of_mem _)
    · split at he
      · exact List.mem_cons.mp he
      · rcases List.mem_cons.mp he with rfl | hr
        · exact .inr List.mem_cons_self
        · exact (SMap.mem_put r hr).imp_right (List.mem_cons_of_mem _)

/-- The keys of a table still rise after a write. -/
theorem SMap.Rising.put {α : Type} (n : Nat) (v : α) : ∀ {m : SMap α}, m.Rising → (SMap.put m n v).Rising
  | [], _ => List.pairwise_singleton _ _
  | (k, u) :: r, hm => by
    obtain ⟨hk, hr⟩ := List.pairwise_cons.mp hm
    simp only [SMap.put]
    split
    case isTrue heq => exact List.pairwise_cons.mpr ⟨fun e he => heq ▸ hk e he, hr⟩
    case isFalse hne =>
      split
      case isTrue hlt =>
        refine List.pairwise_cons.mpr ⟨fun e he => ?_, hm⟩
        rcases List.mem_cons.mp he with rfl | he
        · exact hlt
        · exact hlt.trans (hk e he)
      case isFalse hge =>
        refine List.pairwise_cons.mpr ⟨fun e he => ?_, SMap.Rising.put n v hr⟩
        rcases SMap.mem_put r he with rfl | he
        · exact lt_of_le_of_ne (not_lt.mp hge) (Ne.symm hne)
        · exact hk e he

theorem SMap.Rising.set {α : Type} [DecidableEq α] {m : SMap α} (hm : m.Rising) (d : α) (n : Nat) (v : α) : (m.set d n v).Rising := by
  rw [SMap.set]
  split
  · exact hm.sublist (SMap.del_sublist n m)
  · exact hm.put n v

-- ===== what stored registers leave as it was =====

/-- `m'` is `m` with registers stored, HS_SFCTL of no slice among them: that register holds the filling at which a bank that was
switched OFF automatically is woken (R110). -/
inductive Mach.Stores (m : Mach) : Mach → Prop
  | refl : m.Stores m
  | set {m' : Mach} (a : Nat) (v : W32) (hstores : m.Stores m') (ha : ∀ h < 34, a ≠ hsA h Reg.hsSfctl) : m.Stores (m'.setReg a v)

theorem Mach.Stores.ite {m m₁ m₂ : Mach} {c : Prop} [Decidable c] (h₁ : m.Stores m₁) (h₂ : m.Stores m₂) :
    m.Stores (if c then m₁ else m₂) := by
  split
  · exact h₁
  · exact h₂

/-- HS_SFCTL lies at one offset of the pages of the slices. -/
theorem ne_hsSfctl {a : Nat} (ha : a < 0x80000 ∨ 0xA2000 ≤ a ∨ a % 0x1000 ≠ Reg.hsSfctl) : ∀ h < 34, a ≠ hsA h Reg.hsSfctl := by
  simp only [hsA, Reg.hsSfctl] at ha ⊢
  omega

/-- A machine that differs in stored registers differs in nothing else, and HS_SFCTL reads as before. -/
theorem Mach.Stores.frame {m m' : Mach} (hstores : m.Stores m') (hm : m.regs.Rising) :
    m'.regs.Rising ∧ m' = { m with regs := m'.regs } ∧ ∀ h < 34, m'.reg (hsA h Reg.hsSfctl) = m.reg (hsA h Reg.hsSfctl) := by
  induction hstores with
  | refl => exact ⟨hm, rfl, fun _ _ => rfl⟩
  | @set m' a v _ ha ih =>
    obtain ⟨hm', hframe, hsfctl⟩ := ih
    refine ⟨hm'.set _ a v, ?_, fun h hh => (Mach.reg_setReg_of_ne hm' (ha h hh).symm v).trans (hsfctl h hh)⟩
    exact congrArg (fun x : Mach => { x with regs := (m'.setReg a v).regs }) hframe

/-- Of the registers, HS_SFCTL alone decides whether something is left to follow. -/
theorem Mach.still_of_sfctl {m : Mach} {regs : SMap W32} (resp : MgmtSt × W32)
    (hsfctl : ∀ h < 34, ({ m with regs } : Mach).reg (hsA h Reg.hsSfctl) = m.reg (hsA h Reg.hsSfctl)) :
    ({ m with regs, resp } : Mach).still = m.still := by
  have hwake : ∀ h ∈ m.active, ({ m with regs, resp } : Mach).wakeNext h = m.wakeNext h := by
    intro h hactive
    have hfld : ({ m with regs, resp } : Mach).fld (hsA h Reg.hsSfctl) 8 4 = m.fld (hsA h Reg.hsSfctl) 8 4 :=
      congrArg (fun v : W32 => (v.extractLsb' 8 4).toNat) (hsfctl h (List.mem_range.mp (List.mem_filter.mp hactive).1))
    simp only [Mach.wakeNext, hfld]
    rfl
  have hany : (({ m with regs, resp } : Mach).active.any fun h => (({ m with regs, resp } : Mach).wakeNext h).isSome) =
      m.active.any fun h => (m.wakeNext h).isSome :=
    Bool.eq_iff_iff.mpr (by
      simp only [List.any_eq_true]
      exact exists_congr fun h => and_congr_right fun hactive => by rw [hwake h hactive])
  simp only [Mach.still, Mach.settled, hany]
  rfl

/-- In a settled state whose registers are in canonical form, a request that stores registers does no more. -/
theorem State.replied_of_stores {s : State} {m' : Mach} (hstores : s.m.Stores m') (hstill : s.m.still = true) (hregs : s.m.regs.Rising) :
    s.replied m' = { s with m := { s.m with regs := m'.regs, resp := (.ok, 0) } } := by
  obtain ⟨-, hframe, hsfctl⟩ := hstores.frame hregs
  rw [hframe] at hsfctl ⊢
  exact settledStatesStay _ ((Mach.still_of_sfctl _ hsfctl).trans hstill)

-- ===== the control writes (R265, R361, R420, R430, R435, R440) =====

section
variable (m : Mach) (w : World) (x : Nat) (v : W32)

/-- A refusal stores PG_ERR, if anything (R419). -/
theorem Mach.stores_refuse (c : Cause) : m.Stores (m.refuse w x c) :=
  have hpgErr := ne_hsSfctl (a := Reg.pgErr (x / 0x1000)) (.inr (.inr (by simp only [Reg.pgErr, Reg.hsSfctl]; omega)))
  .ite .refl (.ite (.set _ _ .refl hpgErr) (.set _ _ .refl hpgErr))

theorem Mach.stores_tmpCtl : m.Stores (m.tmpCtl v) :=
  have hctl : m.Stores (m.setReg Reg.tmpCtl (v &&& 1)) := .set _ _ .refl (ne_hsSfctl (.inl (by decide)))
  .ite (.set _ _ hctl (ne_hsSfctl (.inl (by decide)))) hctl

theorem Mach.stores_recAck : m.Stores (m.recCmd w Reg.recCmd 9 0) := .set _ _ .refl (ne_hsSfctl (.inl (by decide)))

theorem Mach.stores_einj (h : Nat) : m.Stores (m.einj w x h v) :=
  .ite (m.stores_refuse _ _ _) (.ite (m.stores_refuse _ _ _) (.ite (m.stores_refuse _ _ _)
    (.set _ _ .refl (ne_hsSfctl (.inr (.inr (by simp only [hsA, Reg.hsEinj, Reg.hsSfctl]; omega)))))))

/-- A control register of counters stores itself and the counters. -/
theorem Mach.stores_counterCtl {ctl : Nat} {counters : List Nat} (hctl : ∀ h < 34, ctl ≠ hsA h Reg.hsSfctl)
    (hcounters : ∀ a ∈ counters, ∀ h < 34, a ≠ hsA h Reg.hsSfctl) : m.Stores (m.counterCtl ctl counters v) :=
  have hset : m.Stores (m.setReg ctl (v &&& 1)) := .set _ _ .refl hctl
  .ite (List.foldlRecOn counters _ hset fun _ hm' a ha => .set a 0 hm' (hcounters a ha)) hset

theorem Mach.stores_hscCtl (h : Nat) : m.Stores (m.hscCtl h v) := by
  have hpage (off : Nat) : ∀ k < 34, hscA h off ≠ hsA k Reg.hsSfctl := ne_hsSfctl (.inr (.inl (by simp only [hscA]; omega)))
  exact m.stores_counterCtl v (hpage _) (List.forall_mem_map.mpr fun r _ => hpage r.off)

theorem Mach.stores_pctl {p : Nat} (hp : p < 28) : m.Stores (m.pctl p v) := by
  have hpage {off : Nat} (hoff : off < 0x1000) : ∀ k < 34, portA p off ≠ hsA k Reg.hsSfctl :=
    ne_hsSfctl (.inl (by simp only [portA]; omega))
  have hcounters : ∀ off ∈ portCounters, off < 0x1000 := by decide
  exact .ite (m.stores_counterCtl v (hpage (by decide)) (List.forall_mem_map.mpr fun off hoff => hpage (hcounters off hoff))) .refl

theorem Mach.stores_lockPage (on : Bool) : m.Stores (m.lockPage w x on) :=
  .ite (.set _ _ .refl (ne_hsSfctl (.inl (by decide)))) (.ite (m.stores_refuse _ _ _) .refl)

end

/-- A write of PG_LOCK stores it, or is refused, or falls on a reserved page (R7, R420). -/
theorem State.write_pgLock (s : State) (w : World) (p : Nat) (v : W32) :
    ∃ m', s.write w (Reg.pgLock p) v = { s with m := m' } ∧ s.m.Stores m' := by
  have hoff : primary (Reg.pgLock p) % 0x1000 = 0x01C := by simp only [primary, Reg.pgLock]; omega
  rw [State.write, State.writeWith]
  extract_lets
  split
  case isTrue => exact ⟨s.m, rfl, .refl⟩
  case isFalse =>
    split
    case h_1 => split <;> exact ⟨_, rfl, s.m.stores_refuse _ _ _⟩
    case h_2 =>
      extract_lets
      iterate 3
        split
        · exact ⟨_, rfl, s.m.stores_refuse _ _ _⟩
      rw [if_neg ?pgErr, if_neg ?pgErrmask]
      case pgErr => exact fun herr => absurd (hoff.symm.trans herr) (by decide)
      case pgErrmask => exact fun hmask => absurd (hoff.symm.trans hmask) (by decide)
      exact ⟨_, rfl, s.m.stores_lockPage _ _ _⟩

/-- Where the addresses of the stored registers rise, the control writes do what the statement says of them. -/
theorem counterAndControlWritesTouchRegistersOnly_of_rising {s : State} {w : World} {data : W32} {page : BitVec 8} {hs : SliceId}
    {port : PortId} {on : Bool} {c : Instr} (hup : s.m.up = true) (hstill : s.m.still = true) (hregs : s.m.regs.Rising)
    (hc : c ∈ [.tmpAck w data, .ack w, .pgLock w page, .hsEinj w hs data, .hscClr w hs on, .hscFreeze w hs on, .pctlClr w port on,
      .pctlFreeze w port on]) :
    ∃ regs : SMap W32, exec c s = .next { s with m := { s.m with regs, resp := (.ok, 0) } } := by
  have hcommand {f : Mach → Mach} (hexec : exec c s = s.command f) (hstores : s.m.Stores (f s.m)) :
      ∃ regs : SMap W32, exec c s = .next { s with m := { s.m with regs, resp := (.ok, 0) } } :=
    ⟨_, (exec_of_command hexec hup rfl).trans (congrArg _ (State.replied_of_stores hstores hstill hregs))⟩
  simp only [List.mem_cons, List.not_mem_nil, or_false] at hc
  rcases hc with rfl | rfl | rfl | rfl | rfl | rfl | rfl | rfl
  · exact hcommand rfl (s.m.stores_tmpCtl data)
  · exact hcommand rfl (s.m.stores_recAck w)
  · obtain ⟨m', hwrite, hstores⟩ := s.write_pgLock w page.toNat 1
    refine hcommand (f := fun _ => m') ?_ hstores
    change Host.Outcome.next (s.mgmt fun s => s.write w (Reg.pgLock page.toNat) 1).settle = _
    simp only [State.command, State.ctl, State.mgmt, hwrite]
  · exact hcommand rfl (s.m.stores_einj w _ data hs.val)
  · exact hcommand rfl (s.m.stores_hscCtl _ hs.val)
  · exact hcommand rfl (s.m.stores_hscCtl _ hs.val)
  · exact hcommand rfl (s.m.stores_pctl _ port.isLt)
  · exact hcommand rfl (s.m.stores_pctl _ port.isLt)

/-- HS0 with four valid ways of one set in bank 0, the only one that is ON, while bank 1 has been switched OFF automatically. -/
def wakingSlice : Slice := { Slice.fresh 0 with ss := [(0, 0xF)], bank := #v[.on, .off, .off, .off], auto := 2 }

/-- The reset state out of POR with HS0 so, in which HSC_CTL of HS0 is stored as 1 and, against the canonical form of a table, HS_SFCTL of
HS0 is listed after it as 0, so that it reads its reset value. -/
def hidingState : State :=
  { State.reset with m := { State.reset.m with
      up := true
      regs := [(hscA 0 Reg.hscCtl, 1), (hsA 0 Reg.hsSfctl, 0)]
      slices := [(0, wakingSlice)] } }

/-- The state of bank 1 of HS0. -/
def bankOne : Out → BankSt
  | .next t => (t.m.slice 0).bank.getD 1 .off
  | _ => .off

/-- Refutes O13: storing a register can change what another one reads, in a state whose register table is not in canonical form. In
`hidingState` HSC_FREEZE with 0 takes HSC_CTL off the table, after which HS_SFCTL reads the 0 listed behind it: the filling of bank 0
is now above its threshold, and bank 1 is woken. In a table whose keys rise the statement holds
(`counterAndControlWritesTouchRegistersOnly_of_rising`); the statement has no such hypothesis. -/
theorem not_counterAndControlWritesTouchRegistersOnly : ¬ Obligations.CounterAndControlWritesTouchRegistersOnly := by
  intro hframe
  obtain ⟨regs, hnext⟩ := hframe hidingState .ns 0 0 0 0 false (.hscFreeze .ns 0 false) rfl (by decide +kernel) (by decide)
  have hbank : bankOne (exec (.hscFreeze .ns 0 false) hidingState) = .off := congrArg bankOne hnext
  exact absurd hbank (by decide +kernel)

end Sys2Proof.Machine
end

section
/-! PROOFS. Ports and links: the flits of a link, its replays and its retrains (`spec/11_ports_links.md`). -/

namespace Sys2Proof.Machine

-- ===== the links that move flits (R288, R294) =====

section
variable {m : Mach} {p : Nat}

/-- A link moves flits in UP and in REPLAY. -/
theorem Mach.portIn_iff : m.portIn p = true ↔ (m.port p).st = .up ∨ (m.port p).st = .replay := by
  simp only [Mach.portIn, Bool.or_eq_true, decide_eq_true_eq]

/-- A link that initialises moves no flits. -/
theorem Mach.portIn_of_init (hst : (m.port p).st = .init) : m.portIn p = false := by
  simp [Mach.portIn, hst]

/-- A link that moves flits is initialised, and neither DOWN nor FENCED. -/
theorem Mach.st_ne_of_portIn (hin : m.portIn p = true) :
    (m.port p).st ≠ .init ∧ (m.port p).st ≠ .down ∧ (m.port p).st ≠ .fenced := by
  rcases Mach.portIn_iff.mp hin with hst | hst <;> simp [hst]

theorem Mach.idleIn_of_portIn (hin : m.portIn p = true) (a : AckField) : m.idleIn p a = m.ackField p a := if_pos hin

-- ===== message flits (R290, R293, R294) =====

/-- What a port does with the message flit that it expects. -/
def Mach.takeFlit (m : Mach) (port : PortId) (flit : BitVec 640) : Mach :=
  let v := m.port port.val
  let m := (((m.setPort port.val { v with
    rxSeq := v.rxSeq + 1, rxAny := true, nakd := false, rfail := 0, unack := v.unack + 1, l1 := false }).countRx port.val
      (flitCls flit)).ackField port.val (flitAck flit)).deliver port flit
  if 32 ≤ (m.port port.val).unack then m.sendLink port.val .idle else m

/-- How far a message flit is from the one expected decides what its port does with it. -/
theorem Mach.flitIn_message {port : PortId} {flit : BitVec 640} (hgood : flitGood flit = true) (hcls : flitCls flit < 5)
    (hin : m.portIn port.val = true) :
    m.flitIn port flit =
      if (flitSeq flit - (m.port port.val).rxSeq).toNat = 0 then m.takeFlit port flit
      else if (flitSeq flit - (m.port port.val).rxSeq).toNat < 256 then
        if (m.port port.val).nakd then m else m.sendNak port.val
      else m := by
  have hidle : flitCls flit ≠ 5 := by omega
  have hctrl : flitCls flit ≠ 6 := by omega
  have hunlisted : flitCls flit ≠ 7 := by omega
  simp only [Mach.flitIn, hgood, hidle, hctrl, hunlisted, hin, Bool.not_true, Bool.false_eq_true, if_false]
  rfl

/-- Two sequence numbers are no distance apart where they are the same. -/
theorem seq_sub_toNat_eq_zero (q r : Seq) : (q - r).toNat = 0 ↔ q = r := by
  rw [← BitVec.toNat_zero (w := 9), BitVec.toNat_inj, BitVec.sub_eq_iff_eq_add, BitVec.zero_add]

-- ===== flits whose CRC fails (R294, R295) =====

/-- On a link that moves flits the first failure is answered with a nak, and after it the flit expected is a failed replay. -/
theorem Mach.crcFail_of_portIn (hin : m.portIn p = true) (q : Seq) :
    m.crcFail p q =
      if (m.port p).nakd = false then (m.bumpP p Reg.pCrcerr).sendNak p
      else if q = (m.port p).rxSeq then ((m.bumpP p Reg.pCrcerr).sendNak p).replayFailed p
      else m.bumpP p Reg.pCrcerr := by
  obtain ⟨-, hdown, hfenced⟩ := Mach.st_ne_of_portIn hin
  simp [Mach.crcFail, hin, hdown, hfenced]

/-- A link that initialises counts the failure and sends no nak. -/
theorem Mach.crcFail_of_init (hst : (m.port p).st = .init) (q : Seq) : m.crcFail p q = m.bumpP p Reg.pCrcerr := by
  simp [Mach.crcFail, hst, Mach.portIn_of_init hst]

-- ===== link-level flits (R288, R289, R296) =====

theorem Mach.initIn_of_portIn (hin : m.portIn p = true) (a : AckField) : m.initIn p a = m.ackField p a := by
  obtain ⟨hinit, -, -⟩ := Mach.st_ne_of_portIn hin
  rw [Mach.initIn, if_pos hinit, Mach.idleIn_of_portIn hin]

theorem Mach.cradvIn_of_taken (htakes : (m.port p).st = .init ∨ m.portIn p = true) (cr : BitVec 64) (a : AckField) :
    m.cradvIn p cr a =
      ((m.modP p fun v => { v with peer := 0 :: (List.range 8).map fun i => (cr.extractLsb' (8 * i) 8).toNat }).pump p).idleIn p a :=
  if_pos (by simpa using htakes)

theorem Mach.resumeIn_of_portIn (hin : m.portIn p = true) (q : Seq) (valid : Bool) (a : AckField) :
    m.resumeIn p q valid a =
      let m := if valid then m.ackApply p q else m
      ((if (m.port p).rpl = [] then m.setLink p .up else (m.setLink p .replay).modP p fun v => v.resend).pump p).idleIn p a :=
  if_neg (by simp [hin])

end

/-- Settles O37: a message flit is told apart by its distance from the one expected, and a link-level flit by the state of its link. That
INIT in service applies its acknowledgement alone, that a nak goes in a CTRL flit and that a flit whose CRC failed has a sequence field
are entries 27, 99 and 102 of the assumption log. -/
theorem linkFlitsActOnTheirPort : Obligations.LinkFlitsActOnTheirPort := by
  refine ⟨?expected, ?ahead, ?behind, ?crc, ?crcInit, ?nak, ?idle, ?init, ?initUp, ?cradv, ?cradvInit, ?resume⟩
  case expected =>
    intro s port flit hup hgood hcls hin hseq
    refine exec_of_run (f := fun m => m.flitIn port flit) rfl hup ?_
    exact (Mach.flitIn_message hgood hcls hin).trans (if_pos ((seq_sub_toNat_eq_zero _ _).mpr hseq))
  case ahead =>
    intro s port flit hup hgood hcls hin hseq hahead hnakd
    refine exec_of_run (f := fun m => m.flitIn port flit) rfl hup ?_
    simp only [Mach.flitIn_message hgood hcls hin, seq_sub_toNat_eq_zero, hseq, hahead, hnakd, Bool.false_eq_true, if_false, if_true]
  case behind =>
    intro s port flit hup hgood hcls hin hbehind
    refine exec_of_run (f := fun m => m.flitIn port flit) rfl hup ?_
    rw [Mach.flitIn_message hgood hcls hin, if_neg (by omega), if_neg hbehind.not_gt]
  case crc =>
    intro s port seq hup hin
    exact exec_of_run (f := fun m => m.crcFail port.val seq) rfl hup (Mach.crcFail_of_portIn hin seq)
  case crcInit =>
    intro s port seq hup hst
    exact exec_of_run (f := fun m => m.crcFail port.val seq) rfl hup (Mach.crcFail_of_init hst seq)
  case nak =>
    intro s port ackSeq ack hup hin
    refine exec_of_run (f := fun m => m.nakFlit port.val ackSeq ack) rfl hup ?_
    rw [Mach.nakFlit, Mach.idleIn_of_portIn hin]
  case idle =>
    intro s port ack hup hin
    exact exec_of_run (f := fun m => m.idleIn port.val ack) rfl hup (Mach.idleIn_of_portIn hin ack)
  case init =>
    intro s port ptype ver ack hup hst
    exact exec_of_run (f := fun m => m.initIn port.val ack) rfl hup (if_neg (not_not_intro hst))
  case initUp =>
    intro s port ptype ver ack hup hin
    exact exec_of_run (f := fun m => m.initIn port.val ack) rfl hup (Mach.initIn_of_portIn hin ack)
  case cradv =>
    intro s port cr ack hup hin
    exact exec_of_run (f := fun m => m.cradvIn port.val cr ack) rfl hup (Mach.cradvIn_of_taken (.inr hin) cr ack)
  case cradvInit =>
    intro s port cr ack hup hst
    exact exec_of_run (f := fun m => m.cradvIn port.val cr ack) rfl hup (Mach.cradvIn_of_taken (.inl hst) cr ack)
  case resume =>
    intro s port lastSeq valid ack hup hin
    exact exec_of_run (f := fun m => m.resumeIn port.val lastSeq valid ack) rfl hup (Mach.resumeIn_of_portIn hin lastSeq valid ack)

-- ===== replays and retrains (R295, R296, R297, R301) =====

section
variable {m : Mach} {p : Nat}

/-- A retrain request of a link that moves flits. -/
theorem Mach.retrain_of_portIn (hin : m.portIn p = true) :
    m.retrain p = ((m.setLink p .retrain).trainGo p).modP p fun v => { v with rfail := 0, timed := false } := if_pos hin

/-- The transmitter's timer replays what is unacknowledged, and a timed replay that still runs has failed. -/
theorem Mach.txTimer_of_unacked (hin : m.portIn p = true) (hrpl : (m.port p).rpl ≠ []) :
    m.txTimer p = (if (m.port p).timed then m.replayFailed p else m).replay p true := by
  simp [Mach.txTimer, hin, hrpl]

/-- Counting a retrain changes nothing of a port in use but whether its retrain window is open (R297). -/
theorem Mach.port_rtCount (hst : (m.port p).st ≠ .down) : ∃ rtOpen, (m.rtCount p).port p = { m.port p with rtOpen } := by
  have hmodP (a : W32) (b : Bool) :
      ((m.setReg (portA p Reg.pRtwin) a).modP p fun v => { v with rtOpen := b }).port p = { m.port p with rtOpen := b } :=
    Mach.port_modP _ p _ fun h => hst (congrArg Port.st h)
  by_cases hthird : 3 ≤ if (m.port p).rtOpen then m.fld (portA p Reg.pRtwin) 0 2 + 1 else 1
  · simp only [Mach.rtCount, hthird, if_true]
    exact ⟨false, hmodP 0 false⟩
  · simp only [Mach.rtCount, hthird, if_false]
    exact ⟨true, hmodP _ true⟩

/-- A retrain that completes wide enough: RESUME carries what the port had received before, and the link goes to REPLAY where it had
flits unacknowledged. -/
theorem Mach.retrainDone_of_wide {rate : BitVec 4} {lanes : BitVec 7} (hst : (m.port p).st = .retrain) (hwide : narrow p lanes = false) :
    m.retrainDone p rate lanes =
      let m' := ((m.bumpP p Reg.pRetrain).capture { src := 34 + p, code := 0x01, counted := true }).rtCount p
      let m' := m'.modP p fun v => { v with
        rate := portRate p v.cap rate, half := decide (p < 16) && decide (lanes.toNat < 64), nakd := false }
      let m' := m'.sendLink p (.ctrl 3 ((m.port p).lastSeq.setWidth 64 ||| (if (m.port p).rxAny then 512 else 0)))
      (m'.setLink p (if (m.port p).rpl = [] then .up else .replay)).pump p := by
  have hcaptured : ((m.bumpP p Reg.pRetrain).capture { src := 34 + p, code := 0x01, counted := true }).port p = m.port p := by simp
  obtain ⟨rtOpen, hport⟩ := Mach.port_rtCount (m := (m.bumpP p Reg.pRetrain).capture { src := 34 + p, code := 0x01, counted := true })
    (p := p) (by simp [hst])
  rw [hcaptured] at hport
  simp only [Mach.retrainDone, hst, hwide, ne_eq, not_true_eq_false, Bool.false_eq_true, if_false, hport, Port.lastSeq]

end

/-- Settles O38: the replays and the retrain requests belong to a link that moves flits, and the end of a retrain to one in RETRAIN. That
the rate is capped as LCFG stood when the training started is entry 103 of the assumption log. -/
theorem replaysAndRetrains : Obligations.ReplaysAndRetrains := by
  refine ⟨?replayTimeout, ?timer, ?request, ?complete, ?narrow, ?timeout⟩
  case replayTimeout =>
    intro s port hup hin hnakd
    exact exec_of_run (f := fun m => m.replayTimeout port.val) rfl hup (if_pos (by rw [hin, hnakd]; rfl))
  case timer =>
    intro s port hup hin hrpl
    exact exec_of_run (f := fun m => m.txTimer port.val) rfl hup (Mach.txTimer_of_unacked hin hrpl)
  case request =>
    intro s port hup hin
    exact exec_of_run (f := fun m => m.retrain port.val) rfl hup (Mach.retrain_of_portIn hin)
  case complete =>
    intro s port rate lanes hup hst hwide
    exact exec_of_run (f := fun m => m.retrainDone port.val rate lanes) rfl hup (Mach.retrainDone_of_wide hst hwide)
  case narrow =>
    intro s port rate lanes hup hst hnarrow
    refine exec_of_run (f := fun m => m.retrainDone port.val rate lanes) rfl hup ?_
    rw [Mach.retrainDone, if_neg (not_not_intro hst), if_pos hnarrow]
  case timeout =>
    intro s port hup hst
    exact exec_of_run (f := fun m => m.retrainTimeout port.val) rfl hup (if_pos hst)

end Sys2Proof.Machine
end

section
/-! PROOFS. The controls of a port: quiescing, retraining and fencing by LCTL (`spec/11_ports_links.md`). -/

namespace Sys2Proof.Machine

-- ===== the words that the commands write to LCTL (Table 17-7) =====

/-- The word of QUIESCE has quiesce alone. -/
theorem w32_quiesce_bits (on : Bool) :
    (w32 (bitAt 0 on)).getLsbD 0 = on ∧ (w32 (bitAt 0 on)).getLsbD 2 = false ∧ (w32 (bitAt 0 on)).getLsbD 3 = false := by
  cases on <;> decide

/-- The word of LCTL_RETRAIN has retrain, and quiesce as it stands. -/
theorem w32_retrain_bits (on : Bool) :
    (w32 (4 + bitAt 0 on)).getLsbD 0 = on ∧ (w32 (4 + bitAt 0 on)).getLsbD 2 = true ∧ (w32 (4 + bitAt 0 on)).getLsbD 3 = false := by
  cases on <;> decide

/-- The word of PORT_FENCE_CMD has fence, and quiesce as it stands. -/
theorem w32_fence_bits (on : Bool) :
    (w32 (8 + bitAt 0 on)).getLsbD 0 = on ∧ (w32 (8 + bitAt 0 on)).getLsbD 2 = false ∧ (w32 (8 + bitAt 0 on)).getLsbD 3 = true := by
  cases on <;> decide

-- ===== what LCTL does (R296, R299, R399) =====

/-- Table 15-3 holds a request of NS for a claimed adapter alone. -/
theorem not_held_of {w : World} {claimed : Bool} (hfree : w = .s ∨ claimed = false) : (decide (w = .ns) && claimed) = false := by
  rcases hfree with rfl | rfl
  · rfl
  · exact Bool.and_false _

section
variable {m : Mach} {p : Nat} (w : World)

/-- A write of quiesce alone, held for no claimed adapter: it acts where it changes the bit. -/
theorem Mach.lctl_quiesce (x : Nat) (raw : W32) {on : Bool} (hpop : m.populated p = true)
    (hfree : on = true → m.bit (portA p Reg.pLctl) 0 = false → w = .s ∨ m.claimed (portDom p) = false) :
    m.lctl w x raw (w32 (bitAt 0 on)) p = if m.bit (portA p Reg.pLctl) 0 = on then m else m.quiesce p on := by
  obtain ⟨hquiesce, hretrain, hfence⟩ := w32_quiesce_bits on
  have hheld : (((on && !m.bit (portA p Reg.pLctl) 0) || false) && decide (w = .ns) && m.claimed (portDom p)) = false := by
    rw [Bool.or_false]
    cases hcut : on && !m.bit (portA p Reg.pLctl) 0
    · rfl
    · obtain ⟨hon, hclear⟩ := (Bool.and_eq_true _ _).mp hcut
      exact not_held_of (hfree hon (by simpa using hclear))
  simp only [Mach.lctl, hpop, hquiesce, hretrain, hfence, hheld, Bool.not_true, Bool.false_and, Bool.false_eq_true, if_false,
    beq_iff_eq, eq_comm (a := on)]

/-- LCTL.retrain, held for no claimed adapter, requests a retrain. -/
theorem Mach.lctlCmd_retrain (hpop : m.populated p = true) (hfree : w = .s ∨ m.claimed (portDom p) = false) :
    m.lctlCmd w p 4 = m.retrain p := by
  obtain ⟨hquiesce, hretrain, hfence⟩ := w32_retrain_bits (m.bit (portA p Reg.pLctl) 0)
  simp only [Mach.lctlCmd, Mach.lctl, hpop, hquiesce, hretrain, hfence, not_held_of hfree, Bool.not_true, Bool.false_and, Bool.or_true,
    Bool.true_and, Bool.false_eq_true, if_false, if_true, beq_self_eq_true]

/-- LCTL.fence is a command of the S world. -/
theorem Mach.lctlCmd_fence (hpop : m.populated p = true) :
    m.lctlCmd w p 8 = if w = .ns then m.refuse w (portA p Reg.pLctl) .world else m.fencePort p 3 true := by
  obtain ⟨hquiesce, hretrain, hfence⟩ := w32_fence_bits (m.bit (portA p Reg.pLctl) 0)
  simp only [Mach.lctlCmd, Mach.lctl, hpop, hquiesce, hretrain, hfence, Bool.not_true, Bool.true_and, Bool.and_not_self,
    Bool.or_false, Bool.false_and, Bool.false_eq_true, if_false, if_true, beq_self_eq_true, decide_eq_true_eq]

/-- Clearing quiesce returns what it withheld, unless the safe state or a drain withholds it (R299). -/
theorem Mach.quiesce_false : m.quiesce p false =
    if m.safe.isSome ∨ m.drain.isSome then m.clrBits (portA p Reg.pLctl) 1 else (m.clrBits (portA p Reg.pLctl) 1).freeCredits p := by
  simp only [Mach.quiesce, Bool.false_eq_true, if_false, Mach.clrBits_frame, Bool.or_eq_true]

end

/-- Settles O47: each command writes LCTL with one of its bits, and quiesce as it stands or as it is to be. That an NS write of quiesce
to a claimed port is held only where it sets the bit is entry 23 of the assumption log. -/
theorem portControlsAct : Obligations.PortControlsAct := by
  refine ⟨?set, ?clear, ?same, ?retrain, ?fence, ?fenceNs⟩
  case set =>
    intro s w port hup hpop hclear hfree
    refine exec_of_command rfl hup ((Mach.lctl_quiesce w _ _ hpop fun _ _ => hfree).trans ?_)
    rw [if_neg (by simp [hclear]), Mach.quiesce, if_pos rfl]
  case clear =>
    intro s w port hup hpop hset
    refine exec_of_command rfl hup ((Mach.lctl_quiesce w _ _ hpop fun h => absurd h Bool.false_ne_true).trans ?_)
    rw [if_neg (by simp [hset]), Mach.quiesce_false]
    rfl
  case same =>
    intro s w port on hup hpop hsame
    refine exec_of_command rfl hup ((Mach.lctl_quiesce w _ _ hpop fun hon hclear => ?_).trans (if_pos hsame))
    exact absurd (hsame.symm.trans hclear) (by simp [hon])
  case retrain =>
    intro s w port hup hpop hin hfree
    exact exec_of_command rfl hup ((Mach.lctlCmd_retrain w hpop hfree).trans (Mach.retrain_of_portIn hin))
  case fence =>
    intro s port hup hpop hst
    exact exec_of_command rfl hup (Mach.lctlCmd_fence .s hpop)
  case fenceNs =>
    intro s port hup hpop
    exact exec_of_command rfl hup (Mach.lctlCmd_fence .ns hpop)

end Sys2Proof.Machine
end

section
/-! PROOFS. Resets: SOFT, SLICE, PORT and WARM, the end of their drain, and zeroisation (`spec/11_ports_links.md`,
`spec/14_power_clocks_reset.md`). -/

namespace Sys2Proof.Machine

-- ===== resets of the whole block (R376, R378) =====

/-- A SOFT reset from the S world, in service and with no drain or transition. -/
theorem Mach.softReset_of_allowed {m : Mach} (x : Nat) (hdrain : m.drain = none) (hsafe : m.safe = none) (hlc : m.lc = none) :
    m.softReset .s x = (m.setFld Reg.rstStat 0 4 0).drainStart .soft := by
  simp [Mach.softReset, Mach.rstResult, hdrain, hsafe, hlc]

/-- A WARM reset starts the drain, or makes the one that runs its own. -/
theorem Mach.warm_of_up {m : Mach} (hup : m.up = true) (hlc : m.lc = none) :
    m.warm = if m.drain.isSome then { m with drain := some .warm } else m.drainStart .warm := by
  rw [Mach.warm, if_neg (by simp [hup, hlc])]
  cases m.drain <;> rfl

-- ===== the reset of a slice (R377) =====

/-- A slice that nothing uses is reset: its logic and arrays, its two pages but for PG_PAR, and its domains. -/
theorem Mach.sliceReset_of_allowed {m : Mach} (x : Nat) {h : Nat} (hdrain : m.drain = none) (hrange : h < 34)
    (hrole : (m.slice h).role ≠ .active) (hrehome : m.rehome = none)
    (hcopy : m.slices.any (fun e => e.2.copy.any fun c => c.old = h) = false) (hmsp : (m.slice h).msp = none) :
    m.sliceReset .s x h =
      (((((m.spareOff h).clearPage (0x80 + h) 0x010).clearPage (0xC0 + h) 0x010).setReg (Reg.pgPar (0x80 + h))
        (m.reg (Reg.pgPar (0x80 + h)))).setReg (Reg.pgPar (0xC0 + h)) (m.reg (Reg.pgPar (0xC0 + h)))).setFld Reg.rstStat 0 4 0 := by
  simp [Mach.sliceReset, Mach.rstResult, hdrain, hrange.not_ge, hrole, hrehome, hcopy, hmsp]

-- ===== the reset of a port (R299, R376) =====

/-- The port and its page return to reset, and the port trains again. -/
def Mach.portCleared (m : Mach) (p : Nat) : Mach :=
  ((((((((((m.setPort p {}).clearPort p).setReg (portA p Reg.pPctl) 0).setReg (portA p Reg.pRtwin) 0).clrBits
    (portA p Reg.pLctl) 1).setReg (Reg.pgErr (0x40 + p)) 0).setReg (Reg.pgErrmask (0x40 + p)) 0).setFld
    (portA p Reg.pLstat) 28 4 0).loadPage (0x40 + p)).trainGo p).setFld Reg.rstStat 0 4 0

/-- A populated die port that its world may reset, in DOWN or in FENCED, returns to reset; one in FENCED goes DOWN first. -/
theorem Mach.portReset_die {m : Mach} {p : Nat} (w : World) (x : Nat) (v : W32) (hdrain : m.drain = none) (hdie : p < 16)
    (hpop : m.populated p = true) (hst : (m.port p).st = .down ∨ (m.port p).st = .fenced ∧ w = .s)
    (hfree : w = .s ∨ m.claimed (portDom p) = false) :
    m.portReset w x v 0 p = (if (m.port p).st = .fenced then m.setLink p .down else m).portCleared p := by
  unfold Mach.portReset
  rcases hst with hst | ⟨hst, rfl⟩ <;>
    simp [Mach.portCleared, Mach.rstResult, hdrain, hdie.not_ge, hpop, hst, not_held_of hfree]

-- ===== the end of a drain, and zeroisation (R378, R379, R380) =====

/-- An event answers with what it makes of the state. -/
theorem exec_of_event {c : Instr} {s t : State} {f : State → State} (hexec : exec c s = s.event f) (hup : s.m.up = true)
    (hf : f s = t) : exec c s = .next t.settle := by
  rw [hexec, State.event, if_pos hup, hf]

/-- Settles O48: no world, busy, state or value rule refuses the resets of the statement. That SLICE ends no zeroisation of its own is
entry 43 of the assumption log. -/
theorem resetsAct : Obligations.ResetsAct := by
  refine ⟨?soft, ?slice, ?portDown, ?portFenced, ?warm, ?warmDone, ?softDone, ?zeroise⟩
  case soft =>
    intro s hup hdrain hsafe hlc
    exact exec_of_command rfl hup (Mach.softReset_of_allowed _ hdrain hsafe hlc)
  case slice =>
    intro s hs hup hdrain hrange hrole hrehome hcopy hmsp
    exact exec_of_command rfl hup (Mach.sliceReset_of_allowed _ hdrain hrange hrole hrehome hcopy hmsp)
  case portDown =>
    intro s w num hup hdrain hdie hpop hst hfree
    refine exec_of_command rfl hup ((Mach.portReset_die w _ _ hdrain hdie hpop (.inl hst) hfree).trans ?_)
    rw [if_neg (by simp [hst])]
    rfl
  case portFenced =>
    intro s num hup hdrain hdie hpop hst
    refine exec_of_command rfl hup ((Mach.portReset_die .s _ _ hdrain hdie hpop (.inr ⟨hst, rfl⟩) (.inl rfl)).trans ?_)
    rw [if_pos hst]
    rfl
  case warm =>
    intro s hup hlc
    exact exec_of_run rfl hup (Mach.warm_of_up hup hlc)
  case warmDone =>
    intro s hup hdrain
    exact exec_of_event rfl hup (by rw [State.drainDone, hdrain]; rfl)
  case softDone =>
    intro s hup hdrain
    exact exec_of_event rfl hup (by rw [State.drainDone, hdrain]; rfl)
  case zeroise =>
    intro s hs z hup hz
    refine exec_of_run (f := fun m => m.zeroStep hs.val) rfl hup ?_
    unfold Mach.zeroStep
    split
    case h_1 hnone => exact absurd (hz.symm.trans hnone) (Option.some_ne_none z)
    case h_2 y hsome =>
      obtain rfl : z = y := Option.some.inj (hz.symm.trans hsome)
      rfl

end Sys2Proof.Machine
end

section
/-! PROOFS. Faults: the windows of the fault collector, the release of its records, and the safe-state sequence
(`spec/11_ports_links.md`, `spec/12_faults_recovery.md`). -/

namespace Sys2Proof.Machine

-- ===== the fault collector (R321) =====

/-- FLT_RELEASE with head and a record held releases it. -/
theorem Mach.fltRelease_head {m : Mach} (w : World) (src : Nat) (hcaps : m.caps ≠ []) :
    m.fltRelease w true false src = { m with caps := m.caps.drop 1 } := by
  simp [Mach.fltRelease, hcaps]

/-- FLT_RELEASE with head and no record held is refused with cause STATE. -/
theorem Mach.fltRelease_head_nil {m : Mach} (w : World) (src : Nat) (hcaps : m.caps = []) :
    m.fltRelease w true false src = m.refuse w Reg.fltRelease .state := by
  simp [Mach.fltRelease, hcaps]

-- ===== the safe state (Table 12-13) =====

section
variable {m : Mach} {x : Safe}

/-- The deadline of step 2 ends what is ACTIVE and closes the combining buffers, in step 3. -/
theorem Mach.safeDeadline_of_step (hsafe : m.safe = some x) (hstep : x.step = 2) :
    m.safeDeadline =
      let m' := ({ m with safe := some { x with step := 3 } } : Mach).endActive
      m'.active.foldl (fun m h => m.wcCloseAll h) m' := by
  rw [Mach.safeDeadline, hsafe]
  exact if_neg (not_not_intro hstep)

/-- What the slices have not written is discarded, and counted at the port that wrote it. -/
def Mach.writesLost (m : Mach) : Mach :=
  m.active.foldl (fun (m : Mach) h =>
    (m.slice h).unwritten.foldl (fun (m : Mach) p => m.bumpP p Reg.pLostwr)
      (m.modS h fun v => { v with
        dbuf := v.dbuf.filter fun e => e.2.wr.isNone, wc := []
        todo := v.todo.filter fun t => match t with | .write _ _ _ _ _ _ _ _ => false | _ => true })) m

/-- The end of step 3 loses what is not written, and step 4 flushes the recorder, exempt from its budget. -/
theorem Mach.safeWrites_of_step (hsafe : m.safe = some x) (hstep : x.step = 3) :
    m.safeWrites =
      ({ m.writesLost with
        safe := some { x with step := 4 }
        rcr := { m.writesLost.rcr with frozen := false, exempt := true, paused := false } } : Mach).startFlush := by
  rw [Mach.safeWrites, hsafe]
  exact if_neg (not_not_intro hstep)

end

/-- The end of the flush of step 4: the records are in the store, and TX_FATAL_N is asserted in step 5. -/
theorem State.safeFlush_of_step {s : State} {x : Safe} (hstep : s.m.safe.any (fun x => x.step = 4) = true)
    (hflushed : s.flushAll.m.safe = some x) (hx : x.step = 4) :
    s.safeFlush = { s.flushAll with m := { s.flushAll.m with safe := some { x with step := 5 }, fatal := true } } := by
  have hfatal : s.flushAll.m.safeFlushed = { s.flushAll.m with safe := some { x with step := 5 }, fatal := true } := by
    rw [Mach.safeFlushed, hflushed]
    exact if_neg (not_not_intro hx)
  rw [State.safeFlush, if_pos hstep, ← hfatal]

/-- Settles O53: a window, a record and a source's lost bits each stand for themselves, and each event of the safe state belongs to one
of its steps. -/
theorem faultsAndSafeState : Obligations.FaultsAndSafeState := by
  refine ⟨?window, ?retrainWindow, ?head, ?headNil, ?lost, ?deadline, ?writes, ?flush⟩
  case window =>
    intro s src hup
    exact exec_of_run (f := fun m => m.windowEnd (.src src)) rfl hup rfl
  case retrainWindow =>
    intro s port hup
    exact exec_of_run (f := fun m => m.windowEnd (.retrain port)) rfl hup rfl
  case head =>
    intro s w hup hcaps
    exact exec_of_command rfl hup (Mach.fltRelease_head w 0 hcaps)
  case headNil =>
    intro s w hup hcaps
    exact exec_of_command rfl hup (Mach.fltRelease_head_nil w 0 hcaps)
  case lost =>
    intro s w src hup
    exact exec_of_command (f := fun m => m.fltRelease w false true src.val) rfl hup rfl
  case deadline =>
    intro s x hup hsafe hstep
    exact exec_of_run rfl hup (Mach.safeDeadline_of_step hsafe hstep)
  case writes =>
    intro s x hup hsafe hstep
    exact exec_of_run rfl hup (Mach.safeWrites_of_step hsafe hstep)
  case flush =>
    intro s x hup hflushed hstep hx
    exact exec_of_event rfl hup (State.safeFlush_of_step hstep hflushed hx)

end Sys2Proof.Machine
end

section
/-! PROOFS. The island's tick and comparators, the faults and restarts of the controllers, a slice's logic fault, and the parity scan
(`spec/12_faults_recovery.md`, `spec/14_power_clocks_reset.md`). -/

namespace Sys2Proof.Machine

-- ===== the island (R352, R373, R374) =====

/-- One second is counted, the flush budget counts anew, and the counter store takes its next slot. -/
theorem State.opsecTick_of_up {s : State} (hup : s.m.up = true) :
    s.opsecTick =
      let m := s.m.setReg Reg.aonOpsec (s.m.reg Reg.aonOpsec + 1)
      ({ s with m := { m with rcr := { m.rcr with spent := 0 } } } : State).cstorePut := by
  simp [State.opsecTick, hup]

/-- TMON1 fails the power. -/
theorem State.tmon1_of_up {s : State} (hup : s.m.up = true) :
    s.tmon1 = ({ s with m := { s.m with tmon := s.m.tmon ||| 2 }.setEvt 3 } : State).powerFail 5 := by
  simp [State.tmon1, hup]

/-- The machine once VMON `k` has tripped: the comparator's bit and PWR_EVT's. -/
def Mach.vmonSeen (m : Mach) (k : Nat) : Mach := ({ m with vmon := m.vmon ||| (1#4 <<< k) } : Mach).setEvt 1

section
variable {s : State} {k : Nat} (hup : s.m.up = true)
include hup

/-- VMON3, and a comparator whose pf is 1, fails the power. -/
theorem State.vmonTrip_of_fail (hfail : k = 3 ∨ (s.m.vmonSeen k).bit (Reg.aonVcfg + 4 * k) 31 = true) :
    s.vmonTrip k = ({ s with m := (s.m.vmonSeen k).powerFail k } : State).cstorePut := by
  rw [State.vmonTrip, if_neg (by simp [hup])]
  exact if_pos ((Bool.or_eq_true ..).mpr (hfail.imp_left decide_eq_true))

/-- Another comparator is recorded only. -/
theorem State.vmonTrip_of_warning (hk : k ≠ 3) (hpf : (s.m.vmonSeen k).bit (Reg.aonVcfg + 4 * k) 31 = false) :
    s.vmonTrip k = { s with m := (s.m.vmonSeen k).powerRec 0 0 0 k false true } := by
  rw [State.vmonTrip, if_neg (by simp [hup])]
  exact if_neg (ne_true_of_eq_false (Bool.or_eq_false_iff.mpr ⟨decide_eq_false hk, hpf⟩))

end

-- ===== the controllers (R334, R335) =====

/-- The watchdog of a running controller faults it with cause 1, at a free program counter. -/
theorem Mach.watchdog_of_runs {m : Mach} {c : Nat} (hruns : m.ctrlRuns c = true) :
    m.watchdog c = (({ m with free := m.free + 1 } : Mach).setBits Reg.aonWdt (1#32 <<< c)).ctrlFault c 1 (Config.faultPc m.free) := by
  simp [Mach.watchdog, hruns]

/-- The microsecond the island counts; the part below a second is free. -/
def Mach.now (m : Mach) : Nat := (m.reg Reg.aonOpsec).toNat * 1000000 + (Config.subSecond m.free).val

/-- Does controller `c` fault within a second of its restart? -/
def Mach.faultsSoon (m : Mach) (c : Nat) : Bool :=
  match (m.ctrl.get {} c).since with
  | some t => decide (m.now ≤ t + 1000000)
  | none => false

/-- The class of a fault of controller `c`: X within a second of its restart. -/
def Mach.ctrlFaultClass (m : Mach) (c : Nat) : Cls :=
  match (m.ctrl.get {} c).since with
  | some t => if m.now ≤ t + 1000000 then .x else .f
  | none => .f

theorem Mach.ctrlFaultClass_of_soon (m : Mach) (c : Nat) : (if m.faultsSoon c = true then Cls.x else Cls.f) = m.ctrlFaultClass c := by
  unfold Mach.faultsSoon Mach.ctrlFaultClass
  cases (m.ctrl.get {} c).since with
  | none => rfl
  | some t => exact if_congr decide_eq_true_iff rfl rfl

/-- A fault of TLP holds it in reset and is captured: neither a bring-up nor a rehoming hangs on it. -/
theorem Mach.ctrlFault_tlp {m : Mach} (cause : Nat) (pc : W32) (hruns : m.ctrlRuns 2 = true) :
    m.ctrlFault 2 cause pc =
      (((({ m with free := m.free + 1 } : Mach).modC 2 fun x => { x with run := 3 }).setReg
        (Reg.ctpFinfo + 0x1000 * 2) (BitVec.ofNat 32 (2 ^ 31 + cause))).setReg (Reg.ctpFpc + 0x1000 * 2) pc).capture
        { src := 63, sub := 2, code := 0x30, cls := m.ctrlFaultClass 2 } := by
  rw [← m.ctrlFaultClass_of_soon 2, Mach.ctrlFault, if_neg (by simp [hruns])]
  rfl

/-- A controller that runs again from ROM, or with its verified patch, and the restart counted. -/
def Mach.restarted (m : Mach) (c : Nat) : Mach :=
  (({ m with free := m.free + 1 } : Mach).modC c fun x =>
    { x with run := if m.fld (Reg.secPatch + 4 * c) 30 2 = 1 then 2 else 1, since := some m.now }).count (Reg.ctpRcnt + 0x1000 * c)

/-- RVP runs again and reports the copies that went on. -/
theorem State.ctrlRestart_rvp {s : State} (hheld : (s.m.ctrl.get {} 1).run = 3) :
    s.ctrlRestart 1 =
      { s with m := (s.m.restarted 1).active.foldl (fun m h => m.rhReport h) (s.m.restarted 1) } := by
  rw [State.ctrlRestart, if_neg (not_not_intro hheld)]
  rfl

/-- TLP runs again, with no map copy to write, and places its record. -/
theorem State.ctrlRestart_tlp {s : State} (hheld : (s.m.ctrl.get {} 2).run = 3) (hmaps : s.m.rcr.mapPend = []) :
    s.ctrlRestart 2 =
      { s with m := ({ s.m.restarted 2 with rcr := { (s.m.restarted 2).rcr with mapPend := [] } } : Mach).recorderRec 5 3 } := by
  have hfold : ∀ (l : List _) (t : State), l = [] → l.foldl (fun s b => s.mapWrite b) t = t := by
    rintro _ t rfl
    rfl
  rw [State.ctrlRestart, if_neg (not_not_intro hheld)]
  exact congrArg (fun t : State => ({ t with m := t.m.recorderRec 5 3 } : State)) (hfold _ _ hmaps)

/-- CP runs again after bring-up and switches the domains that waited. -/
theorem State.ctrlRestart_cp {s : State} (hheld : (s.m.ctrl.get {} 0).run = 3) (hstep : s.m.step = 8) :
    s.ctrlRestart 0 = { s with m := (s.m.restarted 0).domResume } := by
  rw [State.ctrlRestart, if_neg (not_not_intro hheld)]
  have hstep' : (s.m.restarted 0).step = 8 := hstep
  have hbroughtUp : (decide ((s.m.restarted 0).step < 8) && !(s.m.restarted 0).halted &&
      decide (0 < (s.m.restarted 0).cpFails)) = false := by
    simp [hstep']
  exact if_neg (ne_true_of_eq_false hbroughtUp)

-- ===== the logic of a slice (R328) =====

/-- A logic fault stops an active slice that runs, disarms its injection and has it rehomed. -/
theorem Mach.logicFault_of_active {m : Mach} {h : Nat} (hrole : (m.slice h).role = .active) (hdom : m.dom (sliceDom h 0) = .on)
    (hrun : (m.slice h).run ≠ .stopped) :
    m.logicFault h =
      let m' := ((m.modS h fun v => { v with run := .stopped }).clrBits (hsA h Reg.hsEinj) 0x80000000).capture
        { src := h, code := 0x1D, cls := .f }
      { m' with due := m'.due ++ [.slice h true .fault] } := by
  simp [Mach.logicFault, hrole, hdom, hrun]

-- ===== the parity scan (R336) =====

/-- PG_PAR with the first mismatch of a page. -/
def Mach.parKept (m : Mach) (a : Nat) (bytes : BitVec 4) : Mach :=
  m.setReg (Reg.pgPar (a / 0x1000)) (BitVec.ofNat 32 (2 ^ 31 + bytes.toNat * 2 ^ 10 + (a % 0x1000) / 4))

/-- The scan passes over what is no register and over a mismatch in no byte. -/
theorem regRow_mismatch {g : Integ} {a : Nat} {bytes : BitVec 4} (hreg : (regRow g (a / 4 * 4)).isSome = true) (hbytes : bytes ≠ 0) :
    ¬((regRow g (a / 4 * 4)).isNone || decide (bytes = 0)) = true :=
  ne_true_of_eq_false (Bool.or_eq_false_iff.mpr ⟨Option.isNone_eq_false_iff.mpr hreg, decide_eq_false hbytes⟩)

section
variable {m : Mach} {a : Nat} {bytes : BitVec 4} (hreg : (regRow m.integ (a / 4 * 4)).isSome = true) (hbytes : bytes ≠ 0)
  (hfirst : m.bit (Reg.pgPar (a / 0x1000)) 31 = false)
include hreg hbytes hfirst

/-- A mismatch of a port's page is captured for the port, which is fenced. -/
theorem Mach.cfgParity_port (hlo : 0x40 ≤ a / 0x1000) (hhi : a / 0x1000 < 0x5C) :
    m.cfgParity a bytes =
      let m' := (m.parKept a bytes).capture
        { src := 34 + (a / 0x1000 - 0x40), sub := 0, code := 0x3F, cls := .f, akind := 4, addr := BitVec.ofNat 52 a }
      { m' with due := m'.due ++ [.port (a / 0x1000 - 0x40) 3 false] } := by
  have hflt : a / 0x1000 ≠ 4 := by omega
  have hrec : a / 0x1000 ≠ 6 := by omega
  rw [Mach.cfgParity, if_neg (regRow_mismatch hreg hbytes), if_neg hflt, if_neg hrec, if_pos (by simp [hlo, hhi]),
    if_neg (ne_true_of_eq_false hfirst)]
  rfl

/-- A mismatch of the PWR page is captured for source 63, sub-source 12. -/
theorem Mach.cfgParity_pwr (hpage : a / 0x1000 = 1) :
    m.cfgParity a bytes =
      (m.parKept a bytes).capture { src := 63, sub := 12, code := 0x3F, cls := .x, akind := 4, addr := BitVec.ofNat 52 a } := by
  have hflt : a / 0x1000 ≠ 4 := by omega
  have hrec : a / 0x1000 ≠ 6 := by omega
  have hport : ¬(decide (0x40 ≤ a / 0x1000) && decide (a / 0x1000 < 0x5C)) = true := by simp [hpage]
  have hslice : ¬0x80 ≤ a / 0x1000 := by omega
  rw [Mach.cfgParity, if_neg (regRow_mismatch hreg hbytes), if_neg hflt, if_neg hrec, if_neg hport, if_neg hslice,
    if_neg (ne_true_of_eq_false hfirst)]
  rfl

end

/-- Settles O52: each event meets a unit that may act, and what it does there is its rule's. The flush budget that OPSEC_TICK
lets count anew is R352's; that each trip of a comparator is an event of its own is entry 104 of the assumption log. -/
theorem islandAndControllers : Obligations.IslandAndControllers := by
  refine ⟨?tick, ?tmon, ?powerFail, ?warning, ?watchdog, ?faultTlp, ?fault, ?rvp, ?tlp, ?cp, ?logic, ?parityPort, ?parityPwr⟩
  case tick =>
    intro s hup
    exact exec_of_event (f := State.opsecTick) rfl hup (State.opsecTick_of_up hup)
  case tmon =>
    intro s hup
    exact exec_of_event (f := State.tmon1) rfl hup (State.tmon1_of_up hup)
  case powerFail =>
    intro s k hup hfail
    exact exec_of_event (f := fun s => s.vmonTrip k.val) rfl hup (State.vmonTrip_of_fail hup hfail)
  case warning =>
    intro s k hup hk hpf
    exact exec_of_event (f := fun s => s.vmonTrip k.val) rfl hup (State.vmonTrip_of_warning hup hk hpf)
  case watchdog =>
    intro s c hup hruns
    exact exec_of_run (f := fun m => m.watchdog (ctrlNum c)) rfl hup (Mach.watchdog_of_runs hruns)
  case faultTlp =>
    intro s c trap pc hup hruns hc
    subst hc
    exact exec_of_run (f := fun m => m.ctrlFault 2 (if trap then 3 else 2) pc) rfl hup (Mach.ctrlFault_tlp _ pc hruns)
  case fault =>
    intro s c trap pc hup _
    exact exec_of_run (f := fun m => m.ctrlFault (ctrlNum c) (if trap then 3 else 2) pc) rfl hup rfl
  case rvp =>
    intro s hup hheld
    exact exec_of_event (f := fun s => s.ctrlRestart 1) rfl hup (State.ctrlRestart_rvp hheld)
  case tlp =>
    intro s hup hheld hmaps
    exact exec_of_event (f := fun s => s.ctrlRestart 2) rfl hup (State.ctrlRestart_tlp hheld hmaps)
  case cp =>
    intro s hup hheld hstep
    exact exec_of_event (f := fun s => s.ctrlRestart 0) rfl hup (State.ctrlRestart_cp hheld hstep)
  case logic =>
    intro s hs hup hrole hdom hrun
    exact exec_of_run (f := fun m => m.logicFault hs.val) rfl hup (Mach.logicFault_of_active hrole hdom hrun)
  case parityPort =>
    intro s addr bytes hup hreg hbytes hfirst hlo hhi
    exact exec_of_run (f := fun m => m.cfgParity addr.toNat bytes) rfl hup (Mach.cfgParity_port hreg hbytes hfirst hlo hhi)
  case parityPwr =>
    intro s addr bytes hup hreg hbytes hfirst hpage
    rw [← hpage] at hfirst ⊢
    exact exec_of_run (f := fun m => m.cfgParity addr.toNat bytes) rfl hup (Mach.cfgParity_pwr hreg hbytes hfirst hpage)

end Sys2Proof.Machine
end

section
/-! PROOFS. What commands do outside the machine: what each may do to the queue, the record store, the fuses and the counter store, and
the two invariants that every step keeps (`spec/13_event_recorder.md`, `spec/15_security_lifecycle.md`). -/

namespace Sys2Proof.Machine

-- ===== what a command may do outside the machine =====

/-- From `s` to `t` the queue is unchanged, the record store stays canonical and the fuses stay legal; the record store, the fuses and
the counter store are unchanged but where `recs`, `fuses` and `counters` permit a change. -/
structure State.Within (recs fuses counters : Bool) (s t : State) : Prop where
  pending : t.pending = s.pending
  store : recs = false → t.store = s.store ∧ t.storeBad = s.storeBad ∧ t.erased = s.erased
  fuse : fuses = false → t.fuse = s.fuse
  cstore : counters = false → t.cstore = s.cstore
  canonical : s.StoreCanonical → t.StoreCanonical
  legal : s.FusesLegal → t.FusesLegal

namespace State.Within

variable {recs fuses counters : Bool} {s t u : State}

/-- A change of the machine alone is within any bounds. -/
theorem of_same (h : s.SameStores t) : s.Within recs fuses counters t where
  pending := h.pending
  store _ := ⟨h.store, h.storeBad, h.erased⟩
  fuse _ := h.fuse
  cstore _ := h.cstore
  canonical := by simp only [State.StoreCanonical, h.store, imp_self]
  legal := by simp only [State.FusesLegal, h.fuse, imp_self]

theorem withMach (s : State) (m : Mach) : s.Within recs fuses counters { s with m } := of_same (.with s m)

theorem trans (h : s.Within recs fuses counters t) (k : t.Within recs fuses counters u) : s.Within recs fuses counters u where
  pending := k.pending.trans h.pending
  store hrecs :=
    have ⟨hstore, hbad, herased⟩ := h.store hrecs
    have ⟨kstore, kbad, kerased⟩ := k.store hrecs
    ⟨kstore.trans hstore, kbad.trans hbad, kerased.trans herased⟩
  fuse hfuses := (k.fuse hfuses).trans (h.fuse hfuses)
  cstore hcounters := (k.cstore hcounters).trans (h.cstore hcounters)
  canonical := k.canonical ∘ h.canonical
  legal := k.legal ∘ h.legal

/-- The machine may be another one after the change. -/
theorem thenMach (h : s.Within recs fuses counters t) (m : Mach) : s.Within recs fuses counters { t with m } := h.trans (withMach t m)

/-- The record store takes another content, canonical where it was so. -/
theorem withStore {store : Bytes} (hcanonical : Memory.wf s.store = true → Memory.wf store = true) (bad : List Nat) (er : Bool)
    (m : Mach) : s.Within true fuses counters { s with store := store, storeBad := bad, erased := er, m := m } where
  pending := rfl
  store := nofun
  fuse _ := rfl
  cstore _ := rfl
  canonical := hcanonical
  legal := id

/-- The fuses are burned, legal where they were so. -/
theorem withFuse {f : Fuse} (m : Mach) (hlegal : s.FusesLegal → State.FusesLegal { s with fuse := f, m := m }) :
    s.Within recs true counters { s with fuse := f, m := m } where
  pending := rfl
  store _ := ⟨rfl, rfl, rfl⟩
  fuse := nofun
  cstore _ := rfl
  canonical := id
  legal := hlegal

/-- The counter store is written. -/
theorem cstorePut (s : State) : s.Within recs fuses true s.cstorePut where
  pending := rfl
  store _ := ⟨rfl, rfl, rfl⟩
  fuse _ := rfl
  cstore := nofun
  canonical := id
  legal := id

/-- A fold stays within the bounds of its steps. -/
theorem foldl {α : Type} {f : State → α → State} (l : List α) (hf : ∀ (u : State) (x : α), u.Within recs fuses counters (f u x)) (s : State) :
    s.Within recs fuses counters (l.foldl f s) :=
  List.foldlRecOn (motive := fun u => s.Within recs fuses counters u) l f (of_same (.refl s)) fun u hu x _ => hu.trans (hf u x)

theorem ite {c : Prop} [Decidable c] (ht : s.Within recs fuses counters t) (hu : s.Within recs fuses counters u) :
    s.Within recs fuses counters (if c then t else u) := by
  split
  · exact ht
  · exact hu

/-- An event stays within the bounds of its effect. -/
theorem event {f : State → State} (hf : ∀ u : State, u.Within recs fuses counters (f u)) (h : s.event f = .next t) :
    s.Within recs fuses counters t := by
  rw [State.event] at h
  cases h
  exact ite ((hf s).trans (of_same (State.settle_same _))) (of_same (.refl s))

/-- A request stays within the bounds of its effect. -/
theorem request {f : State → State} (hf : ∀ u : State, u.Within recs fuses counters (f u)) (h : s.request f = .next t) :
    s.Within recs fuses counters t := by
  rw [State.request, State.mgmt] at h
  cases h
  exact (ite (withMach s _) ((hf s).thenMach _)).trans (of_same (State.settle_same _))

end State.Within

-- ===== the record store (R349 to R356, R405) =====

section
variable {fuses counters : Bool}

theorem State.within_enterBlk (s : State) (b lap first : Nat) : s.Within true fuses counters (s.enterBlk b lap first) :=
  .withStore (Memory.wf_putBytes _ _ _) _ _ _

theorem State.within_putRec (s : State) (a : Nat) (bs : List (BitVec 8)) : s.Within true fuses counters (s.putRec a bs) :=
  .withStore (Memory.wf_putBytes _ _ _) _ _ _

theorem State.within_writeRcd (s : State) (x : Rcd) : s.Within true fuses counters (s.writeRcd x) := by
  unfold State.writeRcd
  extract_lets r bs n t o room nx fit _ _ _ _ cut rest
  have ht : s.Within true fuses counters t := .ite (s.within_enterBlk _ _ _) (.of_same (.refl s))
  have hfit : s.Within true fuses counters fit := ht.trans (t.within_putRec _ _)
  have hrest : s.Within true fuses counters rest :=
    ((ht.trans (t.within_putRec _ _)).trans (cut.within_enterBlk _ _ _)).trans (State.within_putRec _ _ _)
  exact .ite (hfit.thenMach _) (hrest.thenMach _)

theorem State.within_mapWrite (s : State) (b : Nat) : s.Within true fuses counters (s.mapWrite b) :=
  have hmap : s.Within true fuses counters { s with store := retire s.store b, m := (s.m.count Reg.recRetired).recorderRec 4 3 } :=
    .withStore (Memory.wf_retire _ _) _ _ _
  .ite (hmap.thenMach _) hmap

theorem State.within_skipBlk (s : State) : s.Within true fuses counters s.skipBlk := by
  unfold State.skipBlk
  extract_lets
  exact .ite ((State.Within.withMach s _).trans (State.within_mapWrite _ _)) (.withMach s _)

theorem State.within_flushWrite (s : State) (bufErr writeErr : Bool) : s.Within true fuses counters (s.flushWrite bufErr writeErr) := by
  unfold State.flushWrite
  extract_lets r
  split
  · exact .withMach s _
  · refine .ite (.of_same (.refl s)) (State.Within.thenMach ?_ _)
    exact .ite (.withMach s _) (.ite (.withMach s _) (.ite s.within_skipBlk ((State.Within.withMach s _).trans (State.within_writeRcd _ _))))

theorem State.within_flushN (n : Nat) : ∀ s : State, s.Within true fuses counters (s.flushN n) := by
  induction n with
  | zero => exact fun s => .of_same (.refl s)
  | succ n ih => exact fun s => (s.within_flushWrite false false).trans (ih _)

theorem State.within_flushAll (s : State) : s.Within true fuses counters s.flushAll := s.within_flushN _

theorem State.within_safeFlush (s : State) : s.Within true fuses counters s.safeFlush :=
  .ite (s.within_flushAll.thenMach _) (.of_same (.refl s))

theorem State.within_eraseStore (s : State) : s.Within true fuses counters s.eraseStore :=
  .withStore (fun _ => SMap.wf_nil 0) _ _ _

theorem State.headScan_same (s : State) : s.SameStores s.headScan := by
  unfold State.headScan
  extract_lets
  split
  · exact .refl s
  · split
    split
    exact .with s _

theorem State.within_ctrlRestart (s : State) (c : Nat) : s.Within true fuses counters (s.ctrlRestart c) := by
  unfold State.ctrlRestart
  extract_lets
  refine .ite (.of_same (.refl s)) (.ite ?tlp (.ite (.withMach s _) (.ite (.ite (.withMach s _) (.withMach s _)) (.withMach s _))))
  case tlp => exact ((State.Within.withMach s _).trans (.foldl _ State.within_mapWrite _)).thenMach _

theorem State.within_bringup (s : State) (g : Image) : s.Within true fuses counters (s.bringup g) := by
  unfold State.bringup
  extract_lets
  refine .ite (.of_same (.refl s)) ?_
  split
  · exact .withMach s _
  · have herase : s.Within true fuses counters (if s.m.lcState = 4 && !s.erased then s.eraseStore else s) :=
      .ite s.within_eraseStore (.of_same (.refl s))
    exact ((herase.thenMach _).trans (.of_same (State.headScan_same _))).thenMach _
  · exact .ite (.of_same (.refl s)) (.withMach s _)
  · exact .withMach s _
  · exact .withMach s _
  · refine .ite (.of_same (.refl s)) ?_
    split <;> exact .withMach s _
  · exact .ite (.of_same (.refl s)) (.withMach s _)
  · exact .of_same (.refl s)

end

-- ===== the fuses (R404, R405, R408) =====

/-- A burned copy of the lifecycle state is the target, one of the five states. -/
theorem Fuse.burn_lc_le (f : Fuse) (old : Nat) (target : Fin 5) (key : List W32) (n : Nat) (hlc : ∀ c : Fin 3, f.lc[c].toNat ≤ 4)
    (c : Fin 3) : (f.burn old target key n).lc[c].toNat ≤ 4 := by
  have htarget : (BitVec.ofNat 3 target.val).toNat ≤ 4 := by
    rw [BitVec.toNat_ofNat, Nat.mod_eq_of_lt (by omega)]
    omega
  have hcopy : (f.burn old target key n).lc[c] = if c.val < n then BitVec.ofNat 3 target.val else f.lc[c] := by
    fin_cases c <;> simp [Fuse.burn]
  rw [hcopy]
  split
  · exact htarget
  · exact hlc c

theorem State.burnt_legal {s : State} (hlegal : s.FusesLegal) (n : Nat) (m : Mach) : State.FusesLegal { s with fuse := s.burnt n, m } := by
  obtain ⟨hlc, hmin⟩ := hlegal
  unfold State.burnt
  split
  · split
    · exact ⟨Fuse.burn_lc_le _ _ _ _ _ hlc, hmin⟩
    · exact ⟨hlc, hmin⟩
  · exact ⟨hlc, hmin⟩

/-- The minimum that PATCH_RAISE burns is a run of ones: a version above 32 burns all of them. -/
theorem thermometer_of_version (ver : Nat) : thermometer (BitVec.ofNat 32 (2 ^ ver - 1)) := by
  refine ⟨min ver 32, Nat.min_le_right _ _, ?_⟩
  rw [BitVec.toNat_ofNat]
  rcases Nat.le_total ver 32 with hle | hle
  · have hpow : 2 ^ ver ≤ 2 ^ 32 := Nat.pow_le_pow_right (by decide) hle
    rw [Nat.min_eq_left hle]
    exact Nat.mod_eq_of_lt (by have := Nat.two_pow_pos ver; omega)
  · rw [Nat.min_eq_right hle]
    obtain ⟨k, hk⟩ := pow_dvd_pow 2 hle
    have hpos : 0 < k := Nat.pos_of_mul_pos_left (hk ▸ Nat.two_pow_pos ver)
    omega

section
variable {recs counters : Bool}

theorem State.within_patchRaise (s : State) (w : World) (c : Nat) : s.Within recs true counters (s.patchRaise w c) := by
  unfold State.patchRaise
  extract_lets
  refine .ite (.withMach s _) (.ite (.withMach s _) (.ite (.withMach s _) (.withFuse _ fun ⟨hlc, hmin⟩ => ⟨hlc, fun i => ?_⟩)))
  change thermometer (s.fuse.min.setIfInBounds c (BitVec.ofNat 32 (2 ^ _ - 1)))[i.val]
  rw [Vector.getElem_setIfInBounds]
  split
  · exact thermometer_of_version _
  · exact hmin i

theorem State.within_por (s : State) : s.Within recs true counters s.por := .withFuse _ fun hlegal => State.burnt_legal hlegal _ _

/-- A stage of a transition may burn the fuses, write the store and erase it. -/
theorem State.within_lcStageDone (s : State) : s.Within true true counters s.lcStageDone := by
  unfold State.lcStageDone
  split
  case h_1 => exact .of_same (.refl s)
  case h_2 l _ =>
    split
    case h_1 => exact .withMach s _
    case h_2 => exact .ite (.withMach s _) (.withMach s _)
    case h_3 => exact s.within_flushAll.thenMach _
    case h_4 => exact .withFuse _ fun hlegal => State.burnt_legal hlegal _ _
    case h_5 => exact .ite (.withMach s _) (.withMach s _)
    case h_6 => exact s.within_eraseStore.thenMach _
    case h_7 => exact .of_same (.refl s)

end

-- ===== requests on the management port (R20, R400, R402, R408, R415) =====

theorem State.SameStores.ite {s t u : State} {c : Prop} [Decidable c] (ht : s.SameStores t) (hu : s.SameStores u) :
    s.SameStores (if c then t else u) := by
  split
  · exact ht
  · exact hu

theorem State.lcRequest_same (s : State) (w : World) (target : Nat) : s.SameStores (s.lcRequest w target) := by
  unfold State.lcRequest
  refine .ite (.with s _) (.ite (.with s _) ?_)
  split
  · exact .with s _
  · exact .ite (.with s _) (.ite (.with s _) (.ite (.with s _) (.with s _)))

theorem State.debugAuth_same (s : State) (w : World) : s.SameStores (s.debugAuth w) :=
  .ite (.with s _) (.ite (.with s _) (.ite (.with s _) (.with s _)))

section
variable {recs counters : Bool}

/-- The commands of the SEC page change the machine, and PATCH_RAISE the fuses. -/
theorem State.within_applyFuse {s : State} {other : Unit → State} (hother : s.Within recs true counters (other ())) (w : World) (x a : Nat)
    (v : W32) : s.Within recs true counters (s.applyFuse w x a v other) := by
  unfold State.applyFuse
  refine .ite ?lccmd (.ite (.ite (s.within_patchRaise _ _) (.ite (.withMach s _) (.withMach s _))) hother)
  split
  · exact .of_same (s.debugAuth_same w)
  · exact .ite (.of_same (s.lcRequest_same w _)) (.ite (.withMach s _) (.withMach s _))

/-- A write reaches the fuses through the commands of the SEC page, and what SEC_HELDCMD does. -/
theorem State.within_writeWith {held : State → World → Nat → W32 → State}
    (hheld : ∀ (s : State) (w : World) (x : Nat) (v : W32), s.Within recs true counters (held s w x v)) (s : State) (w : World) (x : Nat)
    (raw : W32) : s.Within recs true counters (s.writeWith held w x raw) := by
  unfold State.writeWith
  extract_lets
  refine .ite (.of_same (.refl s)) ?_
  split
  · exact .ite (.withMach s _) (.withMach s _)
  · refine .ite (.withMach s _) (.ite (.withMach s _) (.ite (.withMach s _) (.ite ?pgErr (.ite (.withMach s _)
      (.ite (.withMach s _) (.ite (hheld s w x raw) (.ite (State.within_applyFuse ?_ w x _ _) (.withMach s _))))))))
    case pgErr => exact .ite (.of_same (.refl s)) (.withMach s _)
    exact .withMach s _

/-- GRANT writes as a write does, but for SEC_HELDCMD itself. -/
theorem State.within_heldCmd (s : State) (w : World) (x op : Nat) : s.Within recs true counters (s.heldCmd w x op) := by
  unfold State.heldCmd
  refine .ite (.withMach s _) (.ite (.withMach s _) ?_)
  split
  · exact .withMach s _
  · exact (State.Within.withMach s _).trans (.ite (State.within_writeWith (fun s _ _ _ => .of_same (.refl s)) _ _ _ _) (.of_same (.refl _)))

theorem State.within_write (s : State) (w : World) (x : Nat) (v : W32) : s.Within recs true counters (s.write w x v) :=
  State.within_writeWith (fun s _ _ _ => s.within_heldCmd _ _ _) s w x v

end

/-- DENY changes the machine alone. -/
theorem State.deny_same (s : State) (w : World) (x : Nat) : s.SameStores (s.heldCmd w x 2) := by
  unfold State.heldCmd
  refine .ite (.with s _) (.ite (.with s _) ?_)
  split <;> exact .with s _

theorem State.pgLock_same (s : State) (w : World) (p : Nat) (v : W32) : s.SameStores (s.write w (Reg.pgLock p) v) := by
  obtain ⟨m', hwrite, -⟩ := s.write_pgLock w p v
  rw [hwrite]
  exact .with s m'

theorem State.mgmtRead_same (s : State) (w : World) (x : Nat) : s.SameStores (s.mgmtRead w x) :=
  .ite (.with s _) ((s.readReg_same w x).trans (.with _ _))

/-- SNAPSHOT_DONE reads registers, and so changes the machine alone. -/
theorem State.snapDone_same (s : State) (k : Nat) (first : Bool) : s.SameStores (s.snapDone k first) := by
  unfold State.snapDone
  extract_lets cfg w n read
  have hread (l : List Nat) : s.SameStores (read s l).1 :=
    List.foldlRecOn (motive := fun x : State × List (BitVec 20 × W32) => s.SameStores x.1) l _ (.refl s)
      fun x hx _ _ => hx.trans (x.1.readReg_same w _)
  refine .ite (.refl s) ?_
  split
  · exact .ite ((hread _).trans (.with _ _)) ((hread _).trans (.with _ _))
  · exact .ite (.refl s) ((hread _).trans (.with _ _))

theorem State.drainDone_same (s : State) : s.SameStores s.drainDone := by
  unfold State.drainDone
  split
  · exact .with s _
  · exact .with s _
  · exact .refl s

theorem State.porRelease_same (s : State) : s.SameStores s.porRelease := by
  unfold State.porRelease
  exact .ite (.refl s) (.with s _)

-- ===== the counter store (R373, R374) =====

section
variable {recs fuses : Bool}

theorem State.within_powerFail (s : State) (k : Nat) : s.Within recs fuses true (s.powerFail k) :=
  (State.Within.withMach s _).trans (.cstorePut _)

theorem State.within_opsecTick (s : State) : s.Within recs fuses true s.opsecTick := by
  unfold State.opsecTick
  exact .ite (.of_same (.refl s)) ((State.Within.withMach s _).trans (.cstorePut _))

theorem State.within_tmon1 (s : State) : s.Within recs fuses true s.tmon1 := by
  unfold State.tmon1
  exact .ite (.of_same (.refl s)) ((State.Within.withMach s _).trans (State.within_powerFail _ _))

theorem State.within_vmonTrip (s : State) (k : Nat) : s.Within recs fuses true (s.vmonTrip k) := by
  unfold State.vmonTrip
  refine .ite (.of_same (.refl s)) ((State.Within.withMach s _).trans (.ite (State.within_powerFail _ _) (.withMach _ _)))

end

-- ===== each command =====

/-- Each command stays within what its class permits. The events and the requests that may reach a store are listed with what bounds
them; the other commands change the machine alone. -/
theorem exec_within {c : Instr} {s t : State} (h : exec c s = .next t) :
    s.Within (storesRecords c) (burnsFuses c) (writesCounters c) t := by
  cases c with
  | recordFlushWrite bufErr writeErr => exact .event (fun u => u.within_flushWrite bufErr writeErr) h
  | controllerRestart k => exact .event (fun u => u.within_ctrlRestart _) h
  | safeStateFlushDone => exact .event State.within_safeFlush h
  | bringupStepDone img => exact .event (fun u => u.within_bringup img) h
  | lifecycleStageDone => exact .event State.within_lcStageDone h
  | opsecTick => exact .event State.within_opsecTick h
  | tmon1Trip => exact .event State.within_tmon1 h
  | vmonTrip k => exact .event (fun u => u.within_vmonTrip _) h
  | recorderHeadScanDone => exact .of_same (State.event_same State.headScan_same h)
  | snapshotDone r => exact .of_same (State.event_same (fun u => u.snapDone_same _ _) h)
  | resetDrainDone => exact .of_same (State.event_same State.drainDone_same h)
  | grant w => exact .request (fun u => u.within_heldCmd w _ _) h
  | patchRaise w ctrl => exact .request (fun u => u.within_patchRaise w _) h
  | pairHiWrite w addr data => exact .request (fun u => u.within_write w _ _) h
  | registerWrite w addr data => exact .request (fun u => u.within_write w _ _) h
  | deny w => exact .of_same (State.request_same (fun u => u.deny_same w _) h)
  | lcProvision w => exact .of_same (State.request_same (fun u => u.lcRequest_same w _) h)
  | lcDeploy w => exact .of_same (State.request_same (fun u => u.lcRequest_same w _) h)
  | lcRma w => exact .of_same (State.request_same (fun u => u.lcRequest_same w _) h)
  | lcDecommission w => exact .of_same (State.request_same (fun u => u.lcRequest_same w _) h)
  | debugAuthCheck w => exact .of_same (State.request_same (fun u => u.debugAuth_same w) h)
  | pgLock w page => exact .of_same (State.request_same (fun u => u.pgLock_same w _ _) h)
  | por => cases h; exact s.within_por
  | porRelease => cases h; exact .of_same s.porRelease_same
  | mgmtPerr => cases h; exact .of_same s.parityError_same
  | loRead w addr => cases h; exact .of_same (s.mgmtRead_same w _)
  | fltReleaseHead | fltClearLost | rehomeCmd | evacuate | bankPowerOn | evacuationAbort | sfPartitionEnable | mbistStart
  | mbistAbort | lbistStart | quiesce | portFenceCmd | lctlRetrain | domainOn | domainOff | freqSet | create | destroy | reset
  | info | pageout | qobDisable | queueHandOver | flush | freeze | unfreeze | first | last | next | prev | seek | ack | snap
  | snapsetHandover | rmpInv | rcDisable | predClr | wcEnClear | eackOffSet | hsEinj | mspRead | hscClr | hscFreeze | pctlClr
  | pctlFreeze | softReset | sliceReset | portReset | invcrm | flushqw | invrc | zero | scrubsp | abort | tmpAck | crmDisable
  | crmEnable | pfDisable | wayDisable | lock | unlock | lockWayHandover => unfold exec at h; exact .of_same (State.command_same h)
  | _ => unfold exec at h; exact .of_same (State.run_same h)

/-- Settles O3: `step` takes the front command off the queue. -/
theorem stepRunsTheFrontCommand : Obligations.StepRunsTheFrontCommand := fun _ _ _ => rfl

/-- Settles O4: that nothing happens between commands is entry 1 of the assumption log. -/
theorem emptyQueueIdles : Obligations.EmptyQueueIdles := by
  intro s hempty
  rw [step, hempty]

/-- What holds before a step and is kept by every command whatever waits holds after it. -/
theorem step_keeps {P : State → Prop} (hqueue : ∀ (s : State) (q : List Instr), P s → P { s with pending := q })
    (hexec : ∀ (c : Instr) (s t : State), exec c s = .next t → P s → P t) {s t : State} (hs : P s) (hstep : step s = .next t) : P t := by
  unfold step at hstep
  split at hstep
  · cases hstep
    exact hs
  · exact hexec _ _ _ hstep (hqueue s _ hs)

/-- Settles O7: every command keeps the canonical form of the store (`notes/assumptions/6.md`). -/
theorem stepKeepsStoreCanonical : Obligations.StepKeepsStoreCanonical := fun _ _ hs =>
  step_keeps (fun _ _ h => h) (fun _ _ _ hexec => (exec_within hexec).canonical) hs

/-- Settles O8: every command keeps the fuses legal. -/
theorem stepKeepsFusesLegal : Obligations.StepKeepsFusesLegal := fun _ _ hs =>
  step_keeps (fun _ _ h => h) (fun _ _ _ hexec => (exec_within hexec).legal) hs

/-- Settles O9: the store starts empty and no fuse is burned (`notes/assumptions/5.md`, `notes/assumptions/6.md`). -/
theorem resetMeetsTheInvariants : Obligations.ResetMeetsTheInvariants :=
  ⟨State.wf_reset, by decide, fun c => ⟨0, by decide, by fin_cases c <;> rfl⟩⟩

/-- Settles O10: each command stays within what its class permits. -/
theorem commandsLeaveOtherStoresAlone : Obligations.CommandsLeaveOtherStoresAlone := fun _ _ _ hexec =>
  have hwithin := exec_within hexec
  ⟨hwithin.pending, hwithin.store, hwithin.fuse, hwithin.cstore⟩

end Sys2Proof.Machine
end

section
/-! PROOFS. The record store as a table: what it reads after a write, and what committing a record stores
(`spec/13_event_recorder.md`). -/

namespace Sys2Proof.Machine

-- ===== tables in canonical form =====

section
variable {α : Type} [DecidableEq α] {d : α}

theorem SMap.rising_of_wf : ∀ {m : SMap α}, SMap.wf d m = true → m.Rising
  | [], _ => List.Pairwise.nil
  | (k, v) :: r, hm => by
    obtain ⟨-, habove, hr⟩ := (SMap.wf_cons d k v r).mp hm
    have hrising : SMap.Rising r := SMap.rising_of_wf hr
    refine List.pairwise_cons.mpr ⟨fun e he => ?_, hrising⟩
    cases r with
    | nil => cases he
    | cons f r =>
      rcases List.mem_cons.mp he with rfl | he
      · exact habove
      · exact Nat.lt_trans habove ((List.pairwise_cons.mp hrising).1 e he)

/-- A table in canonical form reads another key as before a write. -/
theorem SMap.get_set_of_ne {m : SMap α} (hm : SMap.wf d m = true) {n k : Nat} (hne : k ≠ n) (v : α) :
    (m.set d n v).get d k = m.get d k := by
  rw [SMap.set]
  split
  · rw [SMap.get, SMap.get, SMap.find_del_of_ne hne m (SMap.rising_of_wf hm)]
  · rw [SMap.get, SMap.get, SMap.find_put_of_ne hne v m]

omit [DecidableEq α] in
/-- The first key of a table reads its value. -/
theorem SMap.get_head (k : Nat) (v : α) (r : SMap α) : SMap.get ((k, v) :: r) d k = v := by
  simp [SMap.get, SMap.find]

omit [DecidableEq α] in
/-- A key below the first one reads the default. -/
theorem SMap.get_of_lt {k j : Nat} {v : α} {r : SMap α} (hj : j < k) : SMap.get ((k, v) :: r) d j = d := by
  simp [SMap.get, SMap.find, hj, hj.ne]

/-- The rest of a table reads the default up to the first key, and as the table above it. -/
theorem SMap.get_tail {k : Nat} {v : α} {r : SMap α} (hm : SMap.wf d ((k, v) :: r) = true) (j : Nat) :
    SMap.get r d j = if j ≤ k then d else SMap.get ((k, v) :: r) d j := by
  obtain ⟨hk, -⟩ := List.pairwise_cons.mp (SMap.rising_of_wf hm)
  split
  case isTrue hj => rw [SMap.get, SMap.find_eq_none_of_lt r fun e he => Nat.lt_of_le_of_lt hj (hk e he), Option.getD_none]
  case isFalse hj => simp [SMap.get, SMap.find, (Nat.lt_of_not_le hj).ne', (Nat.lt_of_not_le hj).asymm]

/-- Tables in canonical form that read the same are the same: the first key of each reads a value other than the default, so that
neither can lie below the other. -/
theorem SMap.eq_of_get_eq : ∀ {m m' : SMap α}, SMap.wf d m = true → SMap.wf d m' = true → (∀ k, m.get d k = m'.get d k) → m = m'
  | [], [], _, _, _ => rfl
  | [], (k, v) :: r, _, hm', hget => absurd ((hget k).trans (SMap.get_head k v r)).symm ((SMap.wf_cons d k v r).mp hm').1
  | (k, v) :: r, [], hm, _, hget => absurd ((SMap.get_head k v r).symm.trans (hget k)) ((SMap.wf_cons d k v r).mp hm).1
  | (k, v) :: r, (k', v') :: r', hm, hm', hget => by
    obtain ⟨hv, -, hr⟩ := (SMap.wf_cons d k v r).mp hm
    obtain ⟨hv', -, hr'⟩ := (SMap.wf_cons d k' v' r').mp hm'
    rcases Nat.lt_trichotomy k k' with hlt | rfl | hgt
    · exact absurd ((SMap.get_head k v r).symm.trans ((hget k).trans (SMap.get_of_lt hlt))) hv
    · have hval : v = v' := (SMap.get_head k v r).symm.trans ((hget k).trans (SMap.get_head k v' r'))
      have hrest : r = r' := SMap.eq_of_get_eq hr hr' fun j => by rw [SMap.get_tail hm, SMap.get_tail hm', hget]
      rw [hval, hrest]
    · exact absurd ((SMap.get_head k' v' r').symm.trans ((hget k').symm.trans (SMap.get_of_lt hgt))) hv'

end

/-- Settles O14: the canonical form makes a table the function it stands for (`notes/assumptions/6.md`). -/
theorem tablesReadBackWhatWasWritten : Obligations.TablesReadBackWhatWasWritten :=
  ⟨fun _ _ n v hm => ⟨SMap.get_set (SMap.rising_of_wf hm) n v, fun _ hne => SMap.get_set_of_ne hm hne v⟩,
    fun _ _ _ => SMap.eq_of_get_eq⟩

-- ===== bytes of the store =====

/-- Bytes outside those written read as before. -/
theorem byteAt_putBytes_of_outside {x : Nat} : ∀ (bs : List (BitVec 8)) {st : Bytes} {a : Nat}, Memory.wf st = true →
    x < a ∨ a + bs.length ≤ x → byteAt (putBytes st a bs) x = byteAt st x
  | [], _, _, _, _ => rfl
  | b :: r, st, a, hst, hout => by
    rw [List.length_cons] at hout
    rw [putBytes, byteAt_putBytes_of_outside r (SMap.wf_set st a b hst) (by omega)]
    exact SMap.get_set_of_ne hst (by omega) b

/-- Bytes that are written read back. -/
theorem byteAt_putBytes : ∀ (bs : List (BitVec 8)) {st : Bytes} {a i : Nat}, Memory.wf st = true → (hi : i < bs.length) →
    byteAt (putBytes st a bs) (a + i) = bs[i]
  | b :: r, st, a, 0, hst, _ => by
    rw [putBytes, byteAt_putBytes_of_outside r (SMap.wf_set st a b hst) (by omega)]
    exact SMap.get_set (SMap.rising_of_wf hst) a b
  | b :: r, st, a, i + 1, hst, hi => by
    rw [putBytes, show a + (i + 1) = a + 1 + i by omega, byteAt_putBytes r (SMap.wf_set st a b hst) (Nat.lt_of_succ_lt_succ hi)]
    rfl

-- ===== committing a record (R354, R355) =====

/-- The header of a block: its lap and where its first record starts. -/
def blkHeader (lap first : Nat) : List (BitVec 8) := leBytes 8 lap ++ leBytes 8 first ++ List.replicate 48 0

theorem length_blkHeader (lap first : Nat) : (blkHeader lap first).length = 64 := by
  simp [blkHeader, leBytes]

/-- The state once the block of the write position has been entered. -/
def State.entered (s : State) : State := if s.m.rcr.off = 0 then s.enterBlk s.m.rcr.blk s.m.rcr.lap 64 else s

theorem State.wf_entered {s : State} (hs : s.StoreCanonical) : Memory.wf s.entered.store = true := by
  unfold State.entered
  split
  · exact State.wf_enterBlk _ _ _ _ hs
  · exact hs

/-- Entering a block stores its header alone. -/
theorem State.byteAt_entered {s : State} (hs : s.StoreCanonical) {a : Nat}
    (ha : ¬(s.m.rcr.off = 0 ∧ s.m.rcr.blk * 4096 ≤ a ∧ a < s.m.rcr.blk * 4096 + 64)) : byteAt s.entered.store a = byteAt s.store a := by
  unfold State.entered
  split
  case isTrue hoff =>
    rw [State.enterBlk_store, ← blkHeader, byteAt_putBytes_of_outside _ hs (by rw [length_blkHeader]; omega)]
  case isFalse => rfl

/-- A record that fits in its block is stored at the write position. -/
theorem State.store_writeRcd_of_fits {s : State} {x : Rcd} (hfits : x.bytes.length ≤ 4096 - s.writeOff) :
    (s.writeRcd x).store = putBytes s.entered.store (s.m.rcr.blk * 4096 + s.writeOff) x.bytes := calc
  (s.writeRcd x).store = _ := congrArg State.store (if_pos hfits)
  _ = (s.entered.putRec (s.m.rcr.blk * 4096 + s.writeOff) x.bytes).store := rfl
  _ = putBytes s.entered.store (s.m.rcr.blk * 4096 + s.writeOff) x.bytes := State.putRec_store _ _ _

/-- The block that follows the one of the write position, and its lap. -/
def State.nextAt (s : State) : Nat × Nat := nextBlk s.entered.badBlk s.m.rcr.blk s.m.rcr.lap

theorem State.nextOf_eq (s : State) : s.nextOf = s.nextAt.1 := rfl

/-- A longer one goes on behind the header of the next block. -/
theorem State.store_writeRcd_of_cut {s : State} {x : Rcd} (hcut : 4096 - s.writeOff < x.bytes.length) :
    (s.writeRcd x).store =
      putBytes (putBytes (putBytes s.entered.store (s.m.rcr.blk * 4096 + s.writeOff) (x.bytes.take (4096 - s.writeOff)))
        (s.nextOf * 4096) (blkHeader s.nextAt.2 (64 + (x.bytes.length - (4096 - s.writeOff))))) (s.nextOf * 4096 + 64)
        (x.bytes.drop (4096 - s.writeOff)) := by
  rw [s.nextOf_eq]
  calc (s.writeRcd x).store
    _ = _ := congrArg State.store (if_neg hcut.not_ge)
    _ = (((s.entered.putRec (s.m.rcr.blk * 4096 + s.writeOff) (x.bytes.take (4096 - s.writeOff))).enterBlk s.nextAt.1 s.nextAt.2
          (64 + (x.bytes.length - (4096 - s.writeOff)))).putRec (s.nextAt.1 * 4096 + 64) (x.bytes.drop (4096 - s.writeOff))).store := rfl
    _ = _ := by rw [State.putRec_store, State.enterBlk_store, State.putRec_store, blkHeader]

/-- A record that is committed is stored from the write position on, and nothing is stored but the record and the headers of the blocks
that are entered. -/
theorem State.byteAt_writeRcd_of_fits {s : State} {x : Rcd} (hs : s.StoreCanonical) (hfits : x.bytes.length ≤ 4096 - s.writeOff) (i : Nat)
    (hi : i < x.bytes.length) : byteAt (s.writeRcd x).store (s.m.rcr.blk * 4096 + s.writeOff + i) = x.bytes[i] := by
  rw [State.store_writeRcd_of_fits hfits]
  exact byteAt_putBytes _ (State.wf_entered hs) hi

theorem State.byteAt_writeRcd_of_not_writesByte {s : State} {x : Rcd} (hs : s.StoreCanonical) {a : Nat}
    (ha : ¬s.writesByte x.bytes.length a) : byteAt (s.writeRcd x).store a = byteAt s.store a := by
  simp only [State.writesByte, not_or] at ha
  obtain ⟨hheader, hrecord, hrest⟩ := ha
  have hwf := State.wf_entered hs
  rcases Nat.lt_or_ge (4096 - s.writeOff) x.bytes.length with hcut | hfits
  · have htake : Memory.wf (putBytes s.entered.store (s.m.rcr.blk * 4096 + s.writeOff) (x.bytes.take (4096 - s.writeOff))) = true :=
      Memory.wf_putBytes _ _ _ hwf
    rw [State.store_writeRcd_of_cut hcut, byteAt_putBytes_of_outside _ (Memory.wf_putBytes _ _ _ htake) (by rw [List.length_drop]; omega),
      byteAt_putBytes_of_outside _ htake (by rw [length_blkHeader]; omega),
      byteAt_putBytes_of_outside _ hwf (by rw [List.length_take]; omega), State.byteAt_entered hs hheader]
  · rw [State.store_writeRcd_of_fits hfits, byteAt_putBytes_of_outside _ hwf (by omega), State.byteAt_entered hs hheader]

-- ===== a flush write (R350, R352) =====

/-- The oldest record leaves the buffer. -/
def State.unbuffered (s : State) (rest : List Rcd) : State := { s with m := { s.m with rcr := { s.m.rcr with buf := rest } } }

/-- The records that wait in the buffer have no part in where the next one goes. -/
theorem State.nextOf_unbuffered (s : State) (rest : List Rcd) : (s.unbuffered rest).nextOf = s.nextOf := by
  have hbad : (s.unbuffered rest).entered.badBlk = s.entered.badBlk := by
    unfold State.entered
    rw [show (s.unbuffered rest).m.rcr.off = s.m.rcr.off from rfl]
    split <;> rfl
  rw [State.nextOf_eq, State.nextOf_eq, State.nextAt, State.nextAt, hbad]
  rfl

theorem State.writesByte_unbuffered (s : State) (rest : List Rcd) (n a : Nat) :
    (s.unbuffered rest).writesByte n a ↔ s.writesByte n a := by
  rw [State.writesByte, State.writesByte, State.nextOf_unbuffered]
  rfl

/-- The budget of the flush lasts for a record, or does not count. -/
def State.affords (s : State) (x : Rcd) : Prop := s.m.rcr.exempt = true ∨ s.m.rcr.spent + s.flushCost x.len ≤ flushBudget

theorem State.affords.not_paused {s : State} {x : Rcd} (h : s.affords x) :
    ¬(!s.m.rcr.exempt && decide (flushBudget < s.m.rcr.spent + s.flushCost x.len)) = true := by
  rcases h with h | h
  · simp [h]
  · simp [Nat.not_lt.mpr h]

/-- The flush commits the oldest record. -/
theorem State.flushWrite_of_affords {s : State} {x : Rcd} {rest : List Rcd} (hbuf : s.m.rcr.buf = x :: rest)
    (hwrites : s.m.rcr.writes = true) (hbudget : s.affords x) :
    s.flushWrite false false =
      { (s.unbuffered rest).writeRcd x with m := ((s.unbuffered rest).writeRcd x).m.flushEnd } := by
  simp only [State.flushWrite, hbuf, hwrites, if_neg hbudget.not_paused, Bool.not_true, Bool.false_eq_true, if_false]
  rfl

/-- Settles O15: a flush write stores what committing its record stores. -/
theorem flushWritesOnlyItsRecord : Obligations.FlushWritesOnlyItsRecord := by
  intro s x rest hup hs hbuf hwrites hbudget _
  refine ⟨_, exec_of_event (f := fun s => s.flushWrite false false) rfl hup (State.flushWrite_of_affords hbuf hwrites hbudget), ?_, ?_⟩
  · exact fun hfits i hi => State.byteAt_writeRcd_of_fits (s := s.unbuffered rest) hs hfits i hi
  · exact fun a ha => State.byteAt_writeRcd_of_not_writesByte (s := s.unbuffered rest) hs (ha ∘ (s.writesByte_unbuffered rest _ a).mp)

end Sys2Proof.Machine
end

section
/-! PROOFS. The event recorder: what a flush does with a record, snapshots, triggers and the freeze, and the commands of REC_CMD
(`spec/13_event_recorder.md`). -/

namespace Sys2Proof.Machine

-- ===== the flush engine (R349, R350, R352, R356) =====

section
variable {s : State} {x : Rcd} {rest : List Rcd} (hbuf : s.m.rcr.buf = x :: rest) (hwrites : s.m.rcr.writes = true)
include hbuf hwrites

/-- A record whose buffer parity fails is dropped and counted. -/
theorem State.flushWrite_of_bufErr (writeErr : Bool) :
    s.flushWrite true writeErr =
      { s with m := (((s.unbuffered rest).m.missed x.snap).capture { src := 63, sub := 3, code := 0x32, counted := true }).flushEnd } := by
  simp only [State.flushWrite, hbuf, hwrites, Bool.not_true, Bool.false_eq_true, if_false, if_true]
  rfl

/-- A budget that does not last pauses the flush. -/
theorem State.flushWrite_of_budget (writeErr : Bool) (hexempt : s.m.rcr.exempt = false)
    (hspent : flushBudget < s.m.rcr.spent + s.flushCost x.len) :
    s.flushWrite false writeErr = { s with m := ({ s.m with rcr := { s.m.rcr with paused := true } } : Mach).flushEnd } := by
  simp only [State.flushWrite, hbuf, hwrites, hexempt, hspent, Bool.not_true, Bool.not_false, Bool.and_self, decide_true,
    Bool.false_eq_true, if_false, if_true]

/-- A write that fails verification skips its block. -/
theorem State.flushWrite_of_writeErr (hbudget : s.affords x) :
    s.flushWrite false true = { s.skipBlk with m := s.skipBlk.m.flushEnd } := by
  simp only [State.flushWrite, hbuf, hwrites, if_neg hbudget.not_paused, Bool.not_true, Bool.false_eq_true, if_false, if_true]

end

/-- A paused flush resumes once the budget counts anew. -/
theorem Mach.flushResume_of_paused {m : Mach} (hpaused : m.rcr.paused = true) (hspent : m.rcr.spent < flushBudget) :
    m.flushResume = { m with rcr := { m.rcr with paused := false } } := by
  simp only [Mach.flushResume, hpaused, hspent, decide_true, Bool.and_self, if_true]

-- ===== snapshots (R345, R346, R347) =====

/-- The world that set `k` is read with. -/
def Mach.snapWorld (m : Mach) (k : Nat) : World := if (m.reg (Reg.recSscfg + 4 * k)).getLsbD 30 then .s else .ns

/-- How many registers set `k` names. -/
def Mach.snapCount (m : Mach) (k : Nat) : Nat := min 64 ((m.reg (Reg.recSscfg + 4 * k)).extractLsb' 0 7).toNat

/-- The registers of the list of set `k` at `places`, read in turn. -/
def State.snapReads (s : State) (k : Nat) (places : List Nat) : State × List (BitVec 20 × W32) :=
  places.foldl (fun (x : State × List (BitVec 20 × W32)) i =>
    let a := x.1.m.rcr.lists.get 0 (k * 64 + i)
    ((x.1.readReg (s.m.snapWorld k) a.toNat).1, x.2 ++ [(a, (x.1.readReg (s.m.snapWorld k) a.toNat).2)])) (s, [])

section
variable {s : State} {k : Nat} (hrun : s.m.rcr.run.get 0 k ≠ 0) (htlp : s.m.ctrlRuns 2 = true)
include hrun htlp

/-- A triggered set whose reading has not begun is read and placed. -/
theorem State.snapDone_whole (hgot : s.m.rcr.got.get none k = none) :
    s.snapDone k false =
      let x := s.snapReads k (List.range (s.m.snapCount k))
      { x.1 with m := x.1.m.snapPlace k x.2 } := by
  simp only [State.snapDone, hrun, htlp, hgot]
  rfl

/-- Or its first register alone is read. -/
theorem State.snapDone_first (hgot : s.m.rcr.got.get none k = none) :
    s.snapDone k true =
      let x := s.snapReads k ((List.range (s.m.snapCount k)).take 1)
      { x.1 with m := { x.1.m with rcr := { x.1.m.rcr with got := x.1.m.rcr.got.set none k x.2.head? } } } := by
  simp only [State.snapDone, hrun, htlp, hgot]
  rfl

/-- The rest of a set whose first register has been read. -/
theorem State.snapDone_rest {y : BitVec 20 × W32} (hgot : s.m.rcr.got.get none k = some y) :
    s.snapDone k false =
      let x := s.snapReads k ((List.range (s.m.snapCount k)).drop 1)
      { x.1 with m := x.1.m.snapPlace k (y :: x.2) } := by
  simp only [State.snapDone, hrun, htlp, hgot]
  rfl

end

/-- Settles O55: each event meets an engine that may act. That SNAPSHOT_DONE may end the first read alone, and that a count above 64 acts
as 64, are entry 22 of the assumption log, and what the head scan takes for a record is entry 41. -/
theorem recorderWrites : Obligations.RecorderWrites := by
  refine ⟨?commit, ?bufErr, ?budget, ?writeErr, ?resume, ?headScan, ?whole, ?first, ?rest, ?period, ?timeout⟩
  case commit =>
    intro s x rest hup hbuf hwrites hbudget
    exact exec_of_event (f := fun s => s.flushWrite false false) rfl hup (State.flushWrite_of_affords hbuf hwrites hbudget)
  case bufErr =>
    intro s x rest writeErr hup hbuf hwrites
    exact exec_of_event (f := fun s => s.flushWrite true writeErr) rfl hup (State.flushWrite_of_bufErr hbuf hwrites writeErr)
  case budget =>
    intro s x rest writeErr hup hbuf hwrites hexempt hspent
    exact exec_of_event (f := fun s => s.flushWrite false writeErr) rfl hup (State.flushWrite_of_budget hbuf hwrites writeErr hexempt hspent)
  case writeErr =>
    intro s x rest hup hbuf hwrites hbudget
    exact exec_of_event (f := fun s => s.flushWrite false true) rfl hup (State.flushWrite_of_writeErr hbuf hwrites hbudget)
  case resume =>
    intro s hup hpaused hspent
    exact exec_of_run rfl hup (Mach.flushResume_of_paused hpaused hspent)
  case headScan =>
    intro s hup _ _
    exact exec_of_event (f := State.headScan) rfl hup rfl
  case whole =>
    intro s set hup hrun htlp hgot
    exact exec_of_event (f := fun s => s.snapDone set.val false) rfl hup (State.snapDone_whole hrun htlp hgot)
  case first =>
    intro s set hup hrun htlp hgot
    exact exec_of_event (f := fun s => s.snapDone set.val true) rfl hup (State.snapDone_first hrun htlp hgot)
  case rest =>
    intro s set y hup hrun htlp hgot
    exact exec_of_event (f := fun s => s.snapDone set.val false) rfl hup (State.snapDone_rest hrun htlp hgot)
  case period =>
    intro s hup hperiod
    exact exec_of_run rfl hup (if_neg hperiod)
  case timeout =>
    intro s hup hfrozen
    refine exec_of_run (f := fun m => m.unfreezeRec none) rfl hup ?_
    simp only [Mach.unfreezeRec, hfrozen, Bool.not_true, Bool.false_eq_true, if_false]
    rfl

-- ===== the commands of REC_CMD (R345, R347, R357, R358) =====

/-- SEEK of a number that no record has answers NOTFOUND. -/
theorem RecSt.seek_of_none {r : RecSt} (w : World) {v : W32} (hfind : (r.index.find? fun x => x.seq = v) = none) :
    r.seek w v = r.setCur w { r.cur w with cres := 2 } := by
  rw [RecSt.seek, hfind]

/-- SEEK of a record lands on it, where the world may see it. -/
theorem RecSt.seek_of_some {r : RecSt} (w : World) {v : W32} {x : RcdIdx} (hfind : (r.index.find? fun x => x.seq = v) = some x) :
    r.seek w v = if w = .ns ∧ x.sec = true then r.setCur w { r.cur w with cres := 3 } else r.land w (some x) := by
  rw [RecSt.seek, hfind]
  exact if_congr (by rw [Bool.and_eq_true, decide_eq_true_eq]) rfl rfl

/-- The word that a hand-over writes: the world, and the other fields as they stand. -/
def Mach.worldWord (m : Mach) (k : Nat) (world : World) : W32 :=
  (m.reg (Reg.recSscfg + 4 * k) &&& 0x8000007F#32) ||| (if world = .s then 0x40000000 else 0)

theorem Mach.worldWord_world (m : Mach) (k : Nat) (world : World) : (m.worldWord k world).getLsbD 30 = decide (world = .s) := by
  cases world <;> simp [Mach.worldWord]

/-- The S world may give a set either world. -/
theorem Mach.setWorld_s (m : Mach) (k : Nat) (world : World) :
    m.setWorld .s k world =
      (m.snapHandover k (decide (world = .s))).setReg (Reg.recSscfg + 4 * k) (m.worldWord k world &&& 0xC000007F#32) := by
  rw [← m.worldWord_world]
  rfl

/-- Settles O56: REC_CMD tells the commands apart by their op, and a write of REC_SSCFGk from the S world passes the world rule. NEXT and
PREV of a cursor that stands nowhere are entry 42 of the assumption log; what a hand-over leaves of a set is entry 22. -/
theorem recorderCommandsAct : Obligations.RecorderCommandsAct := by
  refine ⟨?flush, ?freeze, ?unfreeze, ?first, ?last, ?next, ?prev, ?seek, ?ack, ?snap, ?handover⟩
  case flush => exact fun s w hup => exec_of_command rfl hup rfl
  case freeze =>
    intro s w hup hfrozen hexempt
    refine exec_of_command (f := fun m => m.recCmd w Reg.recCmd 2 0) rfl hup ?_
    simp only [Mach.recCmd, Mach.freezeRec, hfrozen, hexempt, Bool.or_self, Bool.false_eq_true, if_false]
  case unfreeze =>
    intro s w hup hfrozen
    refine exec_of_command (f := fun m => m.recCmd w Reg.recCmd 3 0) rfl hup ?_
    simp only [Mach.recCmd, Mach.unfreezeRec, hfrozen, Bool.not_true, Bool.false_eq_true, if_false, Option.isNone_some, Option.some.injEq]
  case first => exact fun s w hup => exec_of_command rfl hup rfl
  case last => exact fun s w hup => exec_of_command rfl hup rfl
  case next => exact fun s w hup => exec_of_command rfl hup rfl
  case prev => exact fun s w hup => exec_of_command rfl hup rfl
  case seek =>
    intro s w hup
    refine exec_of_command (f := fun m => { m with rcr := m.rcr.seek w (m.reg (worldReg w Reg.recSeek)) }) rfl hup ?_
    cases hfind : s.m.rcr.index.find? fun x => x.seq = s.m.reg (worldReg w Reg.recSeek) with
    | none => exact congrArg (fun r => { s.m with rcr := r }) (RecSt.seek_of_none w hfind)
    | some x => exact congrArg (fun r => { s.m with rcr := r }) (RecSt.seek_of_some w hfind)
  case ack => exact fun s w hup => exec_of_command rfl hup rfl
  case snap => exact fun s w sets hup => exec_of_command rfl hup rfl
  case handover => exact fun s set world hup => exec_of_command rfl hup (s.m.setWorld_s set.val world)

end Sys2Proof.Machine
end

section
/-! PROOFS. POR, its release and the seven steps of bring-up (`spec/14_power_clocks_reset.md`). -/

namespace Sys2Proof.Machine

-- ===== the release of POR (R373, R382) =====

/-- A choice among the numbers below `n` that takes `k` wherever it meets it, and keeps it, ends with `k`. -/
theorem foldl_range_eq_of_wins {n k b : Nat} {f : Nat → Nat → Nat} (hb : b < n) (hk : k < n) (hlt : ∀ b < n, ∀ i < n, f b i < n)
    (hwins : ∀ b < n, f b k = k) (hkeeps : ∀ i < n, f k i = k) : (List.range n).foldl f b = k := by
  obtain ⟨before, behind, hrange⟩ := List.append_of_mem (List.mem_range.mpr hk)
  have hmem {i : Nat} (hi : i ∈ before ∨ i ∈ behind) : i < n :=
    List.mem_range.mp (hrange ▸ List.mem_append.mpr (hi.imp_right (List.mem_cons_of_mem k)))
  have hbefore : before.foldl f b < n :=
    List.foldlRecOn (motive := (· < n)) before f hb fun c hc i hi => hlt c hc i (hmem (.inl hi))
  rw [hrange, List.foldl_append, List.foldl_cons, hwins _ hbefore]
  exact List.foldlRecOn (motive := (· = k)) behind f rfl fun c hc i hi => hc ▸ hkeeps i (hmem (.inr hi))

/-- Slot `k` of the counter store holds the highest OPSEC, and no other slot holds it. -/
def State.HighestSlot (s : State) (k : Fin 16) : Prop := ∀ i : Fin 16, (s.cstore[i]).1.toNat < (s.cstore[k]).1.toNat ∨ i = k

/-- A slot of the counter store as POR_RELEASE reads it. -/
theorem State.slot_eq (s : State) (i : Nat) (hi : i < 16) : s.cstore.toList.getD i (0, 0) = s.cstore[i] := by
  rw [List.getD_eq_getElem _ _ (by rw [Vector.length_toList]; exact hi), Vector.getElem_toList]

/-- The slot that POR_RELEASE resumes from, of two. -/
def State.laterSlot (s : State) (b i : Nat) : Nat :=
  let x := s.cstore.toList.getD i (0, 0)
  let y := s.cstore.toList.getD b (0, 0)
  if y.1.toNat < x.1.toNat ∨ (y.1 = x.1 ∧ y.2.toNat < x.2.toNat) then i else b

theorem State.HighestSlot.foldl_laterSlot {s : State} {k : Fin 16} (hk : s.HighestSlot k) :
    (List.range 16).foldl s.laterSlot 0 = k.val := by
  have hlow (b : Nat) (hb : b < 16) : b = k.val ∨
      (s.cstore.toList.getD b (0, 0)).1.toNat < (s.cstore.toList.getD k.val (0, 0)).1.toNat := by
    rw [s.slot_eq b hb, s.slot_eq k k.isLt]
    exact (hk ⟨b, hb⟩).symm.imp_left (congrArg Fin.val)
  refine foldl_range_eq_of_wins (by decide) k.isLt (fun b hb i hi => ?_) (fun b hb => ?_) (fun i hi => ?_)
  · unfold State.laterSlot
    extract_lets
    split
    · exact hi
    · exact hb
  · rcases hlow b hb with rfl | hlt
    · exact ite_self _
    · exact if_pos (.inl hlt)
  · rcases hlow i hi with rfl | hlt
    · exact ite_self _
    · refine if_neg (not_or.mpr ⟨hlt.asymm, fun heq => ?_⟩)
      exact hlt.ne' (congrArg BitVec.toNat heq.1)

/-- Bring-up starts at step 1; OPSEC resumes from the highest slot, and PCC goes one on. -/
theorem State.porRelease_of_highest {s : State} {k : Fin 16} (hdown : s.m.up = false) (hk : s.HighestSlot k) :
    s.porRelease =
      { s with m := (({ s.m with up := true, step := 1, cslot := (k.val + 1) % 16 }.setReg Reg.aonOpsec (s.cstore[k]).1).setReg
        Reg.aonPcc (((s.cstore[k]).2 + 1).setWidth 32)).fused s.fuse } := by
  have hbest := hk.foldl_laterSlot
  unfold State.porRelease
  rw [if_neg (by simp [hdown])]
  unfold State.laterSlot at hbest
  simp only [hbest, s.slot_eq k k.isLt]
  rfl

-- ===== the steps of bring-up (R382, R383) =====

/-- Bring-up is at step `n`, and nothing stops it. -/
structure Mach.BringsUp (m : Mach) (n : Nat) : Prop where
  up : m.up = true
  halted : m.halted = false
  closed : m.rcr.closed = false
  drain : m.drain = none
  safe : m.safe = none
  lc : m.lc = none
  step : m.step = n

/-- Nothing stops bring-up. -/
theorem Mach.BringsUp.goes {m : Mach} {n : Nat} (h : m.BringsUp n) :
    (!m.up || m.halted || m.rcr.closed || m.drain.isSome || (m.lc.any fun l => l.stage ≠ 7) || m.safe.isSome) = false := by
  simp [h.up, h.halted, h.closed, h.drain, h.safe, h.lc]

theorem exec_bringupStepDone {s t : State} {img : Image} {n : Nat} (h : s.m.BringsUp n) (ht : s.m.BringsUp n → s.bringup img = t) :
    exec (.bringupStepDone img) s = .next t.settle :=
  exec_of_event (f := fun s => s.bringup img) rfl h.up (ht h)

section
variable {s : State} (img : Image)

theorem State.bringup_one (h : s.m.BringsUp 1) : s.bringup img = { s with m := s.m.stepEnd.step2In } := by
  simp only [State.bringup, h.goes, h.step, Bool.false_eq_true, if_false]

/-- Step 2 of a device that keeps its record store. -/
theorem State.bringup_two (hkeep : s.m.lcState ≠ 4 ∨ s.erased = true) (h : s.m.BringsUp 2) :
    s.bringup img =
      let t : State := { s with m := s.m.step2In }
      { t.headScan with m := t.headScan.m.stepEnd } := by
  have hno : (decide (s.m.lcState = 4) && !s.erased) = false := by
    rcases hkeep with hstate | herased
    · rw [decide_eq_false hstate, Bool.false_and]
    · rw [herased, Bool.not_true, Bool.and_false]
  simp only [State.bringup, h.goes, h.step, hno, Bool.false_eq_true, if_false]

/-- Step 2 of a decommissioned device without the erased marker. -/
theorem State.bringup_two_erases (hstate : s.m.lcState = 4) (herased : s.erased = false) (h : s.m.BringsUp 2) :
    s.bringup img =
      let t : State := { s.eraseStore with m := s.eraseStore.m.step2In }
      { t.headScan with m := t.headScan.m.stepEnd } := by
  simp only [State.bringup, h.goes, h.step, hstate, herased, decide_true, Bool.not_false, Bool.and_self, Bool.false_eq_true, if_false,
    if_true]

theorem State.bringup_three (hcp : s.m.ctrlRuns 0 = true) (h : s.m.BringsUp 3) :
    s.bringup img =
      { s with m := let m := s.m.step3 (keyOfWords s.fuse.key) img; if m.halted then m.lcOver else m.stepEnd } := by
  simp only [State.bringup, h.goes, h.step, hcp, Bool.not_true, Bool.false_eq_true, if_false]

theorem State.bringup_four (h : s.m.BringsUp 4) : s.bringup img = { s with m := (s.m.setBits Reg.rmpCtl 1).stepEnd } := by
  simp only [State.bringup, h.goes, h.step, Bool.false_eq_true, if_false]

theorem State.bringup_five (h : s.m.BringsUp 5) : s.bringup img = { s with m := (s.m.step5.stepEnd).step6In } := by
  simp only [State.bringup, h.goes, h.step, Bool.false_eq_true, if_false]

/-- No populated port is DOWN: step 6 may end. -/
def Mach.AllTrained (m : Mach) : Prop := (List.range 28).all (fun p => !m.populated p || decide ((m.port p).st ≠ .down)) = true

theorem Mach.AllTrained.none_down {m : Mach} (h : m.AllTrained) :
    ((List.range 28).any fun p => m.populated p && decide ((m.port p).st = .down)) = false := by
  rw [List.any_eq_false]
  intro p hp
  have htrained := List.all_eq_true.mp h p hp
  rcases (Bool.or_eq_true ..).mp htrained with hpop | hst
  · simp [Bool.not_eq_true' _ ▸ hpop]
  · simp [of_decide_eq_true hst]

theorem State.bringup_six (htrained : s.m.AllTrained)
    (hseeds : s.m.seeds.find? (fun x => (s.m.port (16 + x.2.2)).st = .fenced) = none) (h : s.m.BringsUp 6) :
    s.bringup img = { s with m := s.m.stepEnd.step7In } := by
  simp only [State.bringup, h.goes, h.step, htrained.none_down, hseeds, Bool.false_eq_true, if_false]

/-- A seed whose port is fenced refuses the image. -/
theorem State.bringup_six_refuses {x : Nat × Nat × Nat} (htrained : s.m.AllTrained)
    (hseeds : s.m.seeds.find? (fun x => (s.m.port (16 + x.2.2)).st = .fenced) = some x) (h : s.m.BringsUp 6) :
    s.bringup img = { s with m := (s.m.imgRefuse 12 (16 + x.2.2)).lcOver } := by
  simp only [State.bringup, h.goes, h.step, htrained.none_down, hseeds, Bool.false_eq_true, if_false]

theorem State.bringup_seven (hfill : s.m.tmpq.any (fun (o : TmpOp) => o.why = TmpWhy.spill) = false) (h : s.m.BringsUp 7) :
    s.bringup img = { s with m := (s.m.step7.setReg Reg.pwrBuPct 10000).lcOver } := by
  simp only [State.bringup, h.goes, h.step, hfill, Bool.false_eq_true, if_false]

end

/-- Settles O49: the step that runs decides what its end does. How many copies a burning that POR cuts short leaves is entry 102 of the
assumption log, and the fill of step 7 is entry 19. -/
theorem powerOnAndBringUp : Obligations.PowerOnAndBringUp := by
  refine ⟨fun _ => rfl, ?release, ?one, ?two, ?twoErases, ?three, ?four, ?five, ?six, ?sixRefuses, ?seven⟩
  case release => exact fun s k hdown hk => congrArg _ (State.porRelease_of_highest hdown hk)
  case one =>
    intro s img hup hhalted hclosed hdrain hsafe hlc hstep
    exact exec_bringupStepDone ⟨hup, hhalted, hclosed, hdrain, hsafe, hlc, hstep⟩ (State.bringup_one img)
  case two =>
    intro s img hup hhalted hclosed hdrain hsafe hlc hstep hkeep
    exact exec_bringupStepDone ⟨hup, hhalted, hclosed, hdrain, hsafe, hlc, hstep⟩ (State.bringup_two img hkeep)
  case twoErases =>
    intro s img hup hhalted hclosed hdrain hsafe hlc hstep hstate herased
    exact exec_bringupStepDone ⟨hup, hhalted, hclosed, hdrain, hsafe, hlc, hstep⟩ (State.bringup_two_erases img hstate herased)
  case three =>
    intro s img hup hhalted hclosed hdrain hsafe hlc hstep hcp
    exact exec_bringupStepDone ⟨hup, hhalted, hclosed, hdrain, hsafe, hlc, hstep⟩ (State.bringup_three img hcp)
  case four =>
    intro s img hup hhalted hclosed hdrain hsafe hlc hstep
    exact exec_bringupStepDone ⟨hup, hhalted, hclosed, hdrain, hsafe, hlc, hstep⟩ (State.bringup_four img)
  case five =>
    intro s img hup hhalted hclosed hdrain hsafe hlc hstep
    exact exec_bringupStepDone ⟨hup, hhalted, hclosed, hdrain, hsafe, hlc, hstep⟩ (State.bringup_five img)
  case six =>
    intro s img hup hhalted hclosed hdrain hsafe hlc hstep htrained hseeds
    exact exec_bringupStepDone ⟨hup, hhalted, hclosed, hdrain, hsafe, hlc, hstep⟩ (State.bringup_six img htrained hseeds)
  case sixRefuses =>
    intro s img x hup hhalted hclosed hdrain hsafe hlc hstep htrained hseeds
    exact exec_bringupStepDone ⟨hup, hhalted, hclosed, hdrain, hsafe, hlc, hstep⟩ (State.bringup_six_refuses img htrained hseeds)
  case seven =>
    intro s img hup hhalted hclosed hdrain hsafe hlc hstep hfill
    exact exec_bringupStepDone ⟨hup, hhalted, hclosed, hdrain, hsafe, hlc, hstep⟩ (State.bringup_seven img hfill)

end Sys2Proof.Machine
end

section
/-! PROOFS. Power domains, the power and the clock of a slice, and the comparator of the slice clock
(`spec/14_power_clocks_reset.md`). -/

namespace Sys2Proof.Machine

-- ===== what CP takes up (R363, R365) =====

section
variable {m : Mach} {d : Nat}

theorem Mach.domNext_of_nil (hq : m.domq = []) : m.domNext = m := if_pos hq

/-- With no transition waiting, a domain is where it was asked to be. -/
theorem Mach.domWant_of_nil (hq : m.domq = []) : m.domWant d = m.dom d := by
  simp only [Mach.domWant, hq, List.filter_nil, List.getLast?_nil]

theorem Mach.domStart_on_off (hq : m.domq = []) (hoff : m.dom d = .off) : m.domStart d true = m.domTo d .waking := by
  simp only [Mach.domStart, Mach.domWant_of_nil hq, hoff, Bool.not_true, Bool.false_eq_true, if_false]

theorem Mach.domStart_on_on (hq : m.domq = []) (hon : m.dom d = .on) : m.domStart d true = m.domEnd := by
  simp only [Mach.domStart, Mach.domWant_of_nil hq, hon, if_true]

theorem Mach.domStart_off_on (hq : m.domq = []) (hon : m.dom d = .on) :
    m.domStart d false = if d < 204 then m.crmDrain (d / 6) else m.moveDom d .draining := by
  simp only [Mach.domStart, Mach.domWant_of_nil hq, hon, Bool.false_eq_true, if_false]

theorem Mach.domStart_off_off (hq : m.domq = []) (hoff : m.dom d = .off) : m.domStart d false = m.domEnd := by
  simp only [Mach.domStart, Mach.domWant_of_nil hq, hoff, Bool.not_false, if_true]

/-- The machine with a PWR_DOMCMD to carry out. -/
def Mach.domAsked (m : Mach) (d : Nat) (on : Bool) : Mach := { m with domCmd := some (d, on) }

/-- CP starts the command that is asked for where no transition waits. -/
theorem Mach.domResume_of_runs {on : Bool} (hcp : m.ctrlRuns 0 = true) (hq : m.domq = []) :
    (m.domAsked d on).domResume = (m.domAsked d on).domStart d on := by
  have hcp' : (m.domAsked d on).ctrlRuns 0 = true := hcp
  have hq' : (m.domAsked d on).domq = [] := hq
  have hcmd : (m.domAsked d on).domCmd = some (d, on) := rfl
  simp only [Mach.domResume, hcp', Mach.domNext_of_nil hq', hcmd, hq', List.any_nil, Bool.not_true, Bool.false_eq_true, if_false]

/-- While CP is in reset the command waits. -/
theorem Mach.domResume_of_reset (hcp : m.ctrlRuns 0 = false) : m.domResume = m := by
  rw [Mach.domResume, hcp]
  rfl

/-- A command that nothing refuses, and that is not held, is asked for. -/
theorem Mach.domCommand_of_allowed {w : World} {on : Bool} (x : Nat) (hwhy : m.domWhy w d on = none)
    (hfree : on = true ∨ w = .s ∨ m.claimed d = false) : m.domCommand w x d on = (m.domAsked d on).domResume := by
  have hheld : (!on && decide (w = .ns) && m.claimed d) = false := by
    rcases hfree with rfl | hfree
    · rfl
    · rw [Bool.and_assoc, not_held_of hfree, Bool.and_false]
  simp only [Mach.domCommand, hwhy, hheld, Bool.false_eq_true, if_false]
  rfl

-- ===== the ends of waking and draining (R363, R366) =====

theorem Mach.wakeDone_of_waking (hwaking : m.dom d = .waking) :
    m.wakeDone d =
      (let m := m.moveDom d .on
       let m := if d < 204 ∧ 1 ≤ d % 6 ∧ d % 6 ≤ 4 then
           m.modS (d / 6) fun v => { v with
             bank := if v.bank.getD (d % 6 - 1) .off = .waking then v.bank.setIfInBounds (d % 6 - 1) .on else v.bank
             auto := v.auto &&& ~~~ (1#4 <<< (d % 6 - 1)) }
         else m
       let m := if 214 ≤ d ∧ d < 242 then m.shared.trainGo (d - 214) else m
       m.domResume) := by
  simp only [Mach.wakeDone, hwaking, ne_eq, not_true_eq_false, if_false, Bool.and_eq_true, decide_eq_true_eq, and_assoc]

section
variable (hdraining : m.dom d = .draining) (hcp : m.ctrlRuns 0 = true)
include hdraining hcp

theorem Mach.drainDone_of_runs :
    m.drainDone d =
      if d < 204 then
        if d % 6 = 0 then if m.idle (d / 6) && (m.slice (d / 6)).slot.isEmpty then m.sliceOff (d / 6) else m
        else if !(m.slice (d / 6)).slot.isEmpty ||
            (m.slice (d / 6)).busy.any (fun e => e.2.st = .active && e.2.kind = .atm && e.2.far && e.2.crm.use) then m
        else ((m.modS (d / 6) fun v => { v with ctag := [], cnru := [], cdat := [] }).moveDom d .off).domResume
      else ((m.moveDom d .off).shared).domResume := by
  simp only [Mach.drainDone, hdraining, hcp, ne_eq, not_true_eq_false, decide_false, Bool.not_true, Bool.or_self, Bool.false_eq_true,
    if_false]

/-- An array goes OFF with everything in it once no queue is resident and no atomic that hits it is left. -/
theorem Mach.drainDone_array (hd : d < 204) (harray : d % 6 ≠ 0) (hslot : (m.slice (d / 6)).slot = [])
    (hatm : (m.slice (d / 6)).busy.any (fun e => e.2.st = .active && e.2.kind = .atm && e.2.far && e.2.crm.use) = false) :
    m.drainDone d = ((m.modS (d / 6) fun v => { v with ctag := [], cnru := [], cdat := [] }).moveDom d .off).domResume := by
  rw [Mach.drainDone_of_runs hdraining hcp, if_pos hd, if_neg harray, hslot, hatm]
  rfl

/-- The logic of a slice that is idle and holds no queue goes OFF. -/
theorem Mach.drainDone_logic (hd : d < 204) (hlogic : d % 6 = 0) (hidle : m.idle (d / 6) = true) (hslot : (m.slice (d / 6)).slot = []) :
    m.drainDone d = m.sliceOff (d / 6) := by
  rw [Mach.drainDone_of_runs hdraining hcp, if_pos hd, if_pos hlogic, hslot, hidle]
  rfl

end

end

/-- Settles O50: a command passes its refusals, and CP takes it up where nothing waits before it. That what CP owes waits while it is in
reset is Table 12-12 as entry 45 of the assumption log reads it. -/
theorem domainsSwitch : Obligations.DomainsSwitch := by
  refine ⟨?waits, ?onOff, ?onOn, ?offOn, ?offOff, ?woken, ?drained, ?array, ?logic⟩
  case waits =>
    intro s w dom hup hwhy hcp
    exact exec_of_command rfl hup ((Mach.domCommand_of_allowed _ hwhy (.inl rfl)).trans (Mach.domResume_of_reset hcp))
  case onOff =>
    intro s w dom hup hwhy hoff hcp hq
    exact exec_of_command rfl hup ((Mach.domCommand_of_allowed _ hwhy (.inl rfl)).trans
      ((Mach.domResume_of_runs hcp hq).trans (Mach.domStart_on_off hq hoff)))
  case onOn =>
    intro s w dom hup hwhy hon hcp hq
    exact exec_of_command rfl hup ((Mach.domCommand_of_allowed _ hwhy (.inl rfl)).trans
      ((Mach.domResume_of_runs hcp hq).trans (Mach.domStart_on_on hq hon)))
  case offOn =>
    intro s w dom hup hwhy hfree hon hcp hq
    exact exec_of_command rfl hup ((Mach.domCommand_of_allowed _ hwhy (.inr hfree)).trans
      ((Mach.domResume_of_runs hcp hq).trans (Mach.domStart_off_on hq hon)))
  case offOff =>
    intro s w dom hup hwhy hfree hoff hcp hq
    exact exec_of_command rfl hup ((Mach.domCommand_of_allowed _ hwhy (.inr hfree)).trans
      ((Mach.domResume_of_runs hcp hq).trans (Mach.domStart_off_off hq hoff)))
  case woken =>
    intro s dom hup hwaking
    exact exec_of_run (f := fun m => m.wakeDone dom.toNat) rfl hup (Mach.wakeDone_of_waking hwaking)
  case drained =>
    intro s dom hup hdraining hcp hd
    exact exec_of_run (f := fun m => m.drainDone dom.toNat) rfl hup
      ((Mach.drainDone_of_runs hdraining hcp).trans (if_neg hd.not_gt))
  case array =>
    intro s dom hup hdraining hd harray hcp hslot hatm
    exact exec_of_run (f := fun m => m.drainDone dom.toNat) rfl hup (Mach.drainDone_array hdraining hcp hd harray hslot hatm)
  case logic =>
    intro s dom hup hdraining hd hlogic hcp hidle hslot
    exact exec_of_run (f := fun m => m.drainDone dom.toNat) rfl hup (Mach.drainDone_logic hdraining hcp hd hlogic hidle hslot)

-- ===== the power of a slice (R367, R370) =====

section
variable {m : Mach} {h : Nat}

/-- An idle active slice whose logic is ON is gated. -/
theorem Mach.gate_of_idle (hdom : m.dom (sliceDom h 0) = .on) (hrole : (m.slice h).role = .active) (hidle : m.idle h = true) :
    m.gate h = m.modS h fun v => { v with gated := true } := by
  simp [Mach.gate, hdom, hrole, hidle]

/-- It drains once Tribex is up, where its array is empty. -/
theorem Mach.sliceDownStart_of_idle (hrole : (m.slice h).role = .active) (hdom : m.dom (sliceDom h 0) = .on) (hidle : m.idle h = true)
    (hbare : (m.slice h).bare = true) (hstep : m.step = 8) (hcp : m.ctrlRuns 0 = true) :
    m.sliceDownStart h = Mach.fin ((m.moveDom (sliceDom h 0) .draining).pageOutAll h) := by
  simp [Mach.sliceDownStart, hdom, hrole, hidle, hbare, hstep, hcp]

/-- A flit ends the power-down of a slice that still drains. -/
theorem Mach.sliceWake_of_draining (hrole : (m.slice h).role = .active) (hdom : m.dom (sliceDom h 0) = .draining) :
    m.sliceWake h = m.domTo (sliceDom h 0) .on := by
  simp only [Mach.sliceWake, hrole, hdom, ne_eq, not_true_eq_false, if_false]

/-- The banks that were ON when the slice went OFF wake with it. -/
def Mach.banksWake (m : Mach) (h : Nat) : Mach :=
  (List.range 4).foldl (fun (m : Mach) b =>
    if (m.slice h).bank.getD b .off = .on then
      (m.modS h fun v => { v with bank := v.bank.setIfInBounds b .waking }).domTo (sliceDom h (1 + b)) .waking
    else m) m

/-- A flit starts a slice that is OFF, with the banks and the array it had. -/
theorem Mach.sliceWake_of_off (hrole : (m.slice h).role = .active) (hdom : m.dom (sliceDom h 0) = .off) (hstep : m.step = 8) :
    m.sliceWake h =
      let m := (m.domTo (sliceDom h 0) .waking).banksWake h
      if (m.slice h).crmIdle then ((m.modS h fun v => { v with crmIdle := false }).domTo (sliceDom h 5) .waking).shared else m.shared := by
  simp only [Mach.sliceWake, hrole, hdom, hstep, ne_eq, not_true_eq_false, if_false]
  exact apply_ite Mach.shared _ _ _

end

-- ===== the slice clock (R369, R372) =====

section
variable {m : Mach}

/-- The clock changes to its goal, where it runs and is not there or on the way there. -/
def Mach.toGoal (m : Mach) : Mach := if m.cur = 0 ∨ m.freqGoal = m.freqTo.getD m.cur then m else { m with freqTo := some m.freqGoal }

/-- PWR_FREQ with both frequencies stored. -/
def Mach.freqStored (m : Mach) (data : W32) : Mach :=
  m.setReg Reg.pwrFreq ((m.reg Reg.pwrFreq &&& ~~~ (0x1F001F#32)) ||| (data &&& 0x1F001F#32))

theorem Mach.freqSet_of_allowed {w : World} (x : Nat) {data : W32} (hto : m.freqTo = none)
    (hset : m.freqOk (data.extractLsb' 0 5).toNat = true) (hthr : m.freqOk (data.extractLsb' 16 5).toNat = true)
    (hfree : w = .s ∨ m.active.any (fun h => m.claimed (sliceDom h 0)) = false) :
    m.freqSet w x data data =
      let m := m.freqStored data
      if m.cur = 0 ∨ m.throttle = true ∧ (data.extractLsb' 16 5).toNat ≤ (data.extractLsb' 0 5).toNat ∧ m.freqGoal = m.cur then m
      else { m with freqTo := some m.freqGoal } := by
  simp only [Mach.freqSet, hto, hset, hthr, not_held_of hfree, Option.isSome_none, Bool.not_true, Bool.or_self, Bool.false_eq_true, if_false,
    ite_or, Bool.and_eq_true, decide_eq_true_eq, and_assoc]
  rfl

theorem Mach.freqDone_of_free {f : BitVec 5} (hto : m.freqTo = some f) (hrehome : m.rehome.any (·.freeze) = false)
    (hcp : m.ctrlRuns 0 = true) : m.freqDone = ({ m with cur := f, freqTo := none } : Mach).setEvt 5 := by
  simp only [Mach.freqDone, hto, hrehome, hcp, Bool.not_true, Bool.or_self, Bool.false_eq_true, if_false]

theorem Mach.tmon0_of_up (hup : m.up = true) :
    m.tmon0 = ((({ m with tmon := m.tmon ||| 1, throttle := true } : Mach).setEvt 2).powerRec 0 0 0 4 false true).toGoal := by
  simp only [Mach.tmon0, hup, Bool.not_true, Bool.false_eq_true, if_false, Mach.toGoal, ite_or]
  rfl

theorem Mach.tmon0Off_of_tripped (htrip : m.tmon.getLsbD 0 = true) :
    m.tmon0Off = ({ m with tmon := m.tmon &&& 2, throttle := false } : Mach).toGoal := by
  simp only [Mach.tmon0Off, htrip, Bool.not_true, Bool.false_eq_true, if_false, Mach.toGoal, Bool.or_eq_true, decide_eq_true_eq]
  rfl

end

/-- Settles O51: each event meets a slice, or a clock, that it may move. That queues are paged out before the logic drains, and that a
wake returns the banks and the array, are entry 37 of the assumption log; TMON0's POWER record is R374's. -/
theorem slicePowerAndClocks : Obligations.SlicePowerAndClocks := by
  refine ⟨?gate, ?ungate, ?down, ?wakeDraining, ?wakeOff, ?freqSet, ?relock, ?trip, ?clear⟩
  case gate =>
    intro s hs hup hdom hrole hidle
    exact exec_of_run (f := fun m => m.gate hs.val) rfl hup (Mach.gate_of_idle hdom hrole hidle)
  case ungate => exact fun s hs hup => exec_of_run (f := fun m => m.ungate hs.val) rfl hup rfl
  case down =>
    intro s hs hup hrole hdom hidle hbare hstep hcp
    exact exec_of_run (f := fun m => m.sliceDownStart hs.val) rfl hup (Mach.sliceDownStart_of_idle hrole hdom hidle hbare hstep hcp)
  case wakeDraining =>
    intro s hs hup hrole hdom
    exact exec_of_run (f := fun m => m.sliceWake hs.val) rfl hup (Mach.sliceWake_of_draining hrole hdom)
  case wakeOff =>
    intro s hs hup hrole hdom hstep
    exact exec_of_run (f := fun m => m.sliceWake hs.val) rfl hup (Mach.sliceWake_of_off hrole hdom hstep)
  case freqSet =>
    intro s w data hup hto hset hthr hfree
    exact exec_of_command rfl hup (Mach.freqSet_of_allowed _ hto hset hthr hfree)
  case relock =>
    intro s f hup hto hrehome hcp
    exact exec_of_run rfl hup (Mach.freqDone_of_free hto hrehome hcp)
  case trip =>
    intro s hup
    exact exec_of_run rfl hup (Mach.tmon0_of_up hup)
  case clear =>
    intro s hup htrip
    exact exec_of_run rfl hup (Mach.tmon0Off_of_tripped htrip)

end Sys2Proof.Machine
end

section
/-! PROOFS. The memory and the logic self-test (`spec/14_power_clocks_reset.md`). -/

namespace Sys2Proof.Machine

-- ===== the memory self-test (R384, R385) =====

section
variable {m : Mach} {b : Mbist}

/-- The results of the last test are cleared. -/
def Mach.mbCleared (m : Mach) : Mach := ((m.setFld Reg.tstMbstat 0 4 0).setReg Reg.tstMbPos 0).setReg Reg.tstMbPct 0

/-- A test starts where R385 does not refuse it and it is not held: a Crema bank loses its lines, a way-bank is evacuated. -/
theorem Mach.mbStart_of_allowed {w : World} {h : Nat} {crm : Bool} {bank : Nat} (hwhy : m.mbWhy h crm bank = none)
    (hfree : w = .s ∨ m.claimed (sliceDom h 0) = false) :
    m.mbStart w h crm bank =
      { (if crm then m.mbCleared.dropWays h fun x => decide (x / 4 = bank) else m.mbCleared.evacGo h (some bank)) with
        mbist := some { hs := h, crm, bank, stage := 1 } } := by
  simp only [Mach.mbStart, hwhy, not_held_of hfree, Bool.false_eq_true, if_false]
  rfl

/-- ABORT ends a running test with result 4. -/
theorem Mach.mbAbort_of_running {w : World} (v : W32) (hrun : m.mbist = some b) (hfree : w = .s ∨ m.claimed (sliceDom b.hs 0) = false) :
    m.mbAbort w v = m.mbEnd 4 := by
  simp only [Mach.mbAbort, hrun, not_held_of hfree, Bool.false_eq_true, if_false]

variable (hrun : m.mbist = some b)
include hrun

/-- Stage 1 ends once no evacuation of a way-bank is left. -/
theorem Mach.mbStage_one (fail : Option (Nat × Nat)) (hstage : b.stage = 1) (hempty : b.crm = true ∨ (m.slice b.hs).evac = none) :
    m.mbStage fail = ({ m with mbist := some { b with stage := 2 } } : Mach).setReg Reg.tstMbPct 1000 := by
  have hdone : (!b.crm && (m.slice b.hs).evac.isSome) = false := by
    rcases hempty with hcrm | hevac
    · rw [hcrm, Bool.not_true, Bool.false_and]
    · rw [hevac, Option.isSome_none, Bool.and_false]
  simp only [Mach.mbStage, hrun, hstage, hdone, Bool.false_eq_true, if_false]

/-- Stage 2 marks the bank bad where it found a failure. -/
theorem Mach.mbStage_two_failed (x y : Nat) (hstage : b.stage = 2) :
    m.mbStage (some (x, y)) =
      ((({ m with mbist := some { b with stage := 3, fail := true } } : Mach).setReg Reg.tstMbPct 9000).setBits (badReg b.crm b.hs)
        (1#32 <<< (4 * (b.hs % 8) + b.bank))).setReg Reg.tstMbPos (BitVec.ofNat 32 (x * 65536 + y)) := by
  simp only [Mach.mbStage, hrun, hstage, Option.isSome_some]

theorem Mach.mbStage_two_passed (hstage : b.stage = 2) :
    m.mbStage none =
      (({ m with mbist := some { b with stage := 3, fail := false } } : Mach).setReg Reg.tstMbPct 9000).setReg Reg.tstMbPos
        (if b.crm then 1023 else 16383) := by
  simp only [Mach.mbStage, hrun, hstage, Option.isSome_none]

/-- Stage 3 ends the test. -/
theorem Mach.mbStage_three (fail : Option (Nat × Nat)) (hstage : b.stage = 3) :
    m.mbStage fail = (m.mbEnd (if b.fail then 3 else 0)).setReg Reg.tstMbPct 10000 := by
  simp only [Mach.mbStage, hrun, hstage]

end

-- ===== the logic self-test (R387, R388) =====

section
variable {m : Mach}

theorem Mach.lbStart_of_allowed (hok : m.lbOk = true) :
    m.lbStart .s = { (m.setFld Reg.tstLbstat 0 4 0).setReg Reg.tstLbPct 0 with lbist := true } := by
  simp [Mach.lbStart, hok]

/-- The failures and the result are shown, and the arbiters return to reset. -/
def Mach.lbShown (m : Mach) (res0 res1 : W32) (result : Nat) : Mach :=
  let m := (((({ m with lbist := false } : Mach).setReg Reg.tstLbres0 res0).setReg Reg.tstLbres1 res1).setReg Reg.tstLbPct 10000).setFld
    Reg.tstLbstat 0 4 result
  (List.range 34).foldl (fun (m : Mach) h => m.modS h fun v => { v with rr := 0 }) m

/-- The result of the test: 3 where it reports a failure. -/
def lbResult (res0 res1 : W32) : Nat := if res0 = 0 ∧ res1 = 0 then 0 else 3

/-- Does the test report a failure of slice `h`? -/
def lbFails (res0 res1 : W32) (h : Nat) : Bool := if h < 32 then res0.getLsbD h else res1.getLsbD (h - 32)

/-- What becomes of a slice that the test reports. -/
def Mach.lbFailed (m : Mach) (h : Nat) : Mach :=
  match (m.slice h).role with
  | .active =>
    let m := (m.modS h fun v => { v with run := .stopped }).capture { src := h, code := 0x1D, cls := .f }
    { m with due := m.due ++ [.slice h true .fault] }
  | .spare => m.modS h fun v => { v with role := .unusable }
  | _ => m

/-- What becomes of slice `h` at the end of the test. -/
def Mach.lbJudged (res0 res1 : W32) (m : Mach) (h : Nat) : Mach := if lbFails res0 res1 h = false then m else m.lbFailed h

/-- At the end of the test each slice that it reports is stopped, or unusable. -/
theorem Mach.lbEnd_of_running {res0 res1 : W32} (hrun : m.lbist = true) :
    m.lbEnd res0 res1 =
      (List.range 34).foldl (Mach.lbJudged res0 (res1 &&& 0x7FF)) (m.lbShown res0 (res1 &&& 0x7FF) (lbResult res0 (res1 &&& 0x7FF))) := by
  have hjudged : Mach.lbJudged res0 (res1 &&& 0x7FF) =
      fun (m : Mach) h => if !lbFails res0 (res1 &&& 0x7FF) h then m else m.lbFailed h :=
    funext₂ fun _ _ => if_congr (iff_of_eq (Bool.not_eq_true' _).symm) rfl rfl
  rw [Mach.lbEnd, if_neg (by simp [hrun]), hjudged]
  rfl

/-- A test that reports nothing does no more than show it. -/
theorem Mach.lbEnd_of_passed (hrun : m.lbist = true) : m.lbEnd 0 0 = m.lbShown 0 0 0 := by
  have hnone (m : Mach) (h : Nat) : Mach.lbJudged 0 0 m h = m := if_pos (by simp [lbFails])
  rw [Mach.lbEnd_of_running hrun, show (0 : W32) &&& 0x7FF = 0 from rfl, show lbResult 0 0 = 0 from rfl]
  exact List.foldl_fixed' (hnone _) _

end

theorem exec_mbistStageDone (fail : Option (Fin 16 × Fin 16384)) (s : State) :
    exec (.mbistStageDone fail) s = s.run fun m => m.mbStage (fail.map fun x => (x.1.val, x.2.val)) := rfl

/-- Settles O57: each stage of a test has an end of its own. That the logic self-test returns the arbiters alone to reset, and that an
ABORT in stage 1 is an aborted evacuation, are entry 40 of the assumption log. -/
theorem selfTestsRun : Obligations.SelfTestsRun := by
  refine ⟨?start, ?abort, ?one, ?twoFailed, ?twoPassed, ?three, ?lbStart, ?lbPassed, ?lbEnd⟩
  case start =>
    intro s w hs tgt bank hup hwhy hfree
    exact exec_of_command rfl hup (Mach.mbStart_of_allowed hwhy hfree)
  case abort =>
    intro s w t hup hrun hfree
    exact exec_of_command rfl hup (Mach.mbAbort_of_running _ hrun hfree)
  case one =>
    intro s fail b hup hrun hstage hempty
    exact exec_of_run (exec_mbistStageDone fail s) hup (Mach.mbStage_one hrun _ hstage hempty)
  case twoFailed =>
    intro s x y b hup hrun hstage
    exact exec_of_run (exec_mbistStageDone (some (x, y)) s) hup (Mach.mbStage_two_failed hrun _ _ hstage)
  case twoPassed =>
    intro s b hup hrun hstage
    exact exec_of_run (exec_mbistStageDone none s) hup (Mach.mbStage_two_passed hrun hstage)
  case three =>
    intro s fail b hup hrun hstage
    exact exec_of_run (exec_mbistStageDone fail s) hup (Mach.mbStage_three hrun _ hstage)
  case lbStart =>
    intro s hup hok
    exact exec_of_command rfl hup (Mach.lbStart_of_allowed hok)
  case lbPassed =>
    intro s hup hrun
    exact exec_of_run (f := fun m => m.lbEnd 0 0) rfl hup (Mach.lbEnd_of_passed hrun)
  case lbEnd =>
    intro s res0 res1 hup hrun
    exact exec_of_run (f := fun m => m.lbEnd res0 res1) rfl hup (Mach.lbEnd_of_running hrun)

end Sys2Proof.Machine
end

section
/-! PROOFS. Lifecycle requests and their stages, the raise of a minimum, and the held requests (`spec/15_security_lifecycle.md`). -/

namespace Sys2Proof.Machine

-- ===== requests that reach the fuses or the stores =====

/-- A request whose effect may reach the stores answers OK with what it makes of the state. -/
theorem exec_of_answered {c : Instr} {s t : State} {f : State → State} (hexec : exec c s = s.request f) (hup : s.m.up = true)
    (hf : f s = t) : exec c s = .next t.answered := by
  rw [hexec, State.request, State.mgmt, hup, hf]
  rfl

/-- The SEC page is open to the S world, and to NS in BLANK. -/
theorem not_shut_of {w : World} {state : Nat} (hworld : w = .s ∨ state = 0) : (decide (w = .ns) && decide (state ≠ 0)) = false := by
  rcases hworld with rfl | rfl
  · rfl
  · exact Bool.and_false _

section
variable {s : State} {w : World} (hworld : w = .s ∨ s.m.lcState = 0)
include hworld

-- ===== requests (R402, R405) =====

/-- The key that PROVISIONED fuses, as the registers hold it. -/
def Mach.newKey (m : Mach) : Nat × Nat := keyOfWords ((List.range 24).map fun i => m.reg (Reg.secKey + 4 * i))

/-- A transition to `target` starts at its stage 1. -/
def Mach.lcBegun (m : Mach) (target : Fin 5) : Mach :=
  { ((m.setFld Reg.secLcstat 12 4 0).setReg Reg.secLcPct 0).setReg Reg.secLcPos 1 with lc := some { target, stage := 1 } }

theorem State.lcRequest_of_allowed {target need : Nat} (hlc : s.m.lc = none)
    (hlisted : lcNeeds s.m.lcState (s.m.fld Reg.secLcstat 4 2) target = some need) (hauth : need = 0 ∨ s.authOk need = true)
    (hdrain : s.m.drain = none) (hkey : target = 1 → ecValid s.m.newKey.1 s.m.newKey.2 = true) :
    s.lcRequest w target = { s with m := s.m.lcBegun (Fin.ofNat 5 target) } := by
  have hauthorised : (decide (need ≠ 0) && !s.authOk need) = false := by
    rcases hauth with rfl | hauth
    · rfl
    · rw [hauth, Bool.not_true, Bool.and_false]
  have hvalid : (decide (target = 1) && !ecValid s.m.newKey.1 s.m.newKey.2) = false := by
    by_cases h : target = 1
    · rw [hkey h, Bool.not_true, Bool.and_false]
    · rw [decide_eq_false h, Bool.false_and]
  unfold Mach.newKey at hvalid
  simp only [State.lcRequest, not_shut_of hworld, hlc, hlisted, hauthorised, hvalid, hdrain, Option.isSome_none, Bool.false_eq_true, if_false]
  rfl

/-- A DEBUG authorisation opens debug. -/
theorem State.debugAuth_of_allowed (hlc : s.m.lc = none) (hauth : s.authOk 4 = true) :
    s.debugAuth w = { s with m := { s.m.setFld Reg.secLcstat 12 4 0 with dbgOpen := true } } := by
  simp only [State.debugAuth, not_shut_of hworld, hlc, hauth, Option.isSome_none, Bool.false_eq_true, if_false, if_true]
  rfl

-- ===== patches (R408) =====

/-- The minimum of a controller rises to the version of its running patch. -/
theorem State.patchRaise_of_allowed {c : Nat} (hc : c < 3) (hrun : (s.m.ctrl.get {} c).run = 2)
    (hpatch : s.m.fld (Reg.secPatch + 4 * c) 30 2 = 1)
    (habove : s.m.fld (Reg.secPatch + 4 * c) 8 6 < s.m.fld (Reg.secPatch + 4 * c) 0 6) :
    s.patchRaise w c =
      let f := { s.fuse with
        min := s.fuse.min.setIfInBounds c (BitVec.ofNat 32 (2 ^ s.m.fld (Reg.secPatch + 4 * c) 0 6 - 1)) }
      { s with fuse := f, m := s.m.fused f } := by
  simp only [State.patchRaise, not_shut_of hworld, hc.not_ge, hrun, hpatch, habove.not_ge, ne_eq, not_true_eq_false, decide_false,
    Bool.or_self, Bool.false_eq_true, if_false]

-- ===== held requests (R400) =====

/-- GRANT writes the oldest held request as the S world would. -/
theorem State.heldCmd_grant {x : BitVec 20 × W32} {rest : List (BitVec 20 × W32)} (a : Nat) (hheld : s.m.heldq = x :: rest) :
    s.heldCmd w a 1 = ({ s with m := { s.m with heldq := rest } } : State).writeWith (fun s _ _ _ => s) .s x.1.toNat x.2 := by
  simp only [State.heldCmd, not_shut_of hworld, hheld, ne_eq, not_true_eq_false, decide_false, Bool.false_and, Bool.false_eq_true, if_false,
    if_true]

/-- DENY discards it. -/
theorem State.heldCmd_deny {x : BitVec 20 × W32} {rest : List (BitVec 20 × W32)} (a : Nat) (hheld : s.m.heldq = x :: rest) :
    s.heldCmd w a 2 = { s with m := { s.m with heldq := rest } } := by
  simp only [State.heldCmd, not_shut_of hworld, hheld, ne_eq, not_true_eq_false, decide_false, Bool.and_false, Bool.false_eq_true, if_false,
    OfNat.ofNat_ne_one]

end

-- ===== the stages of a transition (R404) =====

section
variable {s : State} {l : LcTrans} (hlc : s.m.lc = some l)
include hlc

/-- Stage 1 has verified, and the drain starts. -/
theorem State.lcStageDone_one (hstage : l.stage = 1) :
    s.lcStageDone = { s with m := (s.m.drainStart .lifecycle).lcStage l 2 } := by
  simp only [State.lcStageDone, hlc, hstage]

/-- Stage 2 has drained; DECOMMISSIONED flushes nothing. -/
theorem State.lcStageDone_two (hstage : l.stage = 2) :
    s.lcStageDone =
      { s with m := if l.target = 4 then s.m.drainEnd.lcStage l 4 else (s.m.drainEnd.lcStage l 3).startFlush } := by
  simp only [State.lcStageDone, hlc, hstage]
  split <;> rfl

/-- Stage 3 has flushed. -/
theorem State.lcStageDone_three (hstage : l.stage = 3) : s.lcStageDone = { s.flushAll with m := s.flushAll.m.lcStage l 4 } := by
  simp only [State.lcStageDone, hlc, hstage]

/-- Stage 4 has burned all three copies. -/
theorem State.lcStageDone_four (hstage : l.stage = 4) :
    s.lcStageDone =
      let f := s.fuse.burn s.m.lcState l.target ((List.range 24).map fun i => s.m.reg (Reg.secKey + 4 * i)) 3
      { s with fuse := f, m := (s.m.fused f).lcStage { l with old := s.m.lcState } 5 } := by
  have hburnt : s.burnt 3 = s.fuse.burn s.m.lcState l.target ((List.range 24).map fun i => s.m.reg (Reg.secKey + 4 * i)) 3 := by
    simp only [State.burnt, hlc, hstage, if_true]
  simp only [State.lcStageDone, hlc, hstage, hburnt]

/-- The wipe of stage 5: the arrays and the buffered records, but neither the progress of the transition nor its result. -/
def State.lcWiped (s : State) : Mach :=
  let m := ((({ s.m with rcr := { s.m.rcr with buf := [], run := [], got := [], pend := [] } } : Mach).wipe s.fuse false 2).setReg
    Reg.secLcPct (s.m.reg Reg.secLcPct)).setReg Reg.secLcPos (s.m.reg Reg.secLcPos)
  (List.range 34).foldl (fun (m : Mach) h => (List.range (s.m.slice h).locks).foldl (fun (m : Mach) _ => m.lockLost h) m) m

/-- Stage 5 has wiped the arrays. -/
theorem State.lcStageDone_five (hstage : l.stage = 5) :
    s.lcStageDone =
      if l.target = 4 then { s with m := s.lcWiped.lcStage { l with bad := s.stuck } 6 }
      else ({ s with m := s.lcWiped } : State).lcRestart { l with bad := s.stuck } l.old := by
  simp only [State.lcStageDone, hlc, hstage, State.lcWiped]

/-- Stage 6 has erased the record store. -/
theorem State.lcStageDone_six (hstage : l.stage = 6) : s.lcStageDone = s.eraseStore.lcRestart l l.old := by
  simp only [State.lcStageDone, hlc, hstage]

end

/-- Settles O58: a request passes its refusals, and a stage ends as its number says. That the authorisation is verified at the request and
that NS may use the SEC page in BLANK are entry 44 of the assumption log, the window of a granted write is entry 29, and the result of
the wipe is entry 102. -/
theorem lifecycleAndHeldRequests : Obligations.LifecycleAndHeldRequests := by
  refine ⟨?provision, ?deploy, ?rma, ?decommission, ?debug, ?one, ?two, ?three, ?four, ?five, ?six, ?raise, ?grant, ?deny⟩
  case provision =>
    intro s w need hup hworld hlc hlisted hauth hdrain hkey
    exact exec_of_answered rfl hup (State.lcRequest_of_allowed hworld hlc hlisted hauth hdrain fun _ => hkey)
  case deploy =>
    intro s w need hup hworld hlc hlisted hauth hdrain
    exact exec_of_answered rfl hup (State.lcRequest_of_allowed hworld hlc hlisted hauth hdrain (absurd · (by decide)))
  case rma =>
    intro s w need hup hworld hlc hlisted hauth hdrain
    exact exec_of_answered rfl hup (State.lcRequest_of_allowed hworld hlc hlisted hauth hdrain (absurd · (by decide)))
  case decommission =>
    intro s w need hup hworld hlc hlisted hauth hdrain
    exact exec_of_answered rfl hup (State.lcRequest_of_allowed hworld hlc hlisted hauth hdrain (absurd · (by decide)))
  case debug =>
    intro s w hup hworld hlc hauth
    exact exec_of_answered rfl hup (State.debugAuth_of_allowed hworld hlc hauth)
  case one =>
    intro s l hup hlc hstage
    exact exec_of_event rfl hup (State.lcStageDone_one hlc hstage)
  case two =>
    intro s l hup hlc hstage
    exact exec_of_event rfl hup (State.lcStageDone_two hlc hstage)
  case three =>
    intro s l hup hlc hstage
    exact exec_of_event rfl hup (State.lcStageDone_three hlc hstage)
  case four =>
    intro s l hup hlc hstage
    exact exec_of_event rfl hup (State.lcStageDone_four hlc hstage)
  case five =>
    intro s l hup hlc hstage
    exact exec_of_event rfl hup (State.lcStageDone_five hlc hstage)
  case six =>
    intro s l hup hlc hstage
    exact exec_of_event rfl hup (State.lcStageDone_six hlc hstage)
  case raise =>
    intro s w ctrl hup hworld hctrl hrun hpatch habove
    exact exec_of_answered rfl hup (State.patchRaise_of_allowed hworld hctrl hrun hpatch habove)
  case grant =>
    intro s w x rest hup hworld hheld
    exact exec_of_answered rfl hup (State.heldCmd_grant hworld _ hheld)
  case deny =>
    intro s w x rest hup hworld hheld
    exact exec_of_answered rfl hup (State.heldCmd_deny hworld _ hheld)

end Sys2Proof.Machine
end

section
/-! PROOFS. The pages of slices and ports: injection, the side port, the counter controls, and the page lock
(`spec/16_register_convention_global.md`, `spec/17_register_slice_port.md`). -/

namespace Sys2Proof.Machine

-- ===== injection (R430) =====

/-- Injection is permitted in BLANK, PROVISIONED and RMA, and with debug open. -/
def Mach.MayInject (m : Mach) : Prop := m.lcState = 0 ∨ m.lcState = 1 ∨ m.lcState = 3 ∨ m.dbgOpen = true

/-- The word disarms, or its target and byte are listed. -/
def EinjListed (data : W32) : Prop :=
  data.getLsbD 31 = false ∨ (data.extractLsb' 0 4 = 1 ∧ (data.extractLsb' 8 4).toNat < 8) ∨
    ((data.extractLsb' 0 4 = 2 ∨ data.extractLsb' 0 4 = 3 ∨ data.extractLsb' 0 4 = 6) ∧ (data.extractLsb' 8 4).toNat < 6) ∨
    data.extractLsb' 0 4 = 4 ∨ data.extractLsb' 0 4 = 7

theorem Mach.einj_of_listed {m : Mach} (x h : Nat) {data : W32} (hmay : m.MayInject) (hlisted : EinjListed data) :
    m.einj .s x h data = m.setReg (hsA h Reg.hsEinj) (data &&& 0x80000F0F#32) := by
  have hstate : (!(decide (m.lcState = 0) || decide (m.lcState = 1) || decide (m.lcState = 3) || m.dbgOpen)) = false := by
    simp only [Bool.not_eq_false', Bool.or_eq_true, decide_eq_true_eq, or_assoc]
    exact hmay
  simp only [Mach.einj, Mach.sOnly, hstate, reduceCtorEq, Bool.false_eq_true, if_false]
  refine if_neg ?_
  rcases hlisted with harm | ⟨htgt, hbyte⟩ | ⟨htgt | htgt | htgt, hbyte⟩ | htgt | htgt
  · simp only [harm, Bool.false_and, Bool.false_eq_true, not_false_eq_true]
  iterate 4 simp only [htgt, hbyte, BitVec.ofNat_eq_ofNat, BitVec.reduceToNat, decide_true, Bool.not_true, Bool.and_false, Bool.false_eq_true,
      not_false_eq_true]
  iterate 2 simp only [htgt, BitVec.ofNat_eq_ofNat, BitVec.reduceToNat, Bool.not_true, Bool.and_false, Bool.false_eq_true, not_false_eq_true]

-- ===== the side port (R431, R432) =====

section
variable {m : Mach} {h : Nat}

section
variable {a : BitVec 4} {c : BitVec 2} (hmsp : (m.slice h).msp = none) (hheld : m.rvpHolds h = false)
  (hlisted : mspOk a c (m.fld (hsA h Reg.hsMspIdx) 0 18) = true)
include hmsp hheld hlisted

/-- A listed entry whose domain has power is read. -/
theorem Mach.mspStart_of_powered (x : Nat) (hpower : m.unpowered (mspDom h a (m.fld (hsA h Reg.hsMspIdx) 0 18)) = false) :
    m.mspStart .s x h a c =
      (m.ungate h).modS h fun v => { v with msp := some { array := a, chunk := c, idx := BitVec.ofNat 18 (m.fld (hsA h Reg.hsMspIdx) 0 18) } } := by
  simp only [Mach.mspStart, hmsp, hheld, hlisted, hpower, Option.isSome_none, Bool.or_self, Bool.not_true, reduceCtorEq,
    Bool.false_eq_true, if_false]

/-- One whose domain has none ends OFF at once. -/
theorem Mach.mspStart_of_unpowered (x : Nat) (hpower : m.unpowered (mspDom h a (m.fld (hsA h Reg.hsMspIdx) 0 18)) = true) :
    m.mspStart .s x h a c = m.mspEnd h 3 false 0 0 := by
  simp only [Mach.mspStart, hmsp, hheld, hlisted, hpower, Option.isSome_none, Bool.or_self, Bool.not_true, reduceCtorEq,
    Bool.false_eq_true, if_false, if_true]

end

/-- The read returns what the entry holds, or OFF. -/
theorem Mach.mspDone_of_reading {r : Msp} (hmsp : (m.slice h).msp = some r) :
    m.mspDone h =
      if m.unpowered (mspDom h r.array r.idx.toNat) then m.mspEnd h 3 false 0 0
      else ({ m with free := m.free + 2 } : Mach).mspEnd h 0 (m.mspRead h r).1 (m.mspRead h r).2.1 (m.mspRead h r).2.2 := by
  simp only [Mach.mspDone, hmsp]

end

-- ===== the counter controls (R435, R440) =====

/-- The word of CLR has clr, and freeze as the same write gives it. -/
theorem w32_clr_bits (freeze : Bool) :
    (w32 (2 + bitAt 0 freeze)).getLsbD 1 = true ∧ w32 (2 + bitAt 0 freeze) &&& 1 = if freeze then 1 else 0 := by
  cases freeze <;> decide

/-- The word of FREEZE has freeze alone. -/
theorem w32_freeze_bits (on : Bool) : (w32 (bitAt 0 on)).getLsbD 1 = false ∧ w32 (bitAt 0 on) &&& 1 = if on then 1 else 0 := by
  cases on <;> decide

section
variable (m : Mach) (ctl : Nat) (counters : List Nat)

theorem Mach.counterCtl_clr (freeze : Bool) :
    m.counterCtl ctl counters (w32 (2 + bitAt 0 freeze)) =
      counters.foldl (fun (m : Mach) a => m.setReg a 0) (m.setReg ctl (if freeze then 1 else 0)) := by
  obtain ⟨hclr, hfreeze⟩ := w32_clr_bits freeze
  rw [Mach.counterCtl, if_pos hclr, hfreeze]

theorem Mach.counterCtl_freeze (on : Bool) :
    m.counterCtl ctl counters (w32 (bitAt 0 on)) = m.setReg ctl (if on then 1 else 0) := by
  obtain ⟨hclr, hfreeze⟩ := w32_freeze_bits on
  rw [Mach.counterCtl, if_neg (ne_true_of_eq_false hclr), hfreeze]

end

-- ===== the lock of the GLB page (R420) =====

/-- PG_LOCK is a header register of the GLB page, whatever the integration (Table 16-2). -/
theorem regRow_glbPgLock (g : Integ) : regRow g (Reg.pgLock 0) = some ⟨0x01C, 1, 4, 0, 1, 0, 0, 0⟩ := rfl

/-- The lock bit is RW: it takes the value written, whatever it was. -/
theorem mergeWrite_one_bit (old : W32) : (mergeWrite 0 1#32 0#32 old 1#32).getLsbD 0 = true := by
  have hmerge : mergeWrite 0 1#32 0#32 old 1#32 = (old &&& ~~~1#32) ||| (1#32 &&& 1#32 &&& ~~~0#32) ||| (old &&& 1#32 &&& 1#32 &&& 0#32) := rfl
  rw [hmerge]
  simp

theorem Mach.worldBad_glbPgLock (m : Mach) (v : W32) : m.worldBad (Reg.pgLock 0) true v = false := rfl

/-- Either world locks the GLB page. -/
theorem State.write_glbPgLock (s : State) (w : World) :
    s.write w (Reg.pgLock 0) 1 = { s with m := s.m.setReg (Reg.pgLock 0) 1 } := by
  have hpage := pageRows_isNone_of_regRow (regRow_glbPgLock s.m.integ)
  have hprim : primary (Reg.pgLock 0) = Reg.pgLock 0 := rfl
  have hoff : Reg.pgLock 0 % 0x1000 = 0x01C := rfl
  have hevent : eventMask (Reg.pgLock 0) = 0 := rfl
  simp only [State.write, State.writeWith, hpage, hprim, hoff, hevent, regRow_glbPgLock, Nat.reduceDiv, Nat.reduceEqDiff,
    BitVec.ofNat_eq_ofNat, BitVec.reduceOr, BitVec.reduceEq, Mach.worldBad_glbPgLock, mergeWrite_one_bit, Mach.lockPage, ne_eq,
    not_true_eq_false, decide_true, decide_false, Bool.and_false, Bool.false_eq_true, if_false, if_true]

/-- Settles O60: each control meets a page that it may act on. That the side port shows free words in three arrays is entry 30 of the
assumption log. -/
theorem sliceAndPortPages : Obligations.SliceAndPortPages := by
  refine ⟨?einj, ?read, ?off, ?done, ?hscClr, ?hscFreeze, ?pctlClr, ?pctlFreeze, ?lock⟩
  case einj =>
    intro s hs data hup hmay hlisted
    exact exec_of_command rfl hup (Mach.einj_of_listed _ _ hmay hlisted)
  case read =>
    intro s hs array chunk hup hmsp hheld hlisted hpower
    exact exec_of_command rfl hup (Mach.mspStart_of_powered hmsp hheld hlisted _ hpower)
  case off =>
    intro s hs array chunk hup hmsp hheld hlisted hpower
    exact exec_of_command rfl hup (Mach.mspStart_of_unpowered hmsp hheld hlisted _ hpower)
  case done =>
    intro s hs r hup hmsp
    exact exec_of_run (f := fun m => m.mspDone hs.val) rfl hup (Mach.mspDone_of_reading hmsp)
  case hscClr =>
    intro s w hs freeze hup
    exact exec_of_command rfl hup (Mach.counterCtl_clr _ _ _ freeze)
  case hscFreeze =>
    intro s w hs on hup
    exact exec_of_command rfl hup (Mach.counterCtl_freeze _ _ _ on)
  case pctlClr =>
    intro s w port freeze hup hpop
    exact exec_of_command rfl hup ((if_pos hpop).trans (Mach.counterCtl_clr _ _ _ freeze))
  case pctlFreeze =>
    intro s w port on hup hpop
    exact exec_of_command rfl hup ((if_pos hpop).trans (Mach.counterCtl_freeze _ _ _ on))
  case lock =>
    intro s w hup
    refine exec_of_command (f := fun m => m.setReg (Reg.pgLock 0) 1) ?_ hup rfl
    change Host.Outcome.next (s.mgmt fun s => s.write w (Reg.pgLock 0) 1).settle = _
    simp only [State.command, State.ctl, State.mgmt, State.write_glbPgLock]

end Sys2Proof.Machine
end
